-- ==== Sys2Proof/Word.lean ====
section
/-! DEFINITION. The word types of the VL7 and the finite tables the state is made of. -/

namespace Sys2Proof

/-- A byte of memory (R3). -/
abbrev Byte := BitVec 8

/-- A 64-bit scalar register, CSR or memory word. -/
abbrev Word := BitVec 64

/-- A 2,048-bit vector register or latch (R16, R56). -/
abbrev VReg := BitVec 2048

/-- A finite table from numbers to values: pairs with strictly rising keys, none holding the value an unlisted
key reads as. -/
abbrev Tab (α : Type) := List (Nat × α)

end Sys2Proof
end

