-- ==== Sys2Proof/Machine/Bits.lean ====
section
/-! DEFINITION. Bit fields, sign extension, byte order and the finite tables' operations. -/

namespace Sys2Proof

/-- Bits [hi:lo] of a number. -/
def bits (x : Nat) (hi lo : Nat) : Nat := x / 2 ^ lo % 2 ^ (hi + 1 - lo)

/-- Bit n of a number. -/
def bit (x n : Nat) : Bool := x / 2 ^ n % 2 == 1

/-- Bits [hi:lo] of a word. -/
def Word.f (w : Word) (hi lo : Nat) : Nat := bits w.toNat hi lo

/-- Bit n of a word. -/
def Word.b (w : Word) (n : Nat) : Bool := bit w.toNat n

/-- The word w with bits [hi:lo] replaced by the low bits of v. -/
def Word.setF (w : Word) (hi lo v : Nat) : Word :=
  let n := hi + 1 - lo
  BitVec.ofNat 64 (w.toNat - bits w.toNat hi lo * 2 ^ lo + v % 2 ^ n * 2 ^ lo)

/-- The word whose bits are 1 from lo to hi. -/
def maskF (hi lo : Nat) : Nat := (2 ^ (hi + 1 - lo) - 1) * 2 ^ lo

/-- `old` with the bits of `mask` taken from `new` (R265: writable fields take theirs, the others keep theirs). -/
def Word.merge (old new : Word) (mask : Nat) : Word :=
  (old &&& ~~~(BitVec.ofNat 64 mask)) ||| (new &&& BitVec.ofNat 64 mask)

/-- The w-bit two's-complement reading of a number's low w bits (R40 sext). -/
def sext (x w : Nat) : Int :=
  let y := x % 2 ^ w
  if 2 * y < 2 ^ w then (y : Int) else (y : Int) - (2 ^ w : Nat)

/-- The low w bits of an integer, as a number: wrapping to width w. -/
def wrap (x : Int) (w : Nat) : Nat := (x % ((2 ^ w : Nat) : Int)).toNat

/-- An integer as a 64-bit word. -/
def toWord (x : Int) : Word := BitVec.ofInt 64 x

/-- A Bool as 0 or 1. -/
def b2n (b : Bool) : Nat := if b then 1 else 0

/-- The number of set bits among the low n bits of x (R45). -/
def popcount : Nat → Nat → Nat
  | 0, _ => 0
  | n + 1, x => x % 2 + popcount n (x / 2)

/-- The low n bytes of a number, least significant first (R3). -/
def toBytes : Nat → Nat → List Byte
  | 0, _ => []
  | n + 1, x => BitVec.ofNat 8 x :: toBytes n (x / 256)

/-- The number whose bytes, least significant first, are given (R3). -/
def ofBytes : List Byte → Nat
  | [] => 0
  | b :: bs => b.toNat + 256 * ofBytes bs

/-- The numbers base, base + 1, ... , n of them. -/
def upFrom : Nat → Nat → List Nat
  | _, 0 => []
  | base, n + 1 => base :: upFrom (base + 1) n

/-- The length of a number in binary: the place of its highest set bit plus one, searching the low n bits. -/
def bitLen : Nat → Nat → Nat
  | 0, _ => 0
  | n + 1, x => if bit x n then n + 1 else bitLen n x

/-- The largest y below 2^n with y * y * m at most lim: bit by bit from the top (VRSQ's root, R310). -/
def rootBelow : Nat → Nat → Nat → Nat → Nat
  | 0, _, _, y => y
  | n + 1, m, lim, y =>
    let y' := y + 2 ^ n
    if y' * y' * m ≤ lim then rootBelow n m lim y' else rootBelow n m lim y

namespace Tab

variable {α : Type}

/-- The value at key k; d where k is not listed. -/
def get (d : α) : Tab α → Nat → α
  | [], _ => d
  | (k', v) :: t, k => if k' = k then v else get d t k

/-- The table with key k at value v, keys rising. -/
def put : Tab α → Nat → α → Tab α
  | [], k, v => [(k, v)]
  | (k', v') :: t, k, v =>
    if k < k' then (k, v) :: (k', v') :: t
    else if k' = k then (k, v) :: t
    else (k', v') :: put t k v

/-- The table without key k. -/
def del : Tab α → Nat → Tab α
  | [], _ => []
  | (k', v') :: t, k => if k' = k then del t k else (k', v') :: del t k

/-- The value at key k, none where k is not listed. -/
def get? : Tab α → Nat → Option α
  | [], _ => none
  | (k', v) :: t, k => if k' = k then some v else get? t k

/-- The table with key k at value v, canonical for default d: v equal to d leaves no entry. -/
def set [DecidableEq α] (d : α) (t : Tab α) (k : Nat) (v : α) : Tab α :=
  if v = d then t.del k else t.put k v

/-- Keys strictly rising, each above lo, no entry equal to d. -/
def wfFrom [DecidableEq α] (d : α) : Nat → Tab α → Bool
  | _, [] => true
  | lo, (k, v) :: t => decide (lo ≤ k) && decide (v ≠ d) && wfFrom d (k + 1) t

/-- The canonical form: keys strictly rising and no entry equal to d. -/
def wf [DecidableEq α] (d : α) (t : Tab α) : Bool := wfFrom d 0 t

/-- Writes a list of values at consecutive keys. -/
def setMany [DecidableEq α] (d : α) (t : Tab α) (k : Nat) : List α → Tab α
  | [] => t
  | v :: vs => setMany d (set d t k v) (k + 1) vs

/-- Reads n values at consecutive keys. -/
def getMany (d : α) (t : Tab α) (k n : Nat) : List α := (upFrom k n).map (get d t)

/-- Drops every key for which p holds. -/
def dropKeys (t : Tab α) (p : Nat → Bool) : Tab α := t.filter fun kv => !p kv.1

end Tab

end Sys2Proof
end

