-- ==== Sys2Proof/Syntax.lean ====
section
/-! DEFINITION. The instruction syntax: one constructor per row of spec/opcode_table.json. Rows 0-214 are slot
operations (their operands already carry the lent bits of R51); rows 215-343 are events of the module's units. -/

namespace Sys2Proof

/-- A destination of an RR, RI or VI slot: the register number, bit 6 from the lent bit where the field names a V
register (R52), and s, write-back suppression (R55). -/
structure Dst where
  reg : BitVec 7
  s : Bool
deriving DecidableEq, Repr

/-- A source of an RR or RI slot: the field (with its lent bit 6 for a V register), and its latch bit (R54). -/
structure Src where
  reg : BitVec 7
  l : Bool
deriving DecidableEq, Repr

/-- A message between herders (R416 to R419, R424): its key (GID, round, sender, TAG); kind 0 data, 1 a partial, 2 a count
of A2A, 3 the address A2A returns, 4 the release of A2A, 5 a SAR partial, 6 a SAR result; type and operation; the bytes, or
the exact values of a partial with its contributors; the ranks excluded; the places of the poisoned bytes. -/
structure CollMsg where
  gid : Nat
  round : Nat
  sender : Nat
  tag : Nat
  kind : Nat
  ty : Nat
  op : Nat
  bytes : List Byte
  vals : List Int
  incl : List Nat
  excl : List Nat
  bad : List Nat
deriving DecidableEq, Repr

/-- What a packet asks its target module to do (R119, R145, R277, R416, R423); poisoned: a write whose bytes at the offsets are
poisoned (R451); part: 256 bytes of a message whose last packet is a coll (R357); ack: no access, but the acknowledgement of one, with its
reply (R145). -/
inductive PktOp where
  | read
  | write
  | poisoned (bad : List Nat)
  | atomic (op : Nat) (ops : List Word)
  | remop (block : List Byte)
  | appendRow (row : Nat)
  | discard
  | part
  | coll (m : CollMsg)
  | ack (data : List Byte) (cause pstate : Nat)
deriving DecidableEq, Repr

/-- A packet between modules (R356, R357): end-to-end number, predecessor, unit, operation, address and data; the virtual channel it has
come on, and the direction of the torus link it came by (R367). An acknowledgement carries the number of its access. -/
structure Packet where
  src : Nat
  dst : Nat
  seq : Nat
  pred : Option Nat
  isOpen : Bool
  reset : Bool
  relayed : Bool
  cls : Nat
  unit : Nat
  unitk : Nat
  op : PktOp
  ia : Nat
  len : Nat
  data : List Byte
  lease : Option Nat
  vc : Bool
  via : Option Nat
deriving DecidableEq, Repr

/-- What a codeword that reaches a link holds beside its numbers (R353): the credits for each class and channel, the sender's depths, how
many flits, and the class and channel, as 2 × class + channel, of each packet that ends in it. -/
structure CwLoad where
  credits : List Nat
  depths : List Nat
  flits : Nat
  ends : List Nat
deriving DecidableEq, Repr

/-- One logged result a spare replays (R425, R426): a type-1 entry's round, its VA, its bytes. -/
structure CatchEntry where
  round : Nat
  va : Nat
  data : List Byte
deriving DecidableEq, Repr

/-- What the donor's herder answers to the reads of a spare beside the type-1 entries (R426): whether the donor is reachable, the LOGFIRST
of its log and the last round held in it, and the donor's members for round J. -/
structure CatchLog where
  reachable : Bool
  first : Nat
  last : Nat
  members : List Nat
deriving DecidableEq, Repr

/-- Every operation and event of the part, one constructor per row of the opcode table. -/
inductive Instr where
  /-- NOP (R69): Does nothing in any slot position. -/
  | nop
  /-- ADD (R241): Wrapping sum of two scalar sources, 64-bit or 32-bit by W. -/
  | add (w : Bool) (d : Dst) (a b : Src)
  /-- ADDI (R242): Adds a sign-extended immediate to a scalar source. -/
  | addi (d : Dst) (a : Src) (imm : BitVec 19)
  /-- SUB (R241): Wrapping difference of two scalar sources. -/
  | sub (w : Bool) (d : Dst) (a b : Src)
  /-- SADD (R241): Signed saturating sum. -/
  | sadd (w : Bool) (d : Dst) (a b : Src)
  /-- SSUB (R241): Signed saturating difference. -/
  | ssub (w : Bool) (d : Dst) (a b : Src)
  /-- MUL (R241): Low half of the product. -/
  | mul (w : Bool) (d : Dst) (a b : Src)
  /-- MULH (R241): High half of the signed product. -/
  | mulh (w : Bool) (d : Dst) (a b : Src)
  /-- MULHU (R241): High half of the unsigned product. -/
  | mulhu (w : Bool) (d : Dst) (a b : Src)
  /-- DIV (R241): Signed quotient toward zero; traps 0x0C3 on zero divisor. -/
  | div (w : Bool) (d : Dst) (a b : Src)
  /-- DIVU (R241): Unsigned quotient; traps 0x0C3 on zero divisor. -/
  | divu (w : Bool) (d : Dst) (a b : Src)
  /-- REM (R241): Signed remainder matching DIV. -/
  | rem (w : Bool) (d : Dst) (a b : Src)
  /-- REMU (R241): Unsigned remainder matching DIVU. -/
  | remu (w : Bool) (d : Dst) (a b : Src)
  /-- AND (R241): Bitwise AND of two scalar sources. -/
  | and (d : Dst) (a b : Src)
  /-- ANDI (R242): Bitwise AND with an immediate. -/
  | andi (d : Dst) (a : Src) (imm : BitVec 19)
  /-- OR (R241): Bitwise OR of two scalar sources. -/
  | or (d : Dst) (a b : Src)
  /-- ORI (R242): Bitwise OR with an immediate. -/
  | ori (d : Dst) (a : Src) (imm : BitVec 19)
  /-- XOR (R241): Bitwise XOR of two scalar sources. -/
  | xor (d : Dst) (a b : Src)
  /-- XORI (R242): Bitwise XOR with an immediate. -/
  | xori (d : Dst) (a : Src) (imm : BitVec 19)
  /-- SHL (R241): Shift left by a register amount. -/
  | shl (w : Bool) (d : Dst) (a b : Src)
  /-- SHLI (R242): Shift left by an immediate 0-63. -/
  | shli (d : Dst) (a : Src) (amt : BitVec 6)
  /-- SHR (R241): Logical right shift by a register amount. -/
  | shr (w : Bool) (d : Dst) (a b : Src)
  /-- SHRI (R242): Logical right shift by an immediate. -/
  | shri (d : Dst) (a : Src) (amt : BitVec 6)
  /-- SRA (R241): Arithmetic right shift by a register amount. -/
  | sra (w : Bool) (d : Dst) (a b : Src)
  /-- SRAI (R242): Arithmetic right shift by an immediate. -/
  | srai (d : Dst) (a : Src) (amt : BitVec 6)
  /-- MIN (R241): Signed minimum. -/
  | min (w : Bool) (d : Dst) (a b : Src)
  /-- MAX (R241): Signed maximum. -/
  | max (w : Bool) (d : Dst) (a b : Src)
  /-- MINU (R241): Unsigned minimum. -/
  | minu (w : Bool) (d : Dst) (a b : Src)
  /-- MAXU (R241): Unsigned maximum. -/
  | maxu (w : Bool) (d : Dst) (a b : Src)
  /-- CLZ (R241): Counts leading zeros. -/
  | clz (w : Bool) (d : Dst) (a : Src)
  /-- CLS (R241): Counts redundant sign bits. -/
  | cls (w : Bool) (d : Dst) (a : Src)
  /-- POPC (R241): Counts set bits. -/
  | popc (w : Bool) (d : Dst) (a : Src)
  /-- SEXT (R243): Sign- or zero-extends the low 8, 16 or 32 bits of a source. -/
  | sext (u : Bool) (n : BitVec 2) (d : Dst) (a : Src)
  /-- LUI (R244): Shifts a source left by the immediate width and adds the unsigned immediate. -/
  | lui (wide : Bool) (d : Dst) (a : Src) (imm : BitVec 19)
  /-- CMP (R245): Compares two scalar sources and writes a predicate. -/
  | cmp (c : BitVec 4) (d : Dst) (a b : Src)
  /-- CMPI (R246): Compares a source with an immediate and writes a predicate. -/
  | cmpi (c : BitVec 2) (d : Dst) (a : Src) (imm : BitVec 19)
  /-- QOP (R247): Logical operation on two predicates. -/
  | qop (o : BitVec 4) (d : Dst) (a b : Src)
  /-- QMOV_Q_FROM_G (R248): Sets a predicate to whether a scalar source is non-zero. -/
  | qmovQFromG (d : Dst) (a : Src)
  /-- QMOV_G_FROM_Q (R248): Copies a predicate into a G register. -/
  | qmovGFromQ (d : Dst) (a : Src)
  /-- QMOV_ALLG (R248): Writes the image of all 16 predicates into a G register. -/
  | qmovAllg (d : Dst)
  /-- QMOV_ALLQ (R248): Sets Q1-Q15 from bits of a scalar source. -/
  | qmovAllq (s : Bool) (a : Src)
  /-- SEL (R249): Selects one of two sources by a predicate. -/
  | sel (d : Dst) (a b : Src) (c : BitVec 4)
  /-- BR (R250): Unconditional PC-relative branch with a delay bundle. -/
  | br (disp : BitVec 21)
  /-- BRT (R250): Branch taken when the predicate is 1. -/
  | brt (q : BitVec 4) (disp : BitVec 21)
  /-- BRF (R250): Branch taken when the predicate is 0. -/
  | brf (q : BitVec 4) (disp : BitVec 21)
  /-- CALL (R250): Branch that writes the return address to G63. -/
  | call (disp : BitVec 21)
  /-- CALLT (R252): Calls through a jump-table entry with landing check, writing G63. -/
  | callt (i t : BitVec 6) (c : BitVec 8)
  /-- RET (R251): Branches to the address in a G register. -/
  | ret (x : BitVec 6)
  /-- JMPT (R252): Jumps through a jump-table entry with landing check. -/
  | jmpt (i t : BitVec 6) (c : BitVec 8)
  /-- LPAD (R68): Landing pad that satisfies a table-jump label check. -/
  | lpad (label : BitVec 12)
  /-- LOOP (R255): Pushes a hardware loop with a count from a G register. -/
  | loop (x : BitVec 6) (len : BitVec 13)
  /-- LOOPI (R255): Pushes a hardware loop with an immediate count. -/
  | loopi (c : BitVec 12) (len : BitVec 13)
  /-- LBRK (R257): Conditionally leaves n enclosing hardware loops as a branch. -/
  | lbrk (q : BitVec 4) (n : BitVec 3)
  /-- YIELD (R258): Gives up issue so the run queue chooses a task. -/
  | yield
  /-- WAITC (R260): Waits for a copy named by tag and promise. -/
  | waitc (a : BitVec 6)
  /-- WAITE (R261): Sleeps until an acquire-read memory word passes a test. -/
  | waite (t : BitVec 3) (sc : BitVec 3) (a b : BitVec 6)
  /-- TWAIT_ALL (R349): Waits for every unretired tile task of the task. -/
  | twaitAll (y : BitVec 6)
  /-- TWAIT (R349): Waits for tile tasks that write a tile register. -/
  | twait (x y : BitVec 6)
  /-- TWAIT_Z (R349): Waits for tile tasks that write an accumulator. -/
  | twaitZ (x : BitVec 5) (y : BitVec 6)
  /-- END (R262): Ends the task; it enters ENDING. -/
  | endTask
  /-- TRAPI (R263): Raises cause 0x1C0 plus the immediate after its bundle commits. -/
  | trapi (i : BitVec 6)
  /-- ERET (R225): Returns from a trap handler, re-issuing the trapped bundle and replaying the shadow buffer. -/
  | eret
  /-- CSRR (R265): Reads a CSR into a G register. -/
  | csrr (d : BitVec 6) (c : BitVec 12)
  /-- CSRW (R265): Writes the writable fields of a CSR from a G register. -/
  | csrw (a : BitVec 6) (c : BitVec 12)
  /-- FENCE (R268): Orders earlier memory accesses before later ones at a scope. -/
  | fence (sc : BitVec 3)
  /-- LAUNCH (R155): Posts a launch record to the launch scheduler and returns admitted or full in a predicate. -/
  | launch (a : BitVec 6) (d : BitVec 4)
  /-- LAUNCH_W (R157): Posts a launch record and parks the task until it is posted. -/
  | launchW (a : BitVec 6) (d : BitVec 4)
  /-- BARINIT (R194): Initialises or re-arms a barrier entry with count and bound. -/
  | barinit (a b : BitVec 6) (n : BitVec 9)
  /-- BARARR (R195): Releases and arrives at a barrier, returning the phase. -/
  | bararr (a d : BitVec 6) (n : BitVec 9)
  /-- BARWAIT (R195): Sleeps until a barrier phase is released or broken. -/
  | barwait (a b : BitVec 6) (n : BitVec 9)
  /-- BARWAIT_A (R195): Arrives at a barrier and waits for the phase arrived at. -/
  | barwaitA (a : BitVec 6) (n : BitVec 9)
  /-- BARQ (R195): Returns the status word of a barrier entry. -/
  | barq (a d : BitVec 6) (n : BitVec 9)
  /-- LDB (R269): Loads one byte sign-extended. -/
  | ldb (d b : BitVec 6) (k : BitVec 4) (off : BitVec 17)
  /-- LDS (R269): Loads two bytes sign-extended. -/
  | lds (d b : BitVec 6) (k : BitVec 4) (off : BitVec 17)
  /-- LDW (R269): Loads four bytes sign-extended. -/
  | ldw (d b : BitVec 6) (k : BitVec 4) (off : BitVec 17)
  /-- LDD (R269): Loads eight bytes. -/
  | ldd (d b : BitVec 6) (k : BitVec 4) (off : BitVec 17)
  /-- STB (R269): Stores one byte. -/
  | stb (d b : BitVec 6) (k : BitVec 4) (off : BitVec 17)
  /-- STS (R269): Stores two bytes. -/
  | sts (d b : BitVec 6) (k : BitVec 4) (off : BitVec 17)
  /-- STW (R269): Stores four bytes. -/
  | stw (d b : BitVec 6) (k : BitVec 4) (off : BitVec 17)
  /-- STD (R269): Stores eight bytes. -/
  | std (d b : BitVec 6) (k : BitVec 4) (off : BitVec 17)
  /-- LD_ACQ (R270): Ordered acquire load at a scope. -/
  | ldAcq (d b : BitVec 6) (k : BitVec 4) (sc : BitVec 3) (z : BitVec 2) (zx : Bool)
  /-- ST_REL (R270): Ordered release store at a scope. -/
  | stRel (d b : BitVec 6) (k : BitVec 4) (sc : BitVec 3) (z : BitVec 2)
  /-- LDH (R272): Hoisted load recorded in a hoisted-load table entry. -/
  | ldh (d b : BitVec 6) (k : BitVec 4) (e : BitVec 5) (z : BitVec 2) (zx : Bool)
  /-- CHKH (R273): Delivers a hoisted load's value or reloads afresh. -/
  | chkh (d b : BitVec 6) (k : BitVec 4) (e : BitVec 5) (z : BitVec 2) (zx : Bool)
  /-- AADD (R274): Atomic add returning the old value. -/
  | aadd (d b v : BitVec 6) (o : BitVec 2) (sc : BitVec 3) (z : Bool)
  /-- ASADD (R274): Atomic saturating add. -/
  | asadd (d b v : BitVec 6) (o : BitVec 2) (sc : BitVec 3) (z : Bool)
  /-- AMIN (R274): Atomic signed minimum. -/
  | amin (d b v : BitVec 6) (o : BitVec 2) (sc : BitVec 3) (z : Bool)
  /-- AMAX (R274): Atomic signed maximum. -/
  | amax (d b v : BitVec 6) (o : BitVec 2) (sc : BitVec 3) (z : Bool)
  /-- AAND (R274): Atomic AND. -/
  | aand (d b v : BitVec 6) (o : BitVec 2) (sc : BitVec 3) (z : Bool)
  /-- AOR (R274): Atomic OR. -/
  | aor (d b v : BitVec 6) (o : BitVec 2) (sc : BitVec 3) (z : Bool)
  /-- AXCHG (R274): Atomic exchange. -/
  | axchg (d b v : BitVec 6) (o : BitVec 2) (sc : BitVec 3) (z : Bool)
  /-- ACAS (R274): Atomic compare-and-swap. -/
  | acas (d b v : BitVec 6) (o : BitVec 2) (sc : BitVec 3) (z : Bool)
  /-- ACAS2 (R275): Compare-and-swap of two adjacent 8-byte words. -/
  | acas2 (d b v : BitVec 6) (o : BitVec 2) (sc : BitVec 3)
  /-- REMOP (R277): Asks a retriever to perform FADD, MCAS, ENQ or CHASE at a target. -/
  | remop (d b v : BitVec 6) (o : BitVec 2) (sc : BitVec 3)
  /-- PGDISC (R119): Discards every page wholly inside a virtual range. -/
  | pgdisc (a b : Src)
  /-- PGPREF (R120): Prefetches translations of a range into translation caches. -/
  | pgpref (a b : Src)
  /-- PGPREF_REC (R120): Prefetches translations and records pages that would fault a read. -/
  | pgprefRec (a b : Src)
  /-- PGPREF_RECW (R120): Prefetches translations and records pages that would fault a write. -/
  | pgprefRecw (a b : Src)
  /-- PKGET (R393): Retriever copies its oldest inbox packet to SRAM. -/
  | pkget (d : Dst) (a : Src)
  /-- PKREPLY (R393): Retriever sends a REMOP reply and removes the packet. -/
  | pkreply (a b : Src)
  /-- PKFWD (R393): Retriever forwards a REMOP packet to another retriever. -/
  | pkfwd (a b : Src)
  /-- PKDONE (R393): Retriever removes a packet, refusing a REMOP with a cause. -/
  | pkdone (a b : Src)
  /-- VADD (R288): Element-wise wrapping add. -/
  | vadd (t : BitVec 2) (d : Dst) (a b : Src)
  /-- VSUB (R288): Element-wise wrapping subtract. -/
  | vsub (t : BitVec 2) (d : Dst) (a b : Src)
  /-- VSADD (R288): Element-wise saturating add. -/
  | vsadd (t : BitVec 2) (d : Dst) (a b : Src)
  /-- VSSUB (R288): Element-wise saturating subtract. -/
  | vssub (t : BitVec 2) (d : Dst) (a b : Src)
  /-- VMUL (R288): Element-wise low product. -/
  | vmul (t : BitVec 2) (d : Dst) (a b : Src)
  /-- VMULH (R288): Element-wise high product. -/
  | vmulh (t : BitVec 2) (d : Dst) (a b : Src)
  /-- VMULH_Q (R288): Element-wise fixed-point rounded product. -/
  | vmulhQ (t : BitVec 2) (d : Dst) (a b : Src)
  /-- VMAC (R288): Element-wise saturating multiply-accumulate into Vd. -/
  | vmac (t : BitVec 2) (d : Dst) (a b : Src)
  /-- VMIN (R288): Element-wise minimum. -/
  | vmin (t : BitVec 2) (d : Dst) (a b : Src)
  /-- VMAX (R288): Element-wise maximum. -/
  | vmax (t : BitVec 2) (d : Dst) (a b : Src)
  /-- VABS (R288): Element-wise saturating absolute value. -/
  | vabs (t : BitVec 2) (d : Dst) (a : Src)
  /-- VNEG (R288): Element-wise saturating negation. -/
  | vneg (t : BitVec 2) (d : Dst) (a : Src)
  /-- VAND (R288): Bitwise AND of vectors. -/
  | vand (t : BitVec 2) (d : Dst) (a b : Src)
  /-- VOR (R288): Bitwise OR of vectors. -/
  | vor (t : BitVec 2) (d : Dst) (a b : Src)
  /-- VXOR (R288): Bitwise XOR of vectors. -/
  | vxor (t : BitVec 2) (d : Dst) (a b : Src)
  /-- VSHL (R288): Element-wise wrapping left shift. -/
  | vshl (t : BitVec 2) (d : Dst) (a b : Src)
  /-- VSHL_S (R288): Element-wise saturating left shift. -/
  | vshlS (t : BitVec 2) (d : Dst) (a b : Src)
  /-- VSHR (R288): Element-wise logical right shift. -/
  | vshr (t : BitVec 2) (d : Dst) (a b : Src)
  /-- VSRA (R288): Element-wise arithmetic right shift. -/
  | vsra (t : BitVec 2) (d : Dst) (a b : Src)
  /-- VNSHR (R292): Narrowing right shift with rounding to nearest even into one half of Vd. -/
  | vnshr (t : BitVec 2) (h : Bool) (d : Dst) (a b : Src)
  /-- VCMP (R289): Element-wise compare writing -1 or 0. -/
  | vcmp (c t : BitVec 2) (d : Dst) (a b : Src)
  /-- VSEL (R290): Selects elements by the old content of Vd. -/
  | vsel (t : BitVec 2) (d : Dst) (a b : Src)
  /-- VKOP_AND (R291): AND of two lane masks. -/
  | vkopAnd (d : Dst) (a b : Src)
  /-- VKOP_OR (R291): OR of two lane masks. -/
  | vkopOr (d : Dst) (a b : Src)
  /-- VKOP_XOR (R291): XOR of two lane masks. -/
  | vkopXor (d : Dst) (a b : Src)
  /-- VKOP_ANDN (R291): AND-NOT of two lane masks. -/
  | vkopAndn (d : Dst) (a b : Src)
  /-- VKOP_FROMV (R291): Builds a lane mask from non-zero lanes of a vector. -/
  | vkopFromv (d : Dst) (a : Src)
  /-- VKOP_TOV (R291): Expands a lane mask into a vector of -1 and 0. -/
  | vkopTov (d : Dst) (a : Src)
  /-- VKOP_FROMG (R291): Loads a lane mask from a G register. -/
  | vkopFromg (d : Dst) (a : Src)
  /-- VKOP_TOG (R291): Copies a lane mask into a G register. -/
  | vkopTog (d : Dst) (a : Src)
  /-- VKOP_POPC (R291): Counts set bits of a lane mask into a G register. -/
  | vkopPopc (d : Dst) (a : Src)
  /-- VCVT (R292): Converts element width with a signed shift, rounding to nearest even and saturating. -/
  | vcvt (t q : BitVec 2) (d : Dst) (a b : Src)
  /-- VWIDEN (R292): Widens one half of a vector's elements. -/
  | vwiden (t : BitVec 2) (h u : Bool) (d : Dst) (a : Src)
  /-- VPACK (R292): Saturating pack of two wide vectors into one narrow vector. -/
  | vpack (t : BitVec 2) (d : Dst) (a b : Src)
  /-- VUNPK (R293): Even, odd or zip rearrangement of two vectors. -/
  | vunpk (f t : BitVec 2) (d : Dst) (a b : Src)
  /-- VSHUF (R295): Shuffles elements by the active copy of a pattern. -/
  | vshuf (t : BitVec 2) (d : Dst) (a : Src) (b : BitVec 6)
  /-- VPLD (R294): Loads the loading copy of a shuffle pattern from a vector. -/
  | vpld (d : Dst) (a : Src)
  /-- VPSW (R294): Exchanges active and loading copies of one pattern. -/
  | vpsw (d : Dst)
  /-- VPSW_ALL (R294): Exchanges active and loading copies of every pattern. -/
  | vpswAll (s : Bool)
  /-- VREDS (R296): Exact sum reduction saturated to INT32 in all lanes. -/
  | vreds (t : BitVec 2) (d : Dst) (a : Src)
  /-- VREDS_SQ (R296): Exact sum-of-squares reduction. -/
  | vredsSq (t : BitVec 2) (d : Dst) (a : Src)
  /-- VREDM_MAX (R296): Maximum reduction. -/
  | vredmMax (t : BitVec 2) (d : Dst) (a : Src)
  /-- VREDM_MIN (R296): Minimum reduction. -/
  | vredmMin (t : BitVec 2) (d : Dst) (a : Src)
  /-- VREDM_AMAX (R296): Absolute-maximum reduction. -/
  | vredmAmax (t : BitVec 2) (d : Dst) (a : Src)
  /-- VSCAN (R296): Inclusive prefix sum with per-element saturation. -/
  | vscan (t : BitVec 2) (d : Dst) (a : Src)
  /-- VSCAN_EX (R296): Exclusive prefix sum. -/
  | vscanEx (t : BitVec 2) (d : Dst) (a : Src)
  /-- VBCAST (R297): Broadcasts a scalar into every element. -/
  | vbcast (t : BitVec 2) (d : Dst) (a : Src)
  /-- VBCAST_V (R297): Broadcasts one indexed element of a vector. -/
  | vbcastV (t : BitVec 2) (d : Dst) (a b : Src)
  /-- VEXTR (R297): Extracts an indexed element into a G register. -/
  | vextr (t : BitVec 2) (d : Dst) (a b : Src)
  /-- VMOVI (R297): Sets every element to a sign-extended 16-bit immediate. -/
  | vmovi (t : BitVec 2) (d : Dst) (c : BitVec 16)
  /-- VLD (R298): Loads 256 contiguous bytes into a vector register. -/
  | vld (d : BitVec 7) (b : BitVec 6) (k : BitVec 4) (off : BitVec 16)
  /-- VST (R298): Stores a vector register to 256 contiguous bytes. -/
  | vst (d : BitVec 7) (b : BitVec 6) (k : BitVec 4) (off : BitVec 16)
  /-- VGATH (R299): Gathers one element per lane from lane offsets. -/
  | vgath (u : Bool) (t : BitVec 2) (d : Dst) (a b : Src)
  /-- VSCAT (R299): Scatters one element per lane to lane offsets. -/
  | vscat (t : BitVec 2) (d : Dst) (a b : Src)
  /-- VTLD (R300): Loads 256 raw tile-store bytes into a vector register. -/
  | vtld (d : BitVec 7) (b : BitVec 6) (off : BitVec 16)
  /-- VTST (R300): Stores a vector register to 256 raw tile-store bytes. -/
  | vtst (d : BitVec 7) (b : BitVec 6) (off : BitVec 16)
  /-- VLDR (R283): Reads a physical vector register by index. -/
  | vldr (d : Dst) (a : Src)
  /-- VSTR (R283): Writes a physical vector register by index. -/
  | vstr (s : Bool) (a b : Src)
  /-- VDEFER (R303): Appends masked lanes of vector registers to a kennel. -/
  | vdefer (c : BitVec 3) (q : BitVec 2) (s : Bool) (a b : Src)
  /-- VDRAIN (R303): Removes up to 64 entries from a kennel into vector and mask registers. -/
  | vdrain (c : BitVec 3) (q : BitVec 2) (d : Dst) (k : BitVec 3)
  /-- VCLS (R304): Redundant sign bits of each element. -/
  | vcls (t : BitVec 2) (d : Dst) (a : Src)
  /-- VCLS_MIN (R304): Minimum redundant sign bits over all elements. -/
  | vclsMin (t : BitVec 2) (d : Dst) (a : Src)
  /-- VRNDS (R305): Stochastic right shift drawing one noise word per element. -/
  | vrnds (t : BitVec 2) (d : Dst) (a b : Src)
  /-- VRNDS_NAR (R305): Stochastic narrowing shift into one half of Vd. -/
  | vrndsNar (t : BitVec 2) (h : Bool) (d : Dst) (a b : Src)
  /-- VEXP2 (R308): Packed exponent and mantissa of 2^x. -/
  | vexp2 (d : Dst) (a b : Src)
  /-- VEXP2_Q (R308): 2^x as a Q14 value. -/
  | vexp2Q (d : Dst) (a b : Src)
  /-- VLOG2 (R309): log2 x with F fractional bits. -/
  | vlog2 (d : Dst) (a b : Src)
  /-- VRCP (R310): Reciprocal mantissa of each lane. -/
  | vrcp (d : Dst) (a : Src)
  /-- VRSQ (R310): Reciprocal square-root mantissa of each lane. -/
  | vrsq (d : Dst) (a : Src)
  /-- VDIVQ (R310): Q15 quotient of two lanes rounded toward minus infinity. -/
  | vdivq (d : Dst) (a b : Src)
  /-- VOPTM (R313): Posts a first-moment optimiser update tile task. -/
  | voptm (s : Bool) (d a : BitVec 6) (b : Src)
  /-- VOPTV (R313): Posts a second-moment optimiser update tile task. -/
  | voptv (s : Bool) (d a : BitVec 6) (b : Src)
  /-- VOPTS (R313): Posts a weight-step optimiser tile task. -/
  | vopts (s : Bool) (d a : BitVec 6) (b : Src)
  /-- VOPTM_L (R391): Retriever lane form of the first-moment update. -/
  | voptmL (d : Dst) (a : BitVec 7) (b : Src)
  /-- VOPTV_L (R391): Retriever lane form of the second-moment update. -/
  | voptvL (d : Dst) (a : BitVec 7) (b : Src)
  /-- VOPTS_L (R391): Retriever lane form of the weight step. -/
  | voptsL (d : Dst) (a : BitVec 7) (b : Src)
  /-- TDSET (R321): Writes a tile descriptor from a G pair and clears its census. -/
  | tdset (x y : BitVec 6)
  /-- TSCL (R322): Writes a tile scale register. -/
  | tscl (x y : BitVec 6)
  /-- TSCL_Z (R322): Writes an accumulator exponent register. -/
  | tsclZ (x : BitVec 5) (y : BitVec 6)
  /-- TCENS (R323): Reads a census or scale register of a tile or accumulator. -/
  | tcens (c : BitVec 2) (x y : BitVec 6)
  /-- TMMA (R327): Posts a dense matrix product into an accumulator. -/
  | tmma (x : BitVec 5) (y z : BitVec 6)
  /-- TMMAS (R328): Posts a bitmap-sparse matrix product. -/
  | tmmas (x : BitVec 5) (y z : BitVec 6)
  /-- TMMAO (R330): Posts the outlier-channel product with aligned accumulation. -/
  | tmmao (x : BitVec 5) (y z : BitVec 6)
  /-- ALGLD (R337): Loads an algebra structure-constant table into a slot. -/
  | algld (x : BitVec 2) (y : BitVec 6)
  /-- TMMAA (R338): Posts an algebra matrix product A ⊗ B. -/
  | tmmaa (x : BitVec 5) (y z : BitVec 6) (n : BitVec 2)
  /-- TMMAA_SW (R338): Posts an algebra matrix product B ⊗ A. -/
  | tmmaaSw (x : BitVec 5) (y z : BitVec 6) (n : BitVec 2)
  /-- TCONJ (R339): Posts algebra conjugation of a tile. -/
  | tconj (x y : BitVec 6) (n : BitVec 2)
  /-- TNORM (R340): Posts algebra norm of a tile into an accumulator. -/
  | tnorm (x : BitVec 5) (y : BitVec 6) (n : BitVec 2)
  /-- TACC (R332): Posts aligned accumulation of a tile into an accumulator. -/
  | tacc (x : BitVec 5) (y : BitVec 6)
  /-- TACC_Z (R332): Posts aligned accumulation of one accumulator into another. -/
  | taccZ (x y : BitVec 5)
  /-- TZERO (R333): Posts clearing of an accumulator to EMPTY. -/
  | tzero (x : BitVec 5)
  /-- TDRAIN (R334): Posts a narrowing drain of an accumulator into a tile. -/
  | tdrain (x : BitVec 6) (y : BitVec 5)
  /-- TDRAIN_Z (R334): Posts a drain that also zeroes the accumulator. -/
  | tdrainZ (x : BitVec 6) (y : BitVec 5)
  /-- TRESC (R335): Posts a rescale of a tile into a tile with an adjusted shift. -/
  | tresc (x y adj : BitVec 6)
  /-- TRESC_Z (R335): Posts a rescale from an accumulator into a tile. -/
  | trescZ (x : BitVec 6) (y : BitVec 5) (adj : BitVec 6)
  /-- TXPS (R344): Posts a transpose of one tile into another. -/
  | txps (x y z : BitVec 6)
  /-- TLD (R344): Posts a tile load from memory. -/
  | tld (x y z : BitVec 6)
  /-- TST (R344): Posts a tile store to memory. -/
  | tst (x y z : BitVec 6)
  /-- TSTX (R344): Posts a tile store of plain and transposed images. -/
  | tstx (x y z : BitVec 6)
  /-- DSET (R341): Writes one word of a copy descriptor. -/
  | dset (x y : BitVec 6) (k : BitVec 3)
  /-- TCPY_MM (R345): Posts a strided copy from memory to memory. -/
  | tcpyMm (x y z : BitVec 6)
  /-- TCPY_TM (R345): Posts a strided copy from tile store to memory. -/
  | tcpyTm (x y z : BitVec 6)
  /-- TCPY_MT (R345): Posts a strided copy from memory to tile store. -/
  | tcpyMt (x y z : BitVec 6)
  /-- TCPY_TT (R345): Posts a strided copy within the tile store. -/
  | tcpyTt (x y z : BitVec 6)
  /-- TCPYD (R347): Posts an entropy-decoding copy into an INT8 tile. -/
  | tcpyd (x y z : BitVec 6)
  /-- TMSKLD (R348): Posts a copy of a sparsity bitmap into the mask store. -/
  | tmskld (x y z : BitVec 6)
  /-- NOISE (R350): Reserves 1-4 noise words into a G register. -/
  | noise (x : BitVec 6) (n : BitVec 2)
  /-- COLL_OPEN (R407): Opens a collective context with membership, status and log. -/
  | collOpen (d a : BitVec 6)
  /-- COLL_RUN (R404): Starts or queues one round of a herder program. -/
  | collRun (d a : BitVec 6)
  /-- COLL_SHRINK (R409): Schedules removal of ranks at a round. -/
  | collShrink (d a : BitVec 6)
  /-- COLL_JOIN (R409): Schedules addition of ranks at a round. -/
  | collJoin (d a : BitVec 6)
  /-- COLL_CATCH (R426): Starts replay of a donor's log onto a spare. -/
  | collCatch (d a : BitVec 6)
  /-- COLL_CLOSE (R404): Frees an idle or halted collective context. -/
  | collClose (d a : BitVec 6)
  /-- TAKE_PENDING_TRAP (R237): Before a bundle, takes a pending imprecise report, event or pre-emption. -/
  | takePendingTrap (core slot : Nat)
  /-- CTX_CREATE (R83): CREATE command moves a context from FREE to BUILDING with cleared configuration. -/
  | ctxCreate (n : BitVec 4)
  /-- CTX_START (R83): START command admits work or resumes held tasks. -/
  | ctxStart (n : BitVec 4)
  /-- CTX_STOP (R83): STOP command begins quiescing the context. -/
  | ctxStop (n : BitVec 4)
  /-- CTX_DESTROY (R83): DESTROY command discards the context's work and releases leases. -/
  | ctxDestroy (n : BitVec 4)
  /-- CTXCMD_UNDEFINED (R82): A CTXCMD write of an undefined or disallowed value sets BADCMD. -/
  | ctxcmdUndefined (n : BitVec 4)
  /-- CTX_QUIESCE_COMPLETE (R83): Context leaves QUIESCING once tasks, copies and herder programs are held. -/
  | ctxQuiesceComplete (n : BitVec 4)
  /-- CTX_DRAIN_COMPLETE (R83): Context leaves DRAINING for FREE once discards are acknowledged. -/
  | ctxDrainComplete (n : BitVec 4)
  /-- CONFIG_REGISTER_WRITE (R84): Write to a context configuration register, refused with BADWR outside BUILDING or STOPPED. -/
  | configRegisterWrite (off : Nat) (v : Word)
  /-- FRCTL_WRITE (R84): Write to FRCTL updating TAIL and OVF in any active state. -/
  | frctlWrite (n : BitVec 4) (v : Word)
  /-- REGISTER_WRITE (R4): Write to a register that has no behaviour row of its own. -/
  | registerWrite (off : Nat) (v : Word)
  /-- HOST_BAR_ACCESS (R149): Host read or write through a BAR performed as a plain access. -/
  | hostBarAccess (wr : Bool) (bar off : Nat) (v : Word)
  /-- ACCESS_AT_HOME_CONTROLLER (R106): An access reaches its home controller, is translated and served, faulted, waited or refused by page state. -/
  | accessAtHomeController (id : Nat)
  /-- MEMORY_REPLY_ARRIVAL (R176): A load, atomic or launch reply reaches the core, writing its result and ending a freeze. -/
  | memoryReplyArrival (id : Nat) (data : List Byte) (cause : BitVec 9) (pstate : BitVec 3)
  /-- PTINV (R103): PTINV write queues invalidation of cached translations, or sets LOST when full. -/
  | ptinv (v : Word)
  /-- PTINV_COMPLETE (R103): A queued invalidation completes and BUSY clears when none remain. -/
  | ptinvComplete
  /-- PGABORT (R115): Ends held and side-logged accesses of a context in an IA range with 0x08A. -/
  | pgabort (v : Word)
  /-- FGEN_FLUSH (R114): After pending PTINVs, increments GEN and retries held accesses of a context. -/
  | fgenFlush (n : BitVec 4)
  /-- MIGGO (R394): Starts a retriever page migration, marking the leaf MIGRATING. -/
  | miggo (r : BitVec 4)
  /-- MIGRATION_COMPLETE (R105): Migration ends, rewriting the leaf and releasing waiting accesses. -/
  | migrationComplete (r : BitVec 4)
  /-- LAUNCH_RECORD_ARRIVAL (R152): Launch scheduler checks and admits or refuses a launch record. -/
  | launchRecordArrival
  /-- KERNEL_PLACEMENT (R160): Launch scheduler places a placeable posted kernel on all its cores at once. -/
  | kernelPlacement (k : Nat)
  /-- TASK_END_COMPLETE (R169): An ENDING task's last copy and tile task complete and its slot frees. -/
  | taskEndComplete (core slot : Nat)
  /-- MONOPOLY_WATCHDOG_EXPIRY (R174): After 2^24 clk holding issue with others ready, raises 0x120. -/
  | monopolyWatchdogExpiry (core : Nat)
  /-- FREEZE_CONVERSION (R179): Freeze watchdog expiry takes the frozen task off its core. -/
  | freezeConversion (core : Nat)
  /-- TILE_TASK_START (R183): An engine takes the oldest ready dependency-table entry. -/
  | tileTaskStart (core e : Nat)
  /-- TILE_TASK_COMPLETE (R183): A tile task completes, releasing its scoreboard and freeing its entry. -/
  | tileTaskComplete (core e : Nat)
  /-- COPY_BURST_REPLY (R343): A copy burst completes or meets an access error. -/
  | copyBurstReply (core e : Nat)
  /-- MISSED_PROMISE (R260): CYCLE reaches the promise of an awaited incomplete copy, raising 0x127. -/
  | missedPromise (core slot : Nat)
  /-- WAITE_REREAD (R261): A sleeping WAITE re-reads its word periodically or after a local store. -/
  | waiteReread (core slot : Nat)
  /-- BARRIER_ARRIVAL (R193): An arrival reaches the home barrier entry, counting or releasing the phase. -/
  | barrierArrival
  /-- BARRIER_BREAK (R196): A missing member exceeds BOUND or errs and the waiting barrier breaks. -/
  | barrierBreak (home n : Nat) (reason : BitVec 2)
  /-- QUEUE_ENABLE (R203): ENABLE command makes a disabled queue IDLE. -/
  | queueEnable (c : BitVec 4) (q : BitVec 6)
  /-- QUEUE_DISABLE (R203): DISABLE command disables a queue. -/
  | queueDisable (c : BitVec 4) (q : BitVec 6)
  /-- QUEUE_RETRY (R203): RETRY command restarts a halted graph from the beginning. -/
  | queueRetry (c : BitVec 4) (q : BitVec 6)
  /-- QUEUE_SKIP (R203): SKIP command advances HEAD past a halted graph. -/
  | queueSkip (c : BitVec 4) (q : BitVec 6)
  /-- QCMD_UNDEFINED (R200): An undefined or disallowed queue command sets BADCMD. -/
  | qcmdUndefined (c : BitVec 4) (q : BitVec 6)
  /-- QUEUE_CONFIG_WRITE (R200): Write to QBASE or QCFG, refused with BADCMD unless DISABLED. -/
  | queueConfigWrite (c : BitVec 4) (q : BitVec 6) (cfg : Bool) (v : Word)
  /-- DOORBELL (R201): Doorbell write sets TAIL or sets BADDB. -/
  | doorbell (c : BitVec 4) (q : BitVec 6) (v : Word)
  /-- GRAPH_START (R205): Scheduler reads and checks a pending graph into the node store. -/
  | graphStart (c : BitVec 4) (q : BitVec 6)
  /-- KERNEL_NODE (R208): Kernel node reads and checks its launch record. -/
  | kernelNode (c : BitVec 4) (q : BitVec 6) (i : Nat)
  /-- KERNEL_NODE_ADMIT (R208): A waiting kernel node's record is admitted to the level-0 pool. -/
  | kernelNodeAdmit (c : BitVec 4) (q : BitVec 6) (i : Nat)
  /-- COPY_NODE (R209): Copy node moves bytes through the scheduler's copy unit. -/
  | copyNode (c : BitVec 4) (q : BitVec 6) (i : Nat)
  /-- COPY_NODE_COMPLETE (R207): A copy or signal node completes once its writes are performed and acknowledged. -/
  | copyNodeComplete (c : BitVec 4) (q : BitVec 6) (i : Nat)
  /-- SIGNAL_NODE (R209): Signal node stores or adds a value with release. -/
  | signalNode (c : BitVec 4) (q : BitVec 6) (i : Nat)
  /-- WAIT_NODE_READ (R210): Wait node acquire-reads its predicate word and completes when TEST holds. -/
  | waitNodeRead (c : BitVec 4) (q : BitVec 6) (i : Nat)
  /-- WAIT_NODE_TIMEOUT (R210): Wait node timeout fails the node with 0x118. -/
  | waitNodeTimeout (c : BitVec 4) (q : BitVec 6) (i : Nat)
  /-- CONDITIONAL_NODE (R211): Conditional node reads its word and runs or skips its range. -/
  | conditionalNode (c : BitVec 4) (q : BitVec 6) (i : Nat)
  /-- LOOP_NODE_EVALUATE (R212): Loop node tests its word and starts or ends a pass of its range. -/
  | loopNodeEvaluate (c : BitVec 4) (q : BitVec 6) (i : Nat)
  /-- END_NODE (R206): End node completes, adds to DONE and advances HEAD. -/
  | endNode (c : BitVec 4) (q : BitVec 6)
  /-- GRAPH_HALT_COMPLETE (R203): A halting queue goes to HALTED once its last started node ends. -/
  | graphHaltComplete (c : BitVec 4) (q : BitVec 6)
  /-- PREEMPT (R234): PREEMPT write requests pre-emption of a task off its core. -/
  | preempt (v : Word)
  /-- PREEMPTION_LANDING (R230): A requested pre-emption is taken at a landing point and state saved. -/
  | preemptionLanding (core slot : Nat)
  /-- PREEMPTION_FORCED (R232): A pre-emption without landing point after 2^20 clk is forced. -/
  | preemptionForced (core slot : Nat)
  /-- SAVE_COMPLETE (R230): Save of a pre-empted task completes after its entries retire. -/
  | saveComplete (core slot : Nat)
  /-- TASK_RESUME (R236): An OFFCORE task is restored on its own core when resources free. -/
  | taskResume (core slot : Nat)
  /-- LNKCTL_TRAIN (R358): TRAIN command starts link training from DOWN or FAILED. -/
  | lnkctlTrain (l : BitVec 8)
  /-- LNKCTL_DOWN (R358): DOWN command takes the link to DOWN and discards its replay buffer. -/
  | lnkctlDown (l : BitVec 8)
  /-- LINK_TRAINING_COMPLETE (R358): Both ends agree a width and the link becomes ACTIVE. -/
  | linkTrainingComplete (l : BitVec 8) (healthy : BitVec 16)
  /-- LINK_TRAINING_TIMEOUT (R358): No healthy quarter after 10 ms sends the link to FAILED. -/
  | linkTrainingTimeout (l : BitVec 8)
  /-- LANE_LOST (R360): A lane in use is lost; the link stops sending. -/
  | laneLost (l : BitVec 8) (lane : BitVec 4)
  /-- LINK_WIDTH_AGREED (R358): Ends agree a narrower width after a lane loss and replay. -/
  | linkWidthAgreed (l : BitVec 8)
  /-- LANE_THRESHOLD_CROSSED (R361): A completed window over BERTHR starts lane retraining. -/
  | laneThresholdCrossed (l : BitVec 8) (lane : BitVec 4) (syms : BitVec 32)
  /-- LANE_RETRAIN_COMPLETE (R358): A retraining lane reaches its threshold and is taken back. -/
  | laneRetrainComplete (l : BitVec 8)
  /-- LANE_RETRAIN_TIMEOUT (R358): A lane not retrained within 100 µs is marked failed. -/
  | laneRetrainTimeout (l : BitVec 8)
  /-- LINK_WIDEN (R358): After 10 ms of healthy lanes the link widens. -/
  | linkWiden (l : BitVec 8)
  /-- LANE_BACKGROUND_CHECK (R360): Periodic 10 ms check of a failed lane for health. -/
  | laneBackgroundCheck (l : BitVec 8) (lane : BitVec 4) (found : Option (BitVec 32))
  /-- CODEWORD_RECEIVED (R354): Receiver accepts a correctable codeword or discards and requests replay. -/
  | codewordReceived (l : BitVec 8) (errs : List Nat) (seq ack : Nat) (cw : CwLoad)
  /-- REPLAY_REQUEST_RECEIVED (R355): Sender replays unacknowledged flits on request. -/
  | replayRequestReceived (l : BitVec 8) (seq : BitVec 12)
  /-- REPLAY_ACK_TIMEOUT (R355): No acknowledgement for 2 µs triggers replay. -/
  | replayAckTimeout (l : BitVec 8)
  /-- PACKET_ROUTE (R365): Router picks the output link for a packet or drops it if no path. -/
  | packetRoute
  /-- FAR_DEPTH_TIMEOUT (R366): No depth report on a link for 1 µs sets its far depths to 255. -/
  | farDepthTimeout (l : BitVec 8)
  /-- ROTOR_ENABLE (R373): ROTCTL.EN write checks the calendar and enables the rotor port. -/
  | rotorEnable
  /-- ROTOR_DWELL_START (R374): At a dwell start rotor links train, exchange indices and update lock. -/
  | rotorDwellStart (idx : List Nat) (credits : List (Nat × Nat × Nat))
  /-- ROTOR_GUARD_START (R359): At a guard rotor flits are discarded and queued rotor packets move to the torus. -/
  | rotorGuardStart
  /-- ROTOR_LOCK_TIMEOUT (R374): No guard for 3 µs clears LOCK. -/
  | rotorLockTimeout
  /-- PACKET_ARRIVAL_AT_TARGET (R379): Destination accepts, performs or drops a packet by SEQ and PRED. -/
  | packetArrivalAtTarget (p : Packet)
  /-- E2E_ACK_ARRIVAL (R382): End-to-end acknowledgement releases a kept packet. -/
  | e2eAckArrival (tgt : BitVec 12) (seq : BitVec 32) (data : List Byte) (cause : BitVec 9) (pstate : BitVec 3)
  /-- E2E_RESEND_TIMEOUT (R382): Unacknowledged packet is re-sent after RESENDT, or raises 0x148 after eight. -/
  | e2eResendTimeout (tgt : BitVec 12) (seq : BitVec 32)
  /-- RESET_NOTICE_ARRIVAL (R146): A reset notice raises 0x148 for unacknowledged accesses and reopens the pair. -/
  | resetNoticeArrival (tgt : BitVec 12)
  /-- RT_THREAD_START (R390): RTCTL.EN := 1 starts a retriever thread at RTENTRY. -/
  | rtThreadStart (r : BitVec 4) (t : BitVec 3)
  /-- RT_THREAD_STOP (R390): RTCTL.EN := 0 stops a retriever thread before its next bundle. -/
  | rtThreadStop (r : BitVec 4) (t : BitVec 3)
  /-- LLCMD_GRANT (R398): Lender GRANT checks the region and sends a grant. -/
  | llcmdGrant (m : BitVec 8)
  /-- LLCMD_RECLAIM (R398): Lender RECLAIM sends a notice. -/
  | llcmdReclaim (m : BitVec 8)
  /-- BLCMD_EXPECT (R398): Borrower EXPECT prepares an entry for a grant. -/
  | blcmdExpect (n : BitVec 10)
  /-- BLCMD_RELEASE (R398): Borrower RELEASE starts an eviction without event. -/
  | blcmdRelease (n : BitVec 10)
  /-- BLCMD_CLEAR (R398): Borrower CLEAR frees a DEMOTED entry. -/
  | blcmdClear (n : BitVec 10)
  /-- LEASE_GRANT_ARRIVAL (R398): Borrower accepts or refuses an arriving grant. -/
  | leaseGrantArrival (n : BitVec 10) (lender : BitVec 12) (lia : BitVec 22) (term : BitVec 32) (pages : BitVec 7)
  /-- LEASE_ACCEPT_ARRIVAL (R398): Lender receives acceptance and becomes ACTIVE. -/
  | leaseAcceptArrival (m : BitVec 8)
  /-- LEASE_REFUSAL_ARRIVAL (R398): Lender receives refusal and returns the leaves to RESIDENT. -/
  | leaseRefusalArrival (m : BitVec 8)
  /-- LEASE_GRANT_TIMEOUT (R398): No answer to a grant within 1 ms returns the lender entry to FREE. -/
  | leaseGrantTimeout (m : BitVec 8)
  /-- LEASE_TERM_EXPIRY (R398): Lender CYCLE reaches EXPIRY and a lapsed notice is sent. -/
  | leaseTermExpiry (m : BitVec 8)
  /-- LEASE_RENEWAL_SEND (R396): Borrower sends a renewal after TERM/4 without acknowledged access. -/
  | leaseRenewalSend (n : BitVec 10)
  /-- LEASE_RENEWAL_ARRIVAL (R396): Lender extends EXPIRY on a renewal. -/
  | leaseRenewalArrival (m : BitVec 8)
  /-- LEASE_LAPSE (R396): Borrower evicts with LAPSED after TERM without acknowledgement. -/
  | leaseLapse (n : BitVec 10)
  /-- RECLAIM_NOTICE_ARRIVAL (R399): Borrower receives notice and begins eviction. -/
  | reclaimNoticeArrival (n : BitVec 10) (lapsed : Bool)
  /-- EVICTION_COMPLETE (R399): Borrower finishes eviction and sends the report. -/
  | evictionComplete (n : BitVec 10)
  /-- EVICTION_REPORT_ARRIVAL (R398): Lender receives the report and returns leaves to RESIDENT. -/
  | evictionReportArrival (m : BitVec 8) (rel : Bool)
  /-- RECLAIM_FORCE_TIMEOUT (R398): No report 400 µs after notice forces the lender entry FREE. -/
  | reclaimForceTimeout (m : BitVec 8)
  /-- COLL_STEP_END (R411): END step completes the round, logs and writes status. -/
  | collStepEnd (c : BitVec 6)
  /-- COLL_STEP_SEND (R411): SEND step sends own bytes to the peer. -/
  | collStepSend (c : BitVec 6)
  /-- COLL_STEP_RECV (R411): RECV step takes the peer's next data message and writes it. -/
  | collStepRecv (c : BitVec 6)
  /-- COLL_STEP_PSEND (R411): PSEND step sends a partial of own data. -/
  | collStepPsend (c : BitVec 6)
  /-- COLL_STEP_RRS (R411): RRS step adds a received partial to own data and forwards it. -/
  | collStepRrs (c : BitVec 6)
  /-- COLL_STEP_RED (R416): RED step completes its bucket and writes the reduced result. -/
  | collStepRed (c : BitVec 6)
  /-- COLL_STEP_COPY (R411): COPY step copies bytes between addresses. -/
  | collStepCopy (c : BitVec 6)
  /-- COLL_STEP_WAIT (R411): WAIT step completes once a word reaches a value. -/
  | collStepWait (c : BitVec 6)
  /-- COLL_STEP_LOOP (R411): LOOP step clears a counter and may skip the body. -/
  | collStepLoop (c : BitVec 6)
  /-- COLL_STEP_ENDL (R411): ENDL step counts and branches back to its LOOP. -/
  | collStepEndl (c : BitVec 6)
  /-- COLL_STEP_APPEND (R423): APPEND step sends rows to destination queues. -/
  | collStepAppend (c : BitVec 6)
  /-- COLL_STEP_A2A (R424): A2A step exchanges counts, rows and releases among members. -/
  | collStepA2a (c : BitVec 6)
  /-- COLL_STEP_SIGNAL (R411): SIGNAL step adds to a word with release at POD scope. -/
  | collStepSignal (c : BitVec 6)
  /-- COLL_STEP_SAR (R419): SAR step all-reduces through the link routers' ALUs. -/
  | collStepSar (c : BitVec 6)
  /-- COLL_MESSAGE_ARRIVAL (R416): Herder receives a message and adds or drops a partial. -/
  | collMessageArrival (m : CollMsg)
  /-- COLL_STEP_TIMEOUT (R421): A step without progress for TMO halts the collective context. -/
  | collStepTimeout (c : BitVec 6)
  /-- COLL_CATCH_COMPLETE (R426): Spare finishes replaying the donor log and goes IDLE or HALTED. -/
  | collCatchComplete (c : BitVec 6) (entries : List CatchEntry) (log : CatchLog)
  /-- APPEND_ROW_ARRIVAL (R423): Destination retriever appends a row to its queue or refuses it. -/
  | appendRowArrival (q : BitVec 52) (src : BitVec 12) (row : BitVec 32) (data : List Byte)
  /-- SAR_ROUTER_COMBINE (R419): Router combines SAR partials within 50 ns and forwards them. -/
  | sarRouterCombine (p : Packet)
  /-- SAR_PARTIAL_RESEND (R419): Member without a result after RESENDT re-sends its partial. -/
  | sarPartialResend (c : BitVec 6)
  /-- POWER_REGRANT (R447): Every 4 µs the arbiter re-grants the package budget and throttles islands. -/
  | powerRegrant (grants duties : List Nat)
  /-- I3C_POWER_LIMIT_WRITE (R456): I3C write of the package power limit applying at the next re-grant. -/
  | i3cPowerLimitWrite (w : Nat)
  /-- COOLANT_LIMIT (R457): Coolant limit forces g = 1 on every island and sets THERM. -/
  | coolantLimit
  /-- ATTESTATION_REQUEST (R454): Identity key signs a report of measurements and a nonce. -/
  | attestationRequest (nonce : List Byte)
  /-- MODULE_RESET (R459): Power-on reset runs boot verification, training and bring-up. -/
  | moduleReset (verified : Bool)
  /-- HOST_LINK_DOWN (R455): Host link loss makes host-tier accesses raise 0x08E. -/
  | hostLinkDown
  /-- PATROL_SCRUB (R450): Background scrub reads and corrects memory within its ceiling. -/
  | patrolScrub (sp : BitVec 2) (line : Nat) (err : BitVec 2)
  /-- LPDDR6_REFRESH (R450): LPDDR6 refresh management as the memory standard requires. -/
  | lpddr6Refresh
  /-- HOST_LINK_UP (R455): The PCI Express host link trains and comes back up, so host-tier accesses stop raising 0x08E. -/
  | hostLinkUp
  /-- ISLAND_GRANT_EXCEEDED (R447): An island reaches its power grant during a period and is throttled for the rest of that period, beginning a power-throttle freeze. -/
  | islandGrantExceeded (island g : Nat)
deriving DecidableEq, Repr

end Sys2Proof
end

