-- ==== Sys2Proof/Machine/State.lean ====
section
/-! DEFINITION. The state of one VL7 module as plain data, and its reset. -/

namespace Sys2Proof.Machine

/-! ### Tasks -/

/-- The destination of a result in flight (R48, R235): a register of a file by number; a V register by its physical
number; a CSR; a tile descriptor, scale register, ZE register or copy-descriptor word; a pattern's loading copy or the
exchange of one or every pattern's copies; the target of a JMPT or CALLT whose table entry has not arrived; nothing, for an access whose result goes nowhere but whose late cause is
still due. -/
inductive RDest where
  | none
  | g (n : Nat)
  | gPair (n : Nat)
  | q (n : Nat)
  | qAll
  | v (n : Nat)
  | k (n : Nat)
  | csr (n : Nat)
  | t (n : Nat)
  | e (n : Nat)
  | ze (n : Nat)
  | d (n : Nat)
  | pLoad (n : Nat)
  | pSwap (n : Nat)
  | pSwapAll
  | jump (call : Bool)
deriving DecidableEq, Repr

/-- What a result in flight holds: its 2,048-bit image (a pair in bits [127:0]), the identifier of the reply it
waits for, a late cause with its TRAPVAL (R221), or nothing, for a result abandoned by R179. -/
inductive RVal where
  | ready (img : VReg)
  | await (id : Nat)
  | late (cause : Nat) (tval : Word)
  | gone
deriving DecidableEq, Repr

/-- A result in flight or in the shadow buffer (R227, R228): left counts the clocks until a bundle reads it (r in the
shadow buffer); slot and pc name the reporting instruction for a late cause; again: it replays, and leaves nothing in a latch
(R57). -/
structure Pend where
  dest : RDest
  val : RVal
  left : Nat
  slot : Nat
  pc : Word
  again : Bool
deriving DecidableEq, Repr

/-- A pending branch: target, loop-stack entries popped with it, and the landing label its target must carry
(R64, R68, R257). -/
structure Flow where
  tgt : Word
  pops : Nat
  label : Option Nat
deriving DecidableEq, Repr

/-- Whether the next bundle is a delay bundle, and of which branch (R64). -/
inductive Delay where
  | no
  | untaken
  | taken (f : Flow)
deriving DecidableEq, Repr

/-- A hardware loop on the loop stack (R233, R255). -/
structure Loop where
  first : Word
  last : Word
  rem : Nat
deriving DecidableEq, Repr

/-- An entry of the hoisted-load table (R135, R272); await: the reply its value waits for, until which it is not valid; locs: the
module and IA of each byte. -/
structure Hoist where
  addr : Word
  size : Nat
  zx : Bool
  cls : Nat
  kindS : Bool
  val : Word
  await : Option Nat
  locs : List (Nat × Nat)
deriving DecidableEq, Repr

/-- What a sleeping task waits for (R169): a copy by tag with its promise (R260); the tile tasks or copies of TWAIT, posted before a
posting number (R349);
a barrier phase (R195); the reply or re-read of WAITE (R261); a parked launch record (R157); met: nothing any more, and the task
becomes READY. -/
inductive Wait where
  | none
  | met
  | copy (e : Nat) (tag : Nat) (promise : Word)
  | tiles (zs : Bool) (all : Bool) (reg : Nat) (promise : Word) (before : Nat)
  | barrier (home : Nat) (n : Nat) (gen : Nat)
  | reread (id : Nat) (test : Nat) (scope : Nat) (addr : Word) (cmp : Word) (fail : Bool)
  | launch (id : Nat) (q : Nat)
deriving DecidableEq, Repr

/-- The state of a task slot (R169). -/
inductive TStat where
  | free
  | ready
  | issuing
  | sleeping
  | ending
  | offcore
  | held
deriving DecidableEq, Repr

/-- A pending imprecise report or event trap (R220): its cause and its TRAPVAL. -/
structure Report where
  cause : Nat
  tval : Word
deriving DecidableEq, Repr

/-- A request to pre-empt a task (R230): in place for STOP, off the core otherwise; the CYCLE of the request. -/
structure PreReq where
  inPlace : Bool
  forced : Bool
  at_ : Nat
deriving DecidableEq, Repr

/-- The flow action of the bundle being issued, applied when the bundle is complete (R64, R169, R220). -/
inductive Act where
  | none
  | branch (f : Option Flow)
  | branchWait
  | next (pc : Word)
  | yield
  | sleep (w : Wait)
  | ended
  | trapi (cause : Nat)
  | eret
deriving DecidableEq, Repr

/-- A packet in a retriever thread's inbox (R392): a kick with the kick word before and after and the writes merged, or
a REMOP request with its block, its target IA and its issuer (a held access of this module, or a packet number). -/
structure RPkt where
  id : Nat
  remop : Bool
  src : Nat
  unit : Nat
  unitk : Nat
  old : Word
  new : Word
  count : Nat
  block : List Byte
  target : Nat
  held : Option Nat
  seq : Nat
deriving DecidableEq, Repr

/-- The general registers of a task: 64 G, 16 Q, 8 K, and the physical V registers of its allocation (R16, R55,
R280). -/
structure Regs where
  g : Tab Word
  q : BitVec 16
  k : Tab Word
  v : Tab VReg
deriving DecidableEq, Repr

/-- The trap record and the trap CSRs, 0x030 to 0x038 (R218). -/
structure TrapCsr where
  cause : Word
  pc : Word
  tgt : Word
  slots : Word
  val : Word
  vec : Word
  scr0 : Word
  scr1 : Word
  ipc : Word
deriving DecidableEq, Repr

/-- The other per-task CSRs: TASKST, FRZWD, the noise CSRs, the kennel CSRs, VROT and LEASEEV (R168, R178, R32,
R186, R281, R402). -/
structure TaskCsr where
  taskst : Word
  frzwd : Word
  noisectl : Word
  noisebase : Word
  noiselen : Word
  noisepos : Word
  kenbase : Word
  kencnt : Word
  vrot : Word
  leaseev : Word
deriving DecidableEq, Repr

/-- The latches (R56): near holds L0-L3, far holds L4-L7, next holds what L4-L7 show after the next bundle; an entry
without a value is lost (R58). -/
structure Latches where
  near : List (Option VReg)
  far : List (Option VReg)
  next : List (Option VReg)
deriving DecidableEq, Repr

/-- An algebra slot (R336, R337): empty, or its 128 bytes. -/
structure AlgSlot where
  bytes : List Byte
deriving DecidableEq, Repr

/-- A shuffle pattern (R294): the active and the loading copy, each an index list and whether it is valid. -/
structure Pattern where
  act : List Byte
  actOk : Bool
  load : List Byte
  loadOk : Bool
deriving DecidableEq, Repr

/-- The tile-side registers of a task: descriptors T (words 0 and 1), scales E, census C, accumulator elements Z by
32 * 32 * n + 32 * row + column, ZE, ZC, copy descriptors D by 8 * n + word, algebra slots A, patterns P
(R18 to R24, R294, R318, R336, R341). -/
structure TileRegs where
  t0 : Tab Word
  t1 : Tab Word
  e : Tab Word
  c : Tab Word
  z : Tab (BitVec 32)
  ze : Tab Word
  zc : Tab Word
  d : Tab Word
  a : Tab AlgSlot
  p : Tab Pattern
deriving DecidableEq, Repr

/-- What the noise words of a replay log are read for (R34, R42): a NOISE result; the stochastic shift by sh of elements of width w,
which stand in the old elements from at_ on; an optimiser lane form (0 m, 1 v, 2 w) with its parameter word, its exponents, its
old elements and its operands; the task of the dependency table with posting number seq. -/
inductive NoiseUse where
  | reg
  | shift (w sh : Nat) (xs old : List Int) (at_ : Nat)
  | opt (form : Nat) (par exps : Word) (d a v : List Int)
  | post (seq : Nat)
deriving DecidableEq, Repr

/-- What places a task: its context, kernel, level, rank and geometry word, its tile-store bank groups and its
physical V registers, in units of 64 (R151, R153, R160, R166, R168, R280, R317). -/
structure Place where
  ctx : Nat
  kernel : Nat
  level : Nat
  rank : Nat
  geom : Word
  groups : Nat
  vunits : Nat
  vregs : Nat
  shared : Bool
deriving DecidableEq, Repr

/-- A task, or a retriever thread (R153, R169, R387). waitPc is the bundle of the wait it sleeps in, waitFlow its branch with the loop
stack before it where that bundle is the delay bundle of a taken branch (R66, R157), woke says it was
woken to take a trap (R220), skip holds the slots its next bundle does not execute (R225), kept the flow action of a
slot 0 that committed in a bundle that trapped (log 8), lpad the label a target must still carry where a trap came between, with
that target (R68, log 13), hshadow the shadow entries of a handler's results (R229), entering whether TRAPI's entry still waits
for its drain (R263), leftAt its number among the tasks that left or stopped (R236), jumpErr the error of a jump-table entry that
has arrived, with the bundle, its slots that committed, the cause and TRAPVAL (R252), fix what its registers take once they are
restored (R157), atHead whether the program counter came to a loop's first bundle
from its loop instruction or its back edge (R231), saving whether its save is under way, saveAt the bytes of the image written
and unsaved the shadow entries saved without their value (R230, R235), offAt the CYCLE since which it is off its core or frozen by a held
access (R196, R236), strays the copies, by entry and posting number, that an access error ended with writes still to be performed
(R142, R164). -/
structure Task where
  place : Place
  stat : TStat
  wait : Wait
  waitPc : Word
  waitFlow : Option (Flow × List Loop)
  woke : Bool
  pc : Word
  delay : Delay
  label : Option Nat
  loops : List Loop
  atHead : Bool
  hoist : Tab Hoist
  inflight : List Pend
  shadow : List Pend
  hshadow : List Pend
  replay : Bool
  entering : Bool
  lpad : Option (Word × Nat)
  leftAt : Nat
  jumpErr : Option (Word × Nat × Nat × Word)
  fix : List (RDest × VReg)
  skip : BitVec 4
  kept : Act
  keptPc : Word
  reports : List Report
  events : List Report
  pre : Option PreReq
  saving : Bool
  saveAt : Nat
  unsaved : List Nat
  passes : Nat
  agedAt : Option Nat
  offAt : Option Nat
  posts : Nat
  fetchHold : Option Nat
  fetchErr : Option (Word × Nat × Word)
  fetchGot : List (Word × Tab Byte)
  regs : Regs
  trap : TrapCsr
  csr : TaskCsr
  latch : Latches
  tile : TileRegs
  jtCommit : BitVec 4
  strays : List (Nat × Nat)
deriving DecidableEq, Repr

/-- A task taken off its core (R230, R236): its core and slot, and what stays outside the save area: its place, what it
waits for, its pending traps and the replies still to come; the regions its save wrote, as offset and length (R235); the
bytes its restore has read, and the read it waits for. -/
structure OffTask where
  core : Nat
  slot : Nat
  task : Task
  used : List (Nat × Nat)
  buf : List Byte
  hold : Option Nat
deriving DecidableEq, Repr

/-! ### Cores -/

/-- The status of a dependency-table entry (R180, R183, R343). -/
inductive DepStat where
  | waiting
  | running
  | failed (cause : Nat) (tval : Word)
deriving DecidableEq, Repr

/-- A dependency-table entry (R180, R183): the posting slot of the core, the kernel of the posting task, the order of posting,
the number of its posting among the accesses of the module (R137), the instruction, the
captured G operands, the captured copy descriptor, the reserved noise words, the promise and the tag; for a copy, the
bytes done, the bytes in all, the bytes read so far with their poison, and the parts of a read that is tried again (R91); for another task, the clks run and the clks it takes (R326). -/
structure Dep where
  slot : Nat
  ctx : Nat
  kernel : Nat
  seq : Nat
  after : Nat
  ins : Instr
  ops : List Word
  desc : List Word
  noise : List (BitVec 16)
  promise : Word
  tag : Nat
  stat : DepStat
  shift : Nat
  done : Nat
  total : Nat
  buf : List (Byte × Bool)
  parts : List (Nat × Nat × Nat × Nat)
  hold : Option Nat
deriving DecidableEq, Repr

/-- The unit that issued an access (R113 UNITK), the party of R123: a core's task, named by its core, slot and kernel; a
copy, by its core, entry and posting number; a retriever thread; a collective context; the run r of node i of the graph of host queue q, at q, i and r; the save
and restore of a task; the fault ring of a context (R89). -/
inductive UnitId where
  | core (c : Nat) (slot : Nat) (kernel : Nat)
  | copy (c : Nat) (e : Nat) (seq : Nat)
  | retr (r : Nat) (t : Nat)
  | coll (c : Nat)
  | sched (q : Nat) (i : Nat) (run : Nat)
  | save (c : Nat) (slot : Nat)
  | ring (ctx : Nat)
deriving DecidableEq, Repr

/-- A side-logged write (R110): its entry number, its number among the accesses of the module, context, unit, the virtual
address, module and IA of its first byte, the bytes, and whether it is the DONE add of a kernel (R164). quiet: it met no fault
but waits in the log for its order (R111, R128), a migration (R106) or, rel, for acknowledgements (R147); disc: not 0 for a
page of that many bytes that PGDISC discards once its migration has ended (R119); bad: the offsets of its poisoned bytes (R451). -/
structure SideEnt where
  idx : Nat
  seq : Nat
  ctx : Nat
  unit : UnitId
  va : Word
  module : Nat
  ia : Nat
  bytes : List Byte
  kind : Nat
  add : Bool
  quiet : Bool
  rel : Bool
  disc : Nat
  bad : List Nat
deriving DecidableEq, Repr

/-- The state of a barrier entry (R193). -/
inductive BarStat where
  | idle
  | armed
  | waiting
  | released
  | broken
deriving DecidableEq, Repr

/-- A barrier entry (R189, R190); the owner is a kernel; members lists the keys of the tasks that have arrived in the phase,
which began at CYCLE since (R196); busy: the CYCLE of its latest event (R193). -/
structure Barrier where
  stat : BarStat
  owner : Nat
  gen : Nat
  count : Nat
  arrived : Nat
  group : Nat
  bound : Nat
  reason : Nat
  members : List Nat
  since : Nat
  busy : Option Nat
deriving DecidableEq, Repr

/-- What an access of an engine unit that had to wait has found: its bytes, each with whether it is poisoned, or the cause
that ends it. -/
inductive Ans where
  | data (bs : List (Byte × Bool))
  | err (cause : Nat) (tval : Word)
deriving DecidableEq, Repr

/-- A raw write of the tile store that waits for the tile tasks its task posted before it (R182): the slot and kernel, the posting
number before which those stand, the address, the bytes. -/
structure RawSt where
  slot : Nat
  kernel : Nat
  seq : Nat
  addr : Nat
  bytes : List Byte
deriving DecidableEq, Repr

/-- A core's own state beside its tasks; yielded: the slot whose YIELD gave up issue last, until a bundle issues (R172); fences: the FENCEs that still order accesses, with their units and their numbers
among the accesses of the module (R132) (R58, R110, R170 to R180, R189, R316, R449). lastAt is the CYCLE at which its last
bundle issued, pauseTill the first CYCLE at which a handler's first bundle may issue (R172, R223). -/
structure CoreSt where
  tileMem : Tab Byte
  maskMem : Tab Byte
  poisonTile : List Nat
  poisonMask : List Nat
  deps : Tab Dep
  depSeq : Nat
  side : List SideEnt
  bars : Tab Barrier
  lastIssuer : Option Nat
  lastSlot : Tab Nat
  yielded : Option Nat
  rawSt : List RawSt
  lastAt : Nat
  pauseTill : Nat
  mono : Nat
  frozen : Nat
  fences : List (UnitId × Nat)
deriving DecidableEq, Repr

/-! ### Held accesses -/

/-- A request to memory whose result a unit awaits: reads of n bytes, sign- or zero-extended or as raw bytes; a
gather; the 32-byte entries of a VDRAIN; atomics; a remote operation; the reads that end in an action of their own; the reply to a row of n bytes (R423); the
fetch of a bundle; noise words of a replay log (R42); a store that a full side log holds (R110); the discard of a range (R119); the DONE add of a kernel that a full
side log delays (R164). -/
inductive MemReq where
  | load (va : Word) (n : Nat) (zx : Bool)
  | ldh (e : Nat) (va : Word) (n : Nat) (zx : Bool) (cls : Nat)
  | raw (va : Word) (n : Nat)
  | gather (w : Nat) (zx : Bool) (lanes : List Word)
  | drain (lanes : List Word)
  | noise (lanes : List Word) (use : NoiseUse)
  | atomic (op : Nat) (va : Word) (n : Nat) (ops : List Word)
  | remop (va : Word) (gv : Word)
  | waite (va : Word)
  | launch (va : Word) (park : Bool)
  | reply (n : Nat)
  | fetch (va : Word)
  | store (va : Word) (bs : List Byte) (dev rel : Bool)
  | disc (va : Word) (n : Nat)
  | doneAdd (va : Word)
deriving DecidableEq, Repr

/-- Why an access is held (R106, R109, R111, R147); poll: it is the read of a WAITE whose test did not hold, and it stands before
what its task issued after it until a read succeeds (R128, R131, R261). -/
inductive HoldWhy where
  | poll
  | flush
  | migration
  | side
  | reply
deriving DecidableEq, Repr

/-- An access that awaits a flush, a migration, its order or a reply (R106, R109, R111, R128, R176). id is its number among the
accesses of the module; got: the bytes other modules have replied, by offset in the access, bad: the offset, cause and page
state of what they refused; lat2: the result has latency 2, so that its latch waits with it (R56); parts: the offset, module,
IA and length of each part, as translated at issue (R91); acq, rel: its order (R128); taint: the offsets of the replied bytes that
are poisoned (R451). -/
structure Held where
  id : Nat
  unit : UnitId
  ctx : Nat
  req : MemReq
  why : HoldWhy
  ia : Nat
  cls : Nat
  got : Tab Byte
  lat2 : Bool
  slot : Nat
  pc : Word
  parts : List (Nat × Nat × Nat × Nat)
  bad : List (Nat × Nat × Nat)
  acq : Bool
  rel : Bool
  taint : List Nat
deriving DecidableEq, Repr

/-- An access that a unit issues: plain, nothing of it done. -/
def Held.new (id : Nat) (unit : UnitId) (ctx : Nat) (req : MemReq) (slot : Nat) (pc : Word) : Held :=
  ⟨id, unit, ctx, req, .reply, 0, 0, [], false, slot, pc, [], [], false, false, []⟩

/-! ### Contexts and the launch scheduler -/

/-- The state of a context (R82). -/
inductive CtxStat where
  | free
  | building
  | active
  | quiescing
  | stopped
  | draining
  | error
deriving DecidableEq, Repr

/-- A context (R81 to R90, R102, R234): state, command flags, the error it is bound for, its configuration registers,
its fault generation, its save base, the flushes it asked for, each with the invalidations it waits for (R114), the CYCLE of its
last STOP (R196), and the fault records whose ring page is on its way, with their generation, and whether the first has been
forwarded (R89, R106). -/
structure Ctx where
  stat : CtxStat
  pending : Bool
  badcmd : Bool
  badwr : Bool
  cause : Nat
  toError : Bool
  quota : Word
  frbase : Word
  frctl : Word
  satlim : Word
  range : Tab Word
  leasebind : Tab Word
  gen : Nat
  savebase : Word
  flushAfter : List Nat
  stopAt : Nat
  recs : List (Nat × List Byte)
  recSent : Bool
deriving DecidableEq, Repr

/-- A launch record as the scheduler keeps it (R151): its 20 words. -/
abbrev LaunchRec := List Word

/-- The state of an admitted kernel (R163). -/
inductive KStat where
  | posted
  | placed
  | running
  | retired
deriving DecidableEq, Repr

/-- An admitted kernel (R158, R163): its context, record, state, tasks not ended, times passed over (R161), the graph node it came
from, and the CYCLE from which it can be placed (R165). -/
structure Kernel where
  ctx : Nat
  rec_ : LaunchRec
  stat : KStat
  left : Nat
  passed : Nat
  node : Option (Nat × Nat)
  at_ : Nat
deriving DecidableEq, Repr

/-- A launch on its way to the scheduler or parked there (R155, R157): the launching task's core, slot and kernel, its
context and level, the record and its address, whether it parks, the identifier its result awaits, the slot and the bundle it stood
in; the CYCLE at which it is due; whether it is posted and only its reply is still to come (R165). -/
structure LaunchReq where
  core : Nat
  slot : Nat
  kernel : Nat
  ctx : Nat
  level : Nat
  rec_ : LaunchRec
  addr : Word
  park : Bool
  id : Nat
  pos : Nat
  pc : Word
  at_ : Nat
  posted : Bool
deriving DecidableEq, Repr

/-- A barrier instruction on its way to its home core (R193, R195): an arrival; seq: its number among the accesses of the module;
reached: the CYCLE at which it reached the entry. -/
structure Arrival where
  home : Nat
  n : Nat
  core : Nat
  slot : Nat
  kernel : Nat
  group : Nat
  id : Option Nat
  wait : Bool
  seq : Nat
  reached : Option Nat
deriving DecidableEq, Repr

/-- The bundle being issued (R46, R222): the core and slot of the task, the position of the slot executing, the bundle
address, whether a handler was running, the predicate, the trap raised so far, the slots committed, the latch
deposits and the flow action; stall: the bundle cannot issue in this clk (R176); seq0: the posting number its first task takes (R181); infl:
how many results of the task were in flight before it (R62). -/
structure Issue where
  core : Nat
  slot : Nat
  pos : Nat
  pc : Word
  inTrap : Bool
  raised : Bool
  slotRaised : Bool
  commit : BitVec 4
  near : List VReg
  far : List VReg
  act : Act
  stall : Bool
  seq0 : Nat
  infl : Nat
deriving DecidableEq, Repr

/-- A part of the VL7 (R11, R12): its variant, its stepping and its module number. -/
structure Part where
  variant : Nat
  stepping : Nat
  module : Nat
deriving DecidableEq, Repr

/-- The stores of bytes (R92, R95, R101) and the poisoned 64-byte lines, as (space, line address): space 0 ring,
1 LPDDR6, 2 host (R451). -/
structure Mem where
  ring : Tab Byte
  dram : Tab Byte
  host : Tab Byte
  poison : List (Nat × Nat)
deriving DecidableEq, Repr

/-- A translation in the cache of a home controller (R94, R98): the controller, the address the page starts at, the leaf and the
address of its first copy. -/
structure CachedLeaf where
  home : Nat
  base : Nat
  leaf : Word
  at_ : Nat
deriving DecidableEq, Repr

/-- The page control block, and the translation caches of the home controllers (R94, R102, R103). -/
structure PageCtl where
  ptbase : Word
  ptinv : List Word
  lost : Bool
  ringattr : Tab Word
  cache : List CachedLeaf
deriving DecidableEq, Repr

/-! ### Other modules and the host -/

/-- A packet sent and not yet acknowledged (R145, R382): its number among the accesses of the module and its page kind (R128),
how often it was re-sent, the access whose reply it brings and the offset of its bytes in that access, and, for its report, the unit, the context, the virtual address, and whether it
is the DONE add of a kernel (R164); sentAt: the CYCLE at which its last transmission ended, none while it has not left (R382); own: the IA of this module whose BORROWED leaf
forwards it (R101). -/
structure Unacked where
  pkt : Packet
  id : Nat
  kind : Nat
  resends : Nat
  held : Option Nat
  off : Nat
  unit : UnitId
  ctx : Nat
  va : Word
  done : Bool
  sentAt : Option Nat
  own : Option Nat
deriving DecidableEq, Repr

/-- This module as the source of a pair (R145, R146): the next number, whether the pair must be opened, the
unacknowledged packets, those waiting for the window, and the ones a release waits behind (R147). -/
structure E2ESrc where
  next : Nat
  opening : Bool
  unacked : List Unacked
  waiting : List Unacked
deriving DecidableEq, Repr

/-- A recorded reply of the target side (R145): number, data, cause, page state. -/
structure Reply where
  seq : Nat
  data : List Byte
  cause : Nat
  pstate : Nat
deriving DecidableEq, Repr

/-- This module as the target of a pair (R146): the latest number performed, the numbers performed, the recorded
replies, and the packet that opened the pair, by which its re-send is known (log 44). -/
structure E2ETgt where
  latest : Nat
  done : List Nat
  replies : List Reply
  opener : Option Packet
deriving DecidableEq, Repr

/-- The registers of a retriever thread (R390): RTCTL, RTENTRY, RTWIN, RTSRAM, RTKICK; STATE and CAUSE of RTSTAT; and its inbox (R392),
which thread 0 has too. -/
structure RetrThread where
  ctl : Word
  entry : Word
  win : Word
  sram : Word
  kick : Word
  stat : Nat
  cause : Nat
  inbox : List RPkt
deriving DecidableEq, Repr

/-- The migration block of a retriever (R394), with the migration in progress: the leaf it started from. -/
structure Migration where
  src : Word
  dst : Word
  tab : Word
  busy : Bool
  result : Nat
  leaf : Word
  at_ : Nat
  discard : Bool
deriving DecidableEq, Repr

/-- A register store that waits at the host interface (R93, R149): its unit and its number among the accesses of the module, its BAR,
offset and value. -/
structure BarAcc where
  unit : UnitId
  id : Nat
  bar : Nat
  off : Nat
  val : Word
deriving DecidableEq, Repr

/-! ### Host queues and graphs (R200 to R216) -/

/-- The state of a host queue (R203). -/
inductive QStat where
  | disabled
  | idle
  | running
  | halting
  | halted
deriving DecidableEq, Repr

/-- How far a node of a graph has come (R206 to R214): not started; at work; a kernel record checked, waiting for the pool;
its kernel posted; every write of a copy or signal issued; its range running; complete. -/
inductive NStat where
  | idle
  | busy
  | checked
  | posted
  | moved
  | range
  | done
deriving DecidableEq, Repr

/-- A node in the node store (R204): its words 0 to 3, and, of the run: its state, the times it was passed over (R213), a
loop's iterations (R212), the CYCLE of its first and its latest read (R210), the access it waits for, a kernel's record
and identifier, the bytes a copy has moved, and those it has read beyond them. -/
structure GNode where
  words : List Word
  stat : NStat
  passed : Nat
  iter : Nat
  firstAt : Option Nat
  readAt : Nat
  hold : Option Nat
  rec_ : LaunchRec
  kernel : Option Nat
  moved : Nat
  buf : List (Byte × Bool)
deriving DecidableEq, Repr

/-- The graph of a queue (R205): the number of its run (R214), its entry, its nodes as read so far, whether its places of the node store are taken and
whether it has been read and checked. -/
structure Graph where
  run : Nat
  entry : List Word
  nodes : List GNode
  stored : Bool
  loaded : Bool
  hold : Option Nat
deriving DecidableEq, Repr

/-- A host queue (R200): QBASE, QCFG, HEAD, TAIL, QSTAT, a DISABLE accepted while its graph runs (R203), its graph. -/
structure HostQueue where
  base : Word
  cfg : Word
  head : Nat
  tail : Nat
  stat : QStat
  cause : Nat
  node : Nat
  limit : Bool
  baddb : Bool
  badcmd : Bool
  off : Bool
  graph : Option Graph
deriving DecidableEq, Repr

/-! ### Links and the rotor (R351 to R383) -/

/-- A lane of a link (R360 to R362): FAILED, OVER, SYMS; the corrected symbols of the window that runs and the bits it has brought; the
symbol errors of each of the last 16 codewords; the CYCLE since which it is healthy, or of its failure or its last check. -/
structure Lane where
  failed : Bool
  crossed : Bool
  syms : Nat
  count : Nat
  bits : Nat
  errs : List Nat
  since : Nat
deriving DecidableEq, Repr

/-- The state of a link (R358, R362). -/
inductive LStat where
  | down
  | training
  | active16
  | active8
  | active4
  | retrain
  | failed
deriving DecidableEq, Repr

/-- A link (R351 to R368): its state, the state RETRAIN left, AUTO, GROUP, RLANE, the healthy lanes, FAILCAUSE, the
counters, the lanes and those that wait for retraining; whether it has stopped for a width change; the next flit number,
the flits sent and not acknowledged with their packets (the last flit of a packet marked), ACKSEQ, the replays since the
acknowledgement last advanced and when it did; the next number to accept and whether codewords are discarded; the packets
queued; the far depths and when they were last heard; the CYCLE at which it entered TRAINING or began to retrain a lane; for each class and
channel, as 2 × class + channel, the credits it holds and those it owes the far end (R356); the end of its last transmission, in eighths
of a clk. -/
structure Link where
  stat : LStat
  left : LStat
  auto : Bool
  group : Nat
  rlane : Nat
  healthy : Nat
  failcause : Nat
  replays : Nat
  uncorr : Nat
  lanes : Tab Lane
  waiting : List Nat
  stopped : Bool
  next : Nat
  sent : List (Packet × Bool)
  ackseq : Nat
  tries : Nat
  ackAt : Nat
  accept : Nat
  discard : Bool
  queue : List Packet
  far : List Nat
  heardAt : Nat
  since : Nat
  credits : List Nat
  owed : List Nat
  busy : Nat
deriving DecidableEq, Repr

/-- The path of a flow (R380): the torus, a direct rotor slot, or a relay through a partner in a slot. -/
inductive Path where
  | torus
  | direct
  | relay (m : Nat) (slot : Nat)
deriving DecidableEq, Repr

/-- A flow that has been active (R379, R380): its source module and unit, its destination and class, its path, and the
CYCLE of its last transmission. -/
structure FlowSt where
  src : Nat
  unit : Nat
  unitk : Nat
  dst : Nat
  cls : Nat
  path : Path
  lastAt : Nat
deriving DecidableEq, Repr

/-- The rotor port (R363, R369 to R377): ROTCTL.EN, ROTCALW, ROTCAL, the fields of ROTSTAT; the slot found in the last
dwell, dwells that failed to lock, the CYCLE of the last guard, the relay credits by (plane, destination), and the packets
held for relay. -/
structure Rotor where
  en : Bool
  calw : Tab Word
  cal : Tab Word
  lock : Bool
  guard : Bool
  calerr : Bool
  slot : Nat
  start : Nat
  seen : Option Nat
  fails : Nat
  guardAt : Nat
  credits : List (Nat × Nat × Nat)
  relay : List Packet
deriving DecidableEq, Repr

/-! ### Leases (R395 to R402) -/

/-- The state of a lender entry (R395). -/
inductive LendStat where
  | free
  | granting
  | active
  | recalling
deriving DecidableEq, Repr

/-- A lender entry (R395, R396): LLBASE, LLCFG, STATE, RESULT, EXPIRY, whether its notice was for a lapse, the CYCLE of its
grant or its notice. -/
structure Lender where
  base : Word
  cfg : Word
  stat : LendStat
  result : Nat
  expiry : Nat
  lapsed : Bool
  at_ : Nat
deriving DecidableEq, Repr

/-- The state of a borrower entry (R395). -/
inductive BorStat where
  | free
  | expect
  | active
  | evicting
  | demoted
deriving DecidableEq, Repr

/-- A borrower entry (R395, R396, R401): BLSRC, BLFALL, STATE, LAPSED, TERM, PAGES; whether a RELEASE evicts it; whether
step 1 of R399 is done; the CYCLE of the last acknowledged access or renewal, and of the last renewal sent; the tasks, by
key and kernel, that have had their event. -/
structure Borrower where
  src : Word
  fall : Word
  stat : BorStat
  lapsed : Bool
  term : Nat
  pages : Nat
  rel : Bool
  unmapped : Bool
  ackAt : Nat
  renewAt : Nat
  told : List (Nat × Nat)
deriving DecidableEq, Repr

/-! ### Collective contexts (R403 to R426) -/

/-- The state of a collective context (R404). -/
inductive CollStat where
  | free
  | idle
  | running
  | halted
  | catching
deriving DecidableEq, Repr

/-- A bucket (R416): the contributors added and excluded, and the combination of the added ones. -/
structure Bucket where
  incl : List Nat
  excl : List Nat
  vals : List Int
deriving DecidableEq, Repr

/-- A collective context (R403 to R426): its state, owner, GID, members in ascending order, status area, log region, TMO,
last completed ROUND, its program and the queued run's; the step that runs, whether it has begun and how far it is (phase,
index, bytes moved, bytes read with their poison, the access it waits for, its bucket, the words A2A has gathered), the writes
it still has to make (address, bytes with their poison, release), its result for the log, the loop counters, the CYCLE of its
last progress; the membership changes to come; the messages that wait; the tags of the SARs done and the results the root
holds; the round's excluded ranks, rows not appended, missing ranks and log entries, bytes with their poison, those of the membership
changes it has applied apart (R409); the rounds in the log with their sizes and the log's next position; the failure to report; the
snapshot, donor and join round of a replay and the donor's members for it; the state to enter once the status area is written, and how
far that is. -/
structure Coll where
  stat : CollStat
  ctx : Nat
  gid : Nat
  members : List Nat
  status : Word
  log : Word
  logl2 : Nat
  tmo : Nat
  round : Nat
  prog : List (List Word)
  queued : Option (List (List Word))
  pc : Nat
  begun : Bool
  phase : Nat
  idx : Nat
  moved : Nat
  buf : List (Byte × Bool)
  hold : Option Nat
  bucket : Bucket
  tmp : List (List Nat)
  writes : List (Word × List (Byte × Bool) × Bool)
  out : List (Byte × Bool)
  cnt : List Nat
  since : Nat
  changes : List (Nat × Bool × List Nat)
  inbox : List CollMsg
  sars : List Nat
  results : List CollMsg
  excl : List Nat
  ovf : Nat
  missing : List Nat
  entries : List (List (Byte × Bool))
  noted : List (List (Byte × Bool))
  logged : List (Nat × Nat)
  logAt : Nat
  reason : Nat
  cause : Nat
  failed : Nat
  snap : Nat
  donor : Nat
  join : Nat
  donorMs : List Nat
  fin : Option CollStat
  stw : Nat
deriving DecidableEq, Repr

/-- A COLL that its herder has not answered (R406): the number its result awaits, its task and kernel, its context, its op, its
place in its bundle and the bundle, the address of its command block, how far it has come, the block, the bytes read so far, and
where the block lies as it was translated at issue. -/
structure CollCmd where
  id : Nat
  core : Nat
  slot : Nat
  kernel : Nat
  ctx : Nat
  op : Nat
  at_ : Nat
  pc : Word
  va : Word
  stage : Nat
  block : List Word
  buf : List Byte
  parts : List (Nat × Nat × Nat × Nat)
deriving DecidableEq, Repr

/-- A SAR partial a router holds (R419): the combination, where it goes, when it is forwarded. -/
structure SarHold where
  msg : CollMsg
  dst : Nat
  until_ : Nat
deriving DecidableEq, Repr

/-- What a router remembers of a SAR key (R419): the key, the contributors forwarded, and the modules to send the result
back to. -/
structure SarKey where
  gid : Nat
  round : Nat
  tag : Nat
  fwd : List Nat
  from_ : List Nat
deriving DecidableEq, Repr

/-! ### What leaves the module other than accesses -/

/-- A message of this module to the outside: the messages of a lease (R396 to R399); a codeword on a link, with the number of its
first flit, its flits, the acknowledgement, the credits and the depths (R353, R354, R356, R366); a request for replay on a link (R354);
what each plane of the rotor exchanges at the start of a dwell, its own index and the relay credit it gives, in flits: to any destination,
and to those that have packets waiting (R370, R376); an attestation report of so many images with the requester's nonce (R454); the MSI-X
message of a host queue's new state (R455). -/
inductive OutMsg where
  | grant (dst lease lender : Nat) (lia term pages : Nat)
  | accept (dst lease : Nat)
  | refuse (dst lease : Nat)
  | renewal (dst lease : Nat)
  | notice (dst lease : Nat) (lapsed : Bool)
  | report (dst lease : Nat) (rel : Bool)
  | codeword (link seq ack : Nat) (flits : List (List Byte)) (credits depths : List Nat)
  | replay (link seq : Nat)
  | identity (plane index credit : Nat) (less : List (Nat × Nat))
  | attest (images : Nat) (nonce : List Byte)
  | msix (ctx q st : Nat)
deriving DecidableEq, Repr

/-- A power island (R9, R447, R449): its grant in mW; its duty g, 0 where it is not throttled; the clocks it was gated. -/
structure Island where
  grant : Nat
  duty : Nat
  gated : Nat
deriving DecidableEq, Repr

/-- An island after reset. -/
def Island.zero : Island := ⟨0, 0, 0⟩

/-- The power arbiter's limits and the module's status (R447, R451, R456, R457): the package limit in mW, the limit that takes effect
at the next re-grant, the CYCLE of the last re-grant; PHASE, CAUSE, THERM; the correctable errors that telemetry has counted. -/
structure ModStat where
  limit : Nat
  nextLimit : Option Nat
  grantAt : Option Nat
  phase : Nat
  cause : Nat
  therm : Bool
  corrected : Nat
deriving DecidableEq, Repr

/-! ### The module -/

/-- The state of one VL7 module, with the model's own fields at its end: the bundle being issued, the core whose turn it is,
the cores whose bundle could not issue in this clk, the tasks (core, slot, kernel) whose trap put their context in ERROR and whose
barriers are still to break (R196), the actions of the module's other units in this clk (log 3), the accesses
held, the reports that wait for a lower part of their access, by its unit and number (R86), the next identifier, the events and
register accesses waiting to happen, what the host has read, none where the read completed with Unsupported Request (R453), and the
free-value counter. -/
structure State where
  part : Part
  cycle : Word
  tasks : Tab Task
  offs : List OffTask
  cores : Tab CoreSt
  ctxs : Tab Ctx
  mem : Mem
  page : PageCtl
  podmap : Tab Word
  hostUp : Bool
  e2eSrc : Tab E2ESrc
  e2eTgt : Tab E2ETgt
  tgtWait : List Packet
  outq : List Packet
  lastSeq : List (Nat × Nat × Nat × Nat × Nat)
  rts : Tab RetrThread
  rsram : Tab Byte
  migs : Tab Migration
  links : Tab Link
  linkcfg : Word
  flowcfg : Word
  flows : List FlowSt
  rotor : Rotor
  lenders : Tab Lender
  borrowers : Tab Borrower
  colls : Tab Coll
  collCmds : List CollCmd
  herdLast : Tab Nat
  sarHolds : List SarHold
  sarKeys : List SarKey
  msgs : List OutMsg
  modstat : ModStat
  islands : Tab Island
  queues : Tab HostQueue
  lastQueue : Nat
  kernels : Tab Kernel
  launches : List LaunchReq
  parked : List LaunchReq
  arrivals : List Arrival
  held : List Held
  answers : Tab Ans
  unitErrs : List (UnitId × Report)
  repWait : List (UnitId × Nat × Report)
  iss : Issue
  turn : Nat
  stalled : List Nat
  barErrs : List (Nat × Nat × Nat)
  acts : Nat
  nextId : Nat
  inputs : List Instr
  barq : List BarAcc
  hostReads : List (Option Word)
  free : Nat
deriving DecidableEq, Repr

/-- Why the machine stops. -/
inductive Fault where
  /-- Raised by step when an input that waits is not an event of a unit: no such input can arrive. Safe. -/
  | badInput
deriving DecidableEq, Repr

/-- What the model turns away. -/
inductive Refusal where
  /-- Raised by an arm of exec whose instruction has no meaning yet. Safe. -/
  | notModelled (mnemonic : String)
deriving DecidableEq, Repr

/-! ### Reset and creation values -/

def Regs.zero : Regs := ⟨[], 0, [], []⟩
def TrapCsr.zero : TrapCsr := ⟨0, 0, 0, 0, 0, 0, 0, 0, 0⟩
/-- FRZWD.INTERVAL resets to 16 (R178); every other per-task CSR to 0. -/
def TaskCsr.zero : TaskCsr := ⟨0, 16, 0, 0, 0, 0, 0, 0, 0, 0⟩
/-- All latches lost (R58). -/
def Latches.lost : Latches := ⟨[none, none, none, none], [none, none, none, none], [none, none, none, none]⟩
/-- All latches zero without being lost (R223). -/
def Latches.zero : Latches :=
  ⟨[some 0, some 0, some 0, some 0], [some 0, some 0, some 0, some 0], [some 0, some 0, some 0, some 0]⟩
def TileRegs.zero : TileRegs := ⟨[], [], [], [], [], [], [], [], [], []⟩
def Place.zero : Place := ⟨0, 0, 0, 0, 0, 0, 0, 0, false⟩

/-- An empty task slot. -/
def Task.empty : Task where
  place := .zero
  stat := .free
  wait := .none
  waitPc := 0
  waitFlow := none
  woke := false
  pc := 0
  delay := .no
  label := none
  loops := []
  atHead := false
  hoist := []
  inflight := []
  shadow := []
  hshadow := []
  replay := false
  entering := false
  lpad := none
  leftAt := 0
  jumpErr := none
  fix := []
  skip := 0
  kept := .none
  keptPc := 0
  reports := []
  events := []
  pre := none
  saving := false
  saveAt := 0
  unsaved := []
  passes := 0
  agedAt := none
  offAt := none
  posts := 0
  fetchHold := none
  fetchErr := none
  fetchGot := []
  regs := .zero
  trap := .zero
  csr := .zero
  latch := .lost
  tile := .zero
  jtCommit := 0
  strays := []

/-- A core after reset: duty 15 with nothing gated is full speed (R449). -/
def CoreSt.zero : CoreSt where
  tileMem := []
  maskMem := []
  poisonTile := []
  poisonMask := []
  deps := []
  depSeq := 0
  side := []
  bars := []
  lastIssuer := none
  lastSlot := []
  yielded := none
  rawSt := []
  lastAt := 0
  pauseTill := 0
  mono := 0
  frozen := 0
  fences := []

/-- A barrier entry that is IDLE with GEN 0 (R189). -/
def Barrier.zero : Barrier := ⟨.idle, 0, 0, 0, 0, 0, 0, 0, [], 0, none⟩

/-- SATLIM after reset: EN 1, LIMIT 16 (R29). -/
def satlimReset : Word := 0x8010

/-- A FREE context (R82, R85, R88 to R90). -/
def Ctx.zero : Ctx where
  stat := .free
  pending := false
  badcmd := false
  badwr := false
  cause := 0
  toError := false
  quota := 0
  frbase := 0
  frctl := 0
  satlim := satlimReset
  range := []
  leasebind := []
  gen := 0
  savebase := 0
  flushAfter := []
  stopAt := 0
  recs := []
  recSent := false

/-- A retriever thread that is OFF (R390). -/
def RetrThread.zero : RetrThread := ⟨0, 0, 0, 0, 0, 0, 0, []⟩

/-- A migration block after reset (R394). -/
def Migration.zero : Migration := ⟨0, 0, 0, false, 0, 0, 0, false⟩

/-- A host queue after reset (R200). -/
def HostQueue.zero : HostQueue := ⟨0, 0, 0, 0, .disabled, 0, 0, false, false, false, false, none⟩

/-- A node with its words, not started. -/
def GNode.new (w : List Word) : GNode := ⟨w, .idle, 0, 0, none, 0, none, [], none, 0, []⟩

/-- A lane after reset (R362). -/
def Lane.zero : Lane := ⟨false, false, 0, 0, 0, [], 0⟩

/-- A link after reset: AUTO is 1 (R362); its far depths are not known (R366). -/
def Link.zero : Link where
  stat := .down
  left := .down
  auto := true
  group := 0
  rlane := 0
  healthy := 0
  failcause := 0
  replays := 0
  uncorr := 0
  lanes := []
  waiting := []
  stopped := false
  next := 0
  sent := []
  ackseq := 0
  tries := 0
  ackAt := 0
  accept := 0
  discard := false
  queue := []
  far := [255, 255, 255, 255, 255, 255, 255]
  heardAt := 0
  since := 0
  credits := List.replicate 8 0
  owed := List.replicate 8 0
  busy := 0

/-- LINKCFG after reset: RESENDT 20, BERTHR 4,096 (R363). -/
def linkcfgReset : Word := 0x1400001000

/-- FLOWCFG after reset: RELAYWIN 8, DIRWIN 8, PATHSEL 01_10_00_00, FLOWGAP 4 (R378). -/
def flowcfgReset : Word := 0x080800006004

/-- The rotor port after reset (R363, R372). -/
def Rotor.zero : Rotor := ⟨false, [], [], false, false, false, 0, 0, none, 0, 0, [], []⟩

/-- A lender entry after reset (R395). -/
def Lender.zero : Lender := ⟨0, 0, .free, 0, 0, false, 0⟩

/-- A borrower entry after reset (R395). -/
def Borrower.zero : Borrower := ⟨0, 0, .free, false, 0, 0, false, false, 0, 0, []⟩

/-- An empty bucket (R416). -/
def Bucket.zero : Bucket := ⟨[], [], []⟩

/-- A collective context that is FREE (R404). -/
def Coll.zero : Coll where
  stat := .free
  ctx := 0
  gid := 0
  members := []
  status := 0
  log := 0
  logl2 := 0
  tmo := 0
  round := 0
  prog := []
  queued := none
  pc := 0
  begun := false
  phase := 0
  idx := 0
  moved := 0
  buf := []
  hold := none
  bucket := .zero
  tmp := []
  writes := []
  out := []
  cnt := [0, 0, 0, 0]
  since := 0
  changes := []
  inbox := []
  sars := []
  results := []
  excl := []
  ovf := 0
  missing := []
  entries := []
  noted := []
  logged := []
  logAt := 0
  reason := 0
  cause := 0
  failed := 0
  snap := 0
  donor := 0
  join := 0
  donorMs := []
  fin := none
  stw := 0

/-- No bundle being issued. -/
def Issue.zero : Issue := ⟨0, 0, 0, 0, false, false, false, 0, [0, 0, 0, 0], [0, 0, 0, 0], .none, false, 0, 0⟩

/-- The module right after reset. The part is a VL7-512A of stepping 1 with module number 0 (DESIGN CHOICE, log 5);
bytes that nothing has written read 0 (DESIGN CHOICE, log 1). -/
def State.reset : State where
  part := ⟨0, 1, 0⟩
  cycle := 0
  tasks := []
  offs := []
  cores := []
  ctxs := []
  mem := ⟨[], [], [], []⟩
  page := ⟨0, [], false, [], []⟩
  podmap := []
  hostUp := true
  e2eSrc := []
  e2eTgt := []
  tgtWait := []
  outq := []
  lastSeq := []
  rts := []
  rsram := []
  migs := []
  links := []
  linkcfg := linkcfgReset
  flowcfg := flowcfgReset
  flows := []
  rotor := .zero
  lenders := []
  borrowers := []
  colls := []
  collCmds := []
  herdLast := []
  sarHolds := []
  sarKeys := []
  msgs := []
  modstat := ⟨2600000, none, none, 0, 0, false, 0⟩
  islands := []
  queues := []
  lastQueue := 0
  kernels := []
  launches := []
  parked := []
  arrivals := []
  held := []
  answers := []
  unitErrs := []
  repWait := []
  iss := .zero
  turn := 0
  stalled := []
  barErrs := []
  acts := 0
  nextId := 0
  inputs := []
  barq := []
  hostReads := []
  free := 0

end Sys2Proof.Machine
end

