-- ==== Sys2Proof/WellFormed.lean ====
section
/-! DEFINITION. Well-formed operations: every field names a register of its file, every latch selector a latch, every
small field a defined value (R52 to R54, R284, R324). -/

namespace Sys2Proof

/-- The register file an RR field names; `zero` is a field that must be zero, `pt` a P or T register. -/
inductive File where
  | g
  | q
  | k
  | v
  | pt
  | zero
deriving DecidableEq, Repr

/-- How many registers a file has (spec/00; R52). -/
def File.size : File → Nat
  | .g => 64
  | .q => 16
  | .k => 8
  | .v => 128
  | .pt => 64
  | .zero => 1

/-- A destination names a register of its file. -/
def dOk (f : File) (d : Dst) : Bool := decide (d.reg.toNat < f.size)

/-- A source names a register of its file, or a latch L0-L7 (R54). -/
def sOk (f : File) (s : Src) : Bool := if s.l then decide (s.reg.toNat < 8) else decide (s.reg.toNat < f.size)

/-- An atomic's order and scope: a defined scope, and none without an order (R274). -/
def scOk (o : BitVec 2) (sc : BitVec 3) : Bool := decide (sc.toNat < 5) && (o != 0#2 || sc == 0#3)

/-- The operations without a result for which format RR names s a zero field (R118, R393). -/
def Instr.noSuppress : Instr → Bool
  | .pgdisc _ _ | .pgpref _ _ | .pgprefRec _ _ | .pgprefRecw _ _ | .pkreply _ _ | .pkfwd _ _ | .pkdone _ _ => true
  | _ => false

/-- Whether an operation's fields all hold defined values. An event is well formed when its register numbers are. -/
def Instr.wf : Instr → Bool
  | .nop => true
  | .add _ d a b => dOk .g d && sOk .g a && sOk .g b
  | .addi d a _ => dOk .g d && sOk .g a
  | .sub _ d a b => dOk .g d && sOk .g a && sOk .g b
  | .sadd _ d a b => dOk .g d && sOk .g a && sOk .g b
  | .ssub _ d a b => dOk .g d && sOk .g a && sOk .g b
  | .mul _ d a b => dOk .g d && sOk .g a && sOk .g b
  | .mulh _ d a b => dOk .g d && sOk .g a && sOk .g b
  | .mulhu _ d a b => dOk .g d && sOk .g a && sOk .g b
  | .div _ d a b => dOk .g d && sOk .g a && sOk .g b
  | .divu _ d a b => dOk .g d && sOk .g a && sOk .g b
  | .rem _ d a b => dOk .g d && sOk .g a && sOk .g b
  | .remu _ d a b => dOk .g d && sOk .g a && sOk .g b
  | .and d a b => dOk .g d && sOk .g a && sOk .g b
  | .andi d a _ => dOk .g d && sOk .g a
  | .or d a b => dOk .g d && sOk .g a && sOk .g b
  | .ori d a _ => dOk .g d && sOk .g a
  | .xor d a b => dOk .g d && sOk .g a && sOk .g b
  | .xori d a _ => dOk .g d && sOk .g a
  | .shl _ d a b => dOk .g d && sOk .g a && sOk .g b
  | .shli d a _ => dOk .g d && sOk .g a
  | .shr _ d a b => dOk .g d && sOk .g a && sOk .g b
  | .shri d a _ => dOk .g d && sOk .g a
  | .sra _ d a b => dOk .g d && sOk .g a && sOk .g b
  | .srai d a _ => dOk .g d && sOk .g a
  | .min _ d a b => dOk .g d && sOk .g a && sOk .g b
  | .max _ d a b => dOk .g d && sOk .g a && sOk .g b
  | .minu _ d a b => dOk .g d && sOk .g a && sOk .g b
  | .maxu _ d a b => dOk .g d && sOk .g a && sOk .g b
  | .clz _ d a => dOk .g d && sOk .g a
  | .cls _ d a => dOk .g d && sOk .g a
  | .popc _ d a => dOk .g d && sOk .g a
  | .sext _ n d a => dOk .g d && sOk .g a && n != 3#2
  | .lui wide d a imm => dOk .g d && sOk .g a && (wide || decide (imm.toNat < 2048))
  | .cmp c d a b => dOk .q d && sOk .g a && sOk .g b && decide (c.toNat < 11)
  | .cmpi _ d a _ => dOk .q d && sOk .g a
  | .qop o d a b => dOk .q d && sOk .q a && sOk .q b && decide (o.toNat < 5)
  | .qmovQFromG d a => dOk .q d && sOk .g a
  | .qmovGFromQ d a => dOk .g d && sOk .q a
  | .qmovAllg d => dOk .g d
  | .qmovAllq _ a => sOk .g a
  | .sel d a b _ => dOk .g d && sOk .g a && sOk .g b
  | .br _ => true
  | .brt _ _ => true
  | .brf _ _ => true
  | .call _ => true
  | .callt _ _ _ => true
  | .ret _ => true
  | .jmpt _ _ _ => true
  | .lpad _ => true
  | .loop _ _ => true
  | .loopi _ _ => true
  | .lbrk _ n => n != 0#3 && n != 7#3
  | .yield => true
  | .waitc _ => true
  | .waite t sc _ _ => decide (t.toNat < 4) && decide (sc.toNat < 5)
  | .twaitAll _ => true
  | .twait _ _ => true
  | .twaitZ _ _ => true
  | .endTask => true
  | .trapi _ => true
  | .eret => true
  | .csrr _ _ => true
  | .csrw _ _ => true
  | .fence sc => decide (sc.toNat < 5)
  | .launch _ _ => true
  | .launchW _ _ => true
  | .barinit _ _ _ => true
  | .bararr _ _ _ => true
  | .barwait _ _ _ => true
  | .barwaitA _ _ => true
  | .barq _ _ _ => true
  | .ldb _ _ _ _ => true
  | .lds _ _ _ _ => true
  | .ldw _ _ _ _ => true
  | .ldd _ _ _ _ => true
  | .stb _ _ _ _ => true
  | .sts _ _ _ _ => true
  | .stw _ _ _ _ => true
  | .std _ _ _ _ => true
  | .ldAcq _ _ _ sc z zx => decide (sc.toNat < 5) && (!zx || z != 3#2)
  | .stRel _ _ _ sc _ => decide (sc.toNat < 5)
  | .ldh _ _ _ _ z zx => !zx || z != 3#2
  | .chkh _ _ _ _ z zx => !zx || z != 3#2
  | .aadd _ _ _ o sc _ => scOk o sc
  | .asadd _ _ _ o sc _ => scOk o sc
  | .amin _ _ _ o sc _ => scOk o sc
  | .amax _ _ _ o sc _ => scOk o sc
  | .aand _ _ _ o sc _ => scOk o sc
  | .aor _ _ _ o sc _ => scOk o sc
  | .axchg _ _ _ o sc _ => scOk o sc
  | .acas _ _ _ o sc _ => scOk o sc
  | .acas2 _ _ _ o sc => scOk o sc
  | .remop _ _ _ o sc => scOk o sc
  | .pgdisc a b => sOk .g a && sOk .g b
  | .pgpref a b => sOk .g a && sOk .g b
  | .pgprefRec a b => sOk .g a && sOk .g b
  | .pgprefRecw a b => sOk .g a && sOk .g b
  | .pkget d a => dOk .g d && sOk .g a
  | .pkreply a b => sOk .g a && sOk .g b
  | .pkfwd a b => sOk .g a && sOk .g b
  | .pkdone a b => sOk .g a && sOk .g b
  | .vadd _ _ a b => sOk .v a && sOk .v b
  | .vsub _ _ a b => sOk .v a && sOk .v b
  | .vsadd _ _ a b => sOk .v a && sOk .v b
  | .vssub _ _ a b => sOk .v a && sOk .v b
  | .vmul _ _ a b => sOk .v a && sOk .v b
  | .vmulh _ _ a b => sOk .v a && sOk .v b
  | .vmulhQ _ _ a b => sOk .v a && sOk .v b
  | .vmac _ _ a b => sOk .v a && sOk .v b
  | .vmin _ _ a b => sOk .v a && sOk .v b
  | .vmax _ _ a b => sOk .v a && sOk .v b
  | .vabs _ _ a => sOk .v a
  | .vneg _ _ a => sOk .v a
  | .vand _ _ a b => sOk .v a && sOk .v b
  | .vor _ _ a b => sOk .v a && sOk .v b
  | .vxor _ _ a b => sOk .v a && sOk .v b
  | .vshl _ _ a b => sOk .v a && sOk .v b
  | .vshlS _ _ a b => sOk .v a && sOk .v b
  | .vshr _ _ a b => sOk .v a && sOk .v b
  | .vsra _ _ a b => sOk .v a && sOk .v b
  | .vnshr t _ _ a b => sOk .v a && sOk .g b && t != 3#2
  | .vcmp _ _ _ a b => sOk .v a && sOk .v b
  | .vsel _ _ a b => sOk .v a && sOk .v b
  | .vkopAnd d a b => dOk .k d && sOk .k a && sOk .k b
  | .vkopOr d a b => dOk .k d && sOk .k a && sOk .k b
  | .vkopXor d a b => dOk .k d && sOk .k a && sOk .k b
  | .vkopAndn d a b => dOk .k d && sOk .k a && sOk .k b
  | .vkopFromv d a => dOk .k d && sOk .v a
  | .vkopTov _ a => sOk .k a
  | .vkopFromg d a => dOk .k d && sOk .g a
  | .vkopTog d a => dOk .g d && sOk .k a
  | .vkopPopc d a => dOk .g d && sOk .k a
  | .vcvt _ _ _ a b => sOk .v a && sOk .g b
  | .vwiden t _ _ _ a => sOk .v a && t != 3#2
  | .vpack t _ a b => sOk .v a && sOk .v b && t != 3#2
  | .vunpk _ _ _ a b => sOk .v a && sOk .v b
  | .vshuf t _ a _ => sOk .v a && t != 0#2
  | .vpld d a => dOk .pt d && sOk .v a
  | .vpsw d => dOk .pt d
  | .vpswAll _ => true
  | .vreds _ _ a => sOk .v a
  | .vredsSq _ _ a => sOk .v a
  | .vredmMax _ _ a => sOk .v a
  | .vredmMin _ _ a => sOk .v a
  | .vredmAmax _ _ a => sOk .v a
  | .vscan _ _ a => sOk .v a
  | .vscanEx _ _ a => sOk .v a
  | .vbcast _ _ a => sOk .g a
  | .vbcastV _ _ a b => sOk .v a && sOk .g b
  | .vextr _ d a b => dOk .g d && sOk .v a && sOk .g b
  | .vmovi _ _ _ => true
  | .vld _ _ _ _ => true
  | .vst _ _ _ _ => true
  | .vgath _ t _ a b => sOk .v a && sOk .g b && t != 0#2
  | .vscat t _ a b => sOk .v a && sOk .g b && t != 0#2
  | .vtld _ _ _ => true
  | .vtst _ _ _ => true
  | .vldr _ a => sOk .g a
  | .vstr _ a b => sOk .g a && sOk .v b
  | .vdefer c _ _ a b => c != 0#3 && sOk .v a && (!a.l || c == 1#3) && sOk .k b
  | .vdrain c _ _ _ => c != 0#3
  | .vcls _ _ a => sOk .v a
  | .vclsMin _ _ a => sOk .v a
  | .vrnds _ _ a b => sOk .v a && sOk .g b
  | .vrndsNar t _ _ a b => sOk .v a && sOk .g b && t != 3#2
  | .vexp2 _ a b => sOk .v a && sOk .g b
  | .vexp2Q _ a b => sOk .v a && sOk .g b
  | .vlog2 _ a b => sOk .v a && sOk .g b
  | .vrcp _ a => sOk .v a
  | .vrsq _ a => sOk .v a
  | .vdivq _ a b => sOk .v a && sOk .v b
  | .voptm _ _ _ b => sOk .g b
  | .voptv _ _ _ b => sOk .g b
  | .vopts _ _ _ b => sOk .g b
  | .voptmL _ _ b => sOk .g b
  | .voptvL _ _ b => sOk .g b
  | .voptsL _ _ b => sOk .g b
  | .tdset _ _ => true
  | .tscl _ _ => true
  | .tsclZ _ _ => true
  | .tcens c _ y => decide (c.toNat < 2) || decide (y.toNat < 32)
  | .tmma _ _ _ => true
  | .tmmas _ _ _ => true
  | .tmmao _ _ _ => true
  | .algld _ _ => true
  | .tmmaa _ _ _ _ => true
  | .tmmaaSw _ _ _ _ => true
  | .tconj _ _ _ => true
  | .tnorm _ _ _ => true
  | .tacc _ _ => true
  | .taccZ _ _ => true
  | .tzero _ => true
  | .tdrain _ _ => true
  | .tdrainZ _ _ => true
  | .tresc _ _ _ => true
  | .trescZ _ _ _ => true
  | .txps _ _ _ => true
  | .tld _ _ _ => true
  | .tst _ _ _ => true
  | .tstx _ _ _ => true
  | .dset _ _ _ => true
  | .tcpyMm _ _ _ => true
  | .tcpyTm _ _ _ => true
  | .tcpyMt _ _ _ => true
  | .tcpyTt _ _ _ => true
  | .tcpyd _ _ _ => true
  | .tmskld _ _ _ => true
  | .noise _ _ => true
  | .collOpen _ _ => true
  | .collRun _ _ => true
  | .collShrink _ _ => true
  | .collJoin _ _ => true
  | .collCatch _ _ => true
  | .collClose _ _ => true
  | .takePendingTrap core slot => decide (core < 2048) && decide (slot < 16)
  | .ctxCreate _ => true
  | .ctxStart _ => true
  | .ctxStop _ => true
  | .ctxDestroy _ => true
  | .ctxcmdUndefined _ => true
  | .ctxQuiesceComplete _ => true
  | .ctxDrainComplete _ => true
  | .configRegisterWrite _ _ => true
  | .frctlWrite _ _ => true
  | .registerWrite _ _ => true
  | .hostBarAccess _wr bar off _v => (bar == 0 && decide (off < 0x1000000) || bar == 2 && decide (off < 0x10000)) && off % 8 == 0
  | .accessAtHomeController _ => true
  | .memoryReplyArrival _ _ _ _ => true
  | .ptinv _ => true
  | .ptinvComplete => true
  | .pgabort _ => true
  | .fgenFlush _ => true
  | .miggo _ => true
  | .migrationComplete _ => true
  | .launchRecordArrival => true
  | .kernelPlacement _ => true
  | .taskEndComplete core slot => decide (core < 2048) && decide (slot < 16)
  | .monopolyWatchdogExpiry _ => true
  | .freezeConversion _ => true
  | .tileTaskStart _ _ => true
  | .tileTaskComplete _ _ => true
  | .copyBurstReply _ _ => true
  | .missedPromise core slot => decide (core < 2048) && decide (slot < 16)
  | .waiteReread core slot => decide (core < 2048) && decide (slot < 16)
  | .barrierArrival => true
  | .barrierBreak _ _ _ => true
  | .queueEnable _ _ => true
  | .queueDisable _ _ => true
  | .queueRetry _ _ => true
  | .queueSkip _ _ => true
  | .qcmdUndefined _ _ => true
  | .queueConfigWrite _ _ _ _ => true
  | .doorbell _ _ _ => true
  | .graphStart _ _ => true
  | .kernelNode _ _ _ => true
  | .kernelNodeAdmit _ _ _ => true
  | .copyNode _ _ _ => true
  | .copyNodeComplete _ _ _ => true
  | .signalNode _ _ _ => true
  | .waitNodeRead _ _ _ => true
  | .waitNodeTimeout _ _ _ => true
  | .conditionalNode _ _ _ => true
  | .loopNodeEvaluate _ _ _ => true
  | .endNode _ _ => true
  | .graphHaltComplete _ _ => true
  | .preempt _ => true
  | .preemptionLanding core slot => decide (core < 2048) && decide (slot < 16)
  | .preemptionForced core slot => decide (core < 2048) && decide (slot < 16)
  | .saveComplete core slot => decide (core < 2048) && decide (slot < 16)
  | .taskResume core slot => decide (core < 2048) && decide (slot < 16)
  | .lnkctlTrain _ => true
  | .lnkctlDown _ => true
  | .linkTrainingComplete _ _ => true
  | .linkTrainingTimeout _ => true
  | .laneLost _ _ => true
  | .linkWidthAgreed _ => true
  | .laneThresholdCrossed _ _ _ => true
  | .laneRetrainComplete _ => true
  | .laneRetrainTimeout _ => true
  | .linkWiden _ => true
  | .laneBackgroundCheck _ _ _ => true
  | .codewordReceived _ _ _ _ _ => true
  | .replayRequestReceived _ _ => true
  | .replayAckTimeout _ => true
  | .packetRoute => true
  | .farDepthTimeout _ => true
  | .rotorEnable => true
  | .rotorDwellStart _ _ => true
  | .rotorGuardStart => true
  | .rotorLockTimeout => true
  | .packetArrivalAtTarget p => decide (p.src < 4096) && decide (p.seq < 2 ^ 32)
  | .e2eAckArrival _ _ _ _ _ => true
  | .e2eResendTimeout _ _ => true
  | .resetNoticeArrival _ => true
  | .rtThreadStart _ _ => true
  | .rtThreadStop _ _ => true
  | .llcmdGrant _ => true
  | .llcmdReclaim _ => true
  | .blcmdExpect _ => true
  | .blcmdRelease _ => true
  | .blcmdClear _ => true
  | .leaseGrantArrival _ _ _ _ _ => true
  | .leaseAcceptArrival _ => true
  | .leaseRefusalArrival _ => true
  | .leaseGrantTimeout _ => true
  | .leaseTermExpiry _ => true
  | .leaseRenewalSend _ => true
  | .leaseRenewalArrival _ => true
  | .leaseLapse _ => true
  | .reclaimNoticeArrival _ _ => true
  | .evictionComplete _ => true
  | .evictionReportArrival _ _ => true
  | .reclaimForceTimeout _ => true
  | .collStepEnd _ => true
  | .collStepSend _ => true
  | .collStepRecv _ => true
  | .collStepPsend _ => true
  | .collStepRrs _ => true
  | .collStepRed _ => true
  | .collStepCopy _ => true
  | .collStepWait _ => true
  | .collStepLoop _ => true
  | .collStepEndl _ => true
  | .collStepAppend _ => true
  | .collStepA2a _ => true
  | .collStepSignal _ => true
  | .collStepSar _ => true
  | .collMessageArrival m => decide (m.ty < 3)
  | .collStepTimeout _ => true
  | .collCatchComplete _ _ _ => true
  | .appendRowArrival _ _ _ _ => true
  | .sarRouterCombine _ => true
  | .sarPartialResend _ => true
  | .powerRegrant _ duties => duties.all (· < 16)
  | .i3cPowerLimitWrite _ => true
  | .coolantLimit => true
  | .attestationRequest _ => true
  | .moduleReset _ => true
  | .hostLinkDown => true
  | .patrolScrub _sp line _err => line % 64 == 0
  | .lpddr6Refresh => true
  | .hostLinkUp => true
  | .islandGrantExceeded island g => decide (island < 64) && decide (0 < g) && decide (g < 16)

/-- Whether an operation is an event of a unit rather than the content of a slot. -/
def Instr.isEvent : Instr → Bool
  | .nop => false
  | .add _ _ _ _ => false
  | .addi _ _ _ => false
  | .sub _ _ _ _ => false
  | .sadd _ _ _ _ => false
  | .ssub _ _ _ _ => false
  | .mul _ _ _ _ => false
  | .mulh _ _ _ _ => false
  | .mulhu _ _ _ _ => false
  | .div _ _ _ _ => false
  | .divu _ _ _ _ => false
  | .rem _ _ _ _ => false
  | .remu _ _ _ _ => false
  | .and _ _ _ => false
  | .andi _ _ _ => false
  | .or _ _ _ => false
  | .ori _ _ _ => false
  | .xor _ _ _ => false
  | .xori _ _ _ => false
  | .shl _ _ _ _ => false
  | .shli _ _ _ => false
  | .shr _ _ _ _ => false
  | .shri _ _ _ => false
  | .sra _ _ _ _ => false
  | .srai _ _ _ => false
  | .min _ _ _ _ => false
  | .max _ _ _ _ => false
  | .minu _ _ _ _ => false
  | .maxu _ _ _ _ => false
  | .clz _ _ _ => false
  | .cls _ _ _ => false
  | .popc _ _ _ => false
  | .sext _ _ _ _ => false
  | .lui _ _ _ _ => false
  | .cmp _ _ _ _ => false
  | .cmpi _ _ _ _ => false
  | .qop _ _ _ _ => false
  | .qmovQFromG _ _ => false
  | .qmovGFromQ _ _ => false
  | .qmovAllg _ => false
  | .qmovAllq _ _ => false
  | .sel _ _ _ _ => false
  | .br _ => false
  | .brt _ _ => false
  | .brf _ _ => false
  | .call _ => false
  | .callt _ _ _ => false
  | .ret _ => false
  | .jmpt _ _ _ => false
  | .lpad _ => false
  | .loop _ _ => false
  | .loopi _ _ => false
  | .lbrk _ _ => false
  | .yield => false
  | .waitc _ => false
  | .waite _ _ _ _ => false
  | .twaitAll _ => false
  | .twait _ _ => false
  | .twaitZ _ _ => false
  | .endTask => false
  | .trapi _ => false
  | .eret => false
  | .csrr _ _ => false
  | .csrw _ _ => false
  | .fence _ => false
  | .launch _ _ => false
  | .launchW _ _ => false
  | .barinit _ _ _ => false
  | .bararr _ _ _ => false
  | .barwait _ _ _ => false
  | .barwaitA _ _ => false
  | .barq _ _ _ => false
  | .ldb _ _ _ _ => false
  | .lds _ _ _ _ => false
  | .ldw _ _ _ _ => false
  | .ldd _ _ _ _ => false
  | .stb _ _ _ _ => false
  | .sts _ _ _ _ => false
  | .stw _ _ _ _ => false
  | .std _ _ _ _ => false
  | .ldAcq _ _ _ _ _ _ => false
  | .stRel _ _ _ _ _ => false
  | .ldh _ _ _ _ _ _ => false
  | .chkh _ _ _ _ _ _ => false
  | .aadd _ _ _ _ _ _ => false
  | .asadd _ _ _ _ _ _ => false
  | .amin _ _ _ _ _ _ => false
  | .amax _ _ _ _ _ _ => false
  | .aand _ _ _ _ _ _ => false
  | .aor _ _ _ _ _ _ => false
  | .axchg _ _ _ _ _ _ => false
  | .acas _ _ _ _ _ _ => false
  | .acas2 _ _ _ _ _ => false
  | .remop _ _ _ _ _ => false
  | .pgdisc _ _ => false
  | .pgpref _ _ => false
  | .pgprefRec _ _ => false
  | .pgprefRecw _ _ => false
  | .pkget _ _ => false
  | .pkreply _ _ => false
  | .pkfwd _ _ => false
  | .pkdone _ _ => false
  | .vadd _ _ _ _ => false
  | .vsub _ _ _ _ => false
  | .vsadd _ _ _ _ => false
  | .vssub _ _ _ _ => false
  | .vmul _ _ _ _ => false
  | .vmulh _ _ _ _ => false
  | .vmulhQ _ _ _ _ => false
  | .vmac _ _ _ _ => false
  | .vmin _ _ _ _ => false
  | .vmax _ _ _ _ => false
  | .vabs _ _ _ => false
  | .vneg _ _ _ => false
  | .vand _ _ _ _ => false
  | .vor _ _ _ _ => false
  | .vxor _ _ _ _ => false
  | .vshl _ _ _ _ => false
  | .vshlS _ _ _ _ => false
  | .vshr _ _ _ _ => false
  | .vsra _ _ _ _ => false
  | .vnshr _ _ _ _ _ => false
  | .vcmp _ _ _ _ _ => false
  | .vsel _ _ _ _ => false
  | .vkopAnd _ _ _ => false
  | .vkopOr _ _ _ => false
  | .vkopXor _ _ _ => false
  | .vkopAndn _ _ _ => false
  | .vkopFromv _ _ => false
  | .vkopTov _ _ => false
  | .vkopFromg _ _ => false
  | .vkopTog _ _ => false
  | .vkopPopc _ _ => false
  | .vcvt _ _ _ _ _ => false
  | .vwiden _ _ _ _ _ => false
  | .vpack _ _ _ _ => false
  | .vunpk _ _ _ _ _ => false
  | .vshuf _ _ _ _ => false
  | .vpld _ _ => false
  | .vpsw _ => false
  | .vpswAll _ => false
  | .vreds _ _ _ => false
  | .vredsSq _ _ _ => false
  | .vredmMax _ _ _ => false
  | .vredmMin _ _ _ => false
  | .vredmAmax _ _ _ => false
  | .vscan _ _ _ => false
  | .vscanEx _ _ _ => false
  | .vbcast _ _ _ => false
  | .vbcastV _ _ _ _ => false
  | .vextr _ _ _ _ => false
  | .vmovi _ _ _ => false
  | .vld _ _ _ _ => false
  | .vst _ _ _ _ => false
  | .vgath _ _ _ _ _ => false
  | .vscat _ _ _ _ => false
  | .vtld _ _ _ => false
  | .vtst _ _ _ => false
  | .vldr _ _ => false
  | .vstr _ _ _ => false
  | .vdefer _ _ _ _ _ => false
  | .vdrain _ _ _ _ => false
  | .vcls _ _ _ => false
  | .vclsMin _ _ _ => false
  | .vrnds _ _ _ _ => false
  | .vrndsNar _ _ _ _ _ => false
  | .vexp2 _ _ _ => false
  | .vexp2Q _ _ _ => false
  | .vlog2 _ _ _ => false
  | .vrcp _ _ => false
  | .vrsq _ _ => false
  | .vdivq _ _ _ => false
  | .voptm _ _ _ _ => false
  | .voptv _ _ _ _ => false
  | .vopts _ _ _ _ => false
  | .voptmL _ _ _ => false
  | .voptvL _ _ _ => false
  | .voptsL _ _ _ => false
  | .tdset _ _ => false
  | .tscl _ _ => false
  | .tsclZ _ _ => false
  | .tcens _ _ _ => false
  | .tmma _ _ _ => false
  | .tmmas _ _ _ => false
  | .tmmao _ _ _ => false
  | .algld _ _ => false
  | .tmmaa _ _ _ _ => false
  | .tmmaaSw _ _ _ _ => false
  | .tconj _ _ _ => false
  | .tnorm _ _ _ => false
  | .tacc _ _ => false
  | .taccZ _ _ => false
  | .tzero _ => false
  | .tdrain _ _ => false
  | .tdrainZ _ _ => false
  | .tresc _ _ _ => false
  | .trescZ _ _ _ => false
  | .txps _ _ _ => false
  | .tld _ _ _ => false
  | .tst _ _ _ => false
  | .tstx _ _ _ => false
  | .dset _ _ _ => false
  | .tcpyMm _ _ _ => false
  | .tcpyTm _ _ _ => false
  | .tcpyMt _ _ _ => false
  | .tcpyTt _ _ _ => false
  | .tcpyd _ _ _ => false
  | .tmskld _ _ _ => false
  | .noise _ _ => false
  | .collOpen _ _ => false
  | .collRun _ _ => false
  | .collShrink _ _ => false
  | .collJoin _ _ => false
  | .collCatch _ _ => false
  | .collClose _ _ => false
  | .takePendingTrap _ _ => true
  | .ctxCreate _ => true
  | .ctxStart _ => true
  | .ctxStop _ => true
  | .ctxDestroy _ => true
  | .ctxcmdUndefined _ => true
  | .ctxQuiesceComplete _ => true
  | .ctxDrainComplete _ => true
  | .configRegisterWrite _ _ => true
  | .frctlWrite _ _ => true
  | .registerWrite _ _ => true
  | .hostBarAccess _ _ _ _ => true
  | .accessAtHomeController _ => true
  | .memoryReplyArrival _ _ _ _ => true
  | .ptinv _ => true
  | .ptinvComplete => true
  | .pgabort _ => true
  | .fgenFlush _ => true
  | .miggo _ => true
  | .migrationComplete _ => true
  | .launchRecordArrival => true
  | .kernelPlacement _ => true
  | .taskEndComplete _ _ => true
  | .monopolyWatchdogExpiry _ => true
  | .freezeConversion _ => true
  | .tileTaskStart _ _ => true
  | .tileTaskComplete _ _ => true
  | .copyBurstReply _ _ => true
  | .missedPromise _ _ => true
  | .waiteReread _ _ => true
  | .barrierArrival => true
  | .barrierBreak _ _ _ => true
  | .queueEnable _ _ => true
  | .queueDisable _ _ => true
  | .queueRetry _ _ => true
  | .queueSkip _ _ => true
  | .qcmdUndefined _ _ => true
  | .queueConfigWrite _ _ _ _ => true
  | .doorbell _ _ _ => true
  | .graphStart _ _ => true
  | .kernelNode _ _ _ => true
  | .kernelNodeAdmit _ _ _ => true
  | .copyNode _ _ _ => true
  | .copyNodeComplete _ _ _ => true
  | .signalNode _ _ _ => true
  | .waitNodeRead _ _ _ => true
  | .waitNodeTimeout _ _ _ => true
  | .conditionalNode _ _ _ => true
  | .loopNodeEvaluate _ _ _ => true
  | .endNode _ _ => true
  | .graphHaltComplete _ _ => true
  | .preempt _ => true
  | .preemptionLanding _ _ => true
  | .preemptionForced _ _ => true
  | .saveComplete _ _ => true
  | .taskResume _ _ => true
  | .lnkctlTrain _ => true
  | .lnkctlDown _ => true
  | .linkTrainingComplete _ _ => true
  | .linkTrainingTimeout _ => true
  | .laneLost _ _ => true
  | .linkWidthAgreed _ => true
  | .laneThresholdCrossed _ _ _ => true
  | .laneRetrainComplete _ => true
  | .laneRetrainTimeout _ => true
  | .linkWiden _ => true
  | .laneBackgroundCheck _ _ _ => true
  | .codewordReceived _ _ _ _ _ => true
  | .replayRequestReceived _ _ => true
  | .replayAckTimeout _ => true
  | .packetRoute => true
  | .farDepthTimeout _ => true
  | .rotorEnable => true
  | .rotorDwellStart _ _ => true
  | .rotorGuardStart => true
  | .rotorLockTimeout => true
  | .packetArrivalAtTarget _ => true
  | .e2eAckArrival _ _ _ _ _ => true
  | .e2eResendTimeout _ _ => true
  | .resetNoticeArrival _ => true
  | .rtThreadStart _ _ => true
  | .rtThreadStop _ _ => true
  | .llcmdGrant _ => true
  | .llcmdReclaim _ => true
  | .blcmdExpect _ => true
  | .blcmdRelease _ => true
  | .blcmdClear _ => true
  | .leaseGrantArrival _ _ _ _ _ => true
  | .leaseAcceptArrival _ => true
  | .leaseRefusalArrival _ => true
  | .leaseGrantTimeout _ => true
  | .leaseTermExpiry _ => true
  | .leaseRenewalSend _ => true
  | .leaseRenewalArrival _ => true
  | .leaseLapse _ => true
  | .reclaimNoticeArrival _ _ => true
  | .evictionComplete _ => true
  | .evictionReportArrival _ _ => true
  | .reclaimForceTimeout _ => true
  | .collStepEnd _ => true
  | .collStepSend _ => true
  | .collStepRecv _ => true
  | .collStepPsend _ => true
  | .collStepRrs _ => true
  | .collStepRed _ => true
  | .collStepCopy _ => true
  | .collStepWait _ => true
  | .collStepLoop _ => true
  | .collStepEndl _ => true
  | .collStepAppend _ => true
  | .collStepA2a _ => true
  | .collStepSignal _ => true
  | .collStepSar _ => true
  | .collMessageArrival _ => true
  | .collStepTimeout _ => true
  | .collCatchComplete _ _ _ => true
  | .appendRowArrival _ _ _ _ => true
  | .sarRouterCombine _ => true
  | .sarPartialResend _ => true
  | .powerRegrant _ _ => true
  | .i3cPowerLimitWrite _ => true
  | .coolantLimit => true
  | .attestationRequest _ => true
  | .moduleReset _ => true
  | .hostLinkDown => true
  | .patrolScrub _ _ _ => true
  | .lpddr6Refresh => true
  | .hostLinkUp => true
  | .islandGrantExceeded _ _ => true

end Sys2Proof
end

