-- ==== Sys2Proof/Machine/Ops.lean ====
section
/-! DEFINITION. The named operations over the state: the task in focus, its registers, results in flight, trap entry
and return. -/

namespace Sys2Proof.Machine

/-- A list without its repeats. -/
def once (l : List Nat) : List Nat := l.foldr (fun x acc => if acc.contains x then acc else x :: acc) []

/-! ### The task in focus -/

/-- The key of slot `slot` of core `core` in the task table; core 1024 + r stands for retriever r. -/
def taskKey (core slot : Nat) : Nat := core * 16 + slot

/-- The task in a slot. -/
def State.taskAt (s : State) (core slot : Nat) : Task := s.tasks.get .empty (taskKey core slot)

/-- Replaces the task in a slot. -/
def State.setTaskAt (s : State) (core slot : Nat) (t : Task) : State :=
  { s with tasks := s.tasks.put (taskKey core slot) t }

/-- The task whose bundle is being issued. -/
def State.task (s : State) : Task := s.taskAt s.iss.core s.iss.slot

/-- Replaces the task whose bundle is being issued. -/
def State.setTask (s : State) (t : Task) : State := s.setTaskAt s.iss.core s.iss.slot t

/-- A core's own state. -/
def State.coreAt (s : State) (c : Nat) : CoreSt := s.cores.get .zero c

/-- Replaces a core's own state. -/
def State.setCoreAt (s : State) (c : Nat) (x : CoreSt) : State := { s with cores := s.cores.put c x }

/-- A context. -/
def State.ctxAt (s : State) (n : Nat) : Ctx := s.ctxs.get .zero n

/-- Replaces a context. -/
def State.setCtxAt (s : State) (n : Nat) (x : Ctx) : State := { s with ctxs := s.ctxs.put n x }

/-- Whether the task in focus is a retriever's thread. -/
def State.inRetr (s : State) : Bool := 1024 ≤ s.iss.core

/-! ### Registers (R55, R280, R387) -/

/-- G register n; G0 reads zero. -/
def Task.gReg (t : Task) (n : Nat) : Word := if n = 0 then 0 else t.regs.g.get 0 n

/-- Q register n; Q0 reads 1. -/
def Task.qReg (t : Task) (n : Nat) : Bool := n == 0 || t.regs.q.getLsbD n

/-- The predicate image of QMOV.ALLG: bit 0 is always 1 (R248). -/
def Task.qImage (t : Task) : Nat := t.regs.q.toNat / 2 * 2 + 1

/-- K register n. -/
def Task.kReg (t : Task) (n : Nat) : Word := t.regs.k.get 0 n

/-- Physical V register i. -/
def Task.vPhys (t : Task) (i : Nat) : VReg := t.regs.v.get 0 i

/-- The physical register of architectural Vn: the rotating window over the first 32 (R280, R281). -/
def Task.vMap (t : Task) (n : Nat) : Nat := if n < 32 then (n + t.csr.vrot.f 4 0) % 32 else n

/-- Whether Vn lies in the task's allocation (R280). -/
def Task.vOk (t : Task) (n : Nat) : Bool := t.vMap n < t.place.vregs

/-- Writes a result's image to its destination (R48): G0 and Q0 discard theirs (R55). -/
def Task.writeDest (t : Task) (d : RDest) (x : VReg) : Task :=
  let w : Word := x.setWidth 64
  match d with
  | .none => t
  | .g n => if n = 0 then t else { t with regs := { t.regs with g := t.regs.g.set 0 n w } }
  | .gPair n =>
    let g := if n = 0 then t.regs.g else t.regs.g.set 0 n w
    { t with regs := { t.regs with g := g.set 0 (n + 1) ((x >>> 64).setWidth 64) } }
  | .q n =>
    if n = 0 then t
    else
      let m : BitVec 16 := 1#16 <<< n
      { t with regs := { t.regs with q := if w.getLsbD 0 then t.regs.q ||| m else t.regs.q &&& ~~~m } }
  | .qAll => { t with regs := { t.regs with q := x.setWidth 16 } }
  | .v n => { t with regs := { t.regs with v := t.regs.v.set 0 n x } }
  | .k n => { t with regs := { t.regs with k := t.regs.k.set 0 n w } }
  | .csr n =>
    let c := t.csr
    let c := match n with
      | 0x021 => { c with taskst := w }
      | 0x028 => { c with frzwd := w }
      | 0x040 => { c with noisectl := w }
      | 0x041 => { c with noisebase := w }
      | 0x042 => { c with noiselen := w }
      | 0x043 => { c with noisepos := w }
      | 0x044 => { c with kenbase := w }
      | 0x045 => { c with kencnt := w }
      | 0x0C0 => { c with vrot := w }
      | 0x200 => { c with leaseev := w }
      | _ => c
    { t with csr := c }
  | .t n => { t with tile := { t.tile with
      t0 := t.tile.t0.set 0 n w, t1 := t.tile.t1.set 0 n ((x >>> 64).setWidth 64), c := t.tile.c.set 0 n 0 } }
  | .e n => { t with tile := { t.tile with e := t.tile.e.set 0 n w } }
  | .ze n => { t with tile := { t.tile with ze := t.tile.ze.set 0 n w } }
  | .d n => { t with tile := { t.tile with d := t.tile.d.set 0 n w } }
  | .pLoad n =>
    let p := t.tile.p.get ⟨[], false, [], false⟩ n
    { t with tile := { t.tile with p := t.tile.p.put n { p with load := toBytes 256 x.toNat, loadOk := true } } }
  | .pSwap n =>
    let p := t.tile.p.get ⟨[], false, [], false⟩ n
    { t with tile := { t.tile with p := t.tile.p.put n ⟨p.load, p.loadOk, p.act, p.actOk⟩ } }
  | .pSwapAll =>
    { t with tile := { t.tile with p := t.tile.p.map fun np => (np.1, ⟨np.2.load, np.2.loadOk, np.2.act, np.2.actOk⟩) } }
  | .jump _ => t

/-- Whether a destination counts as a result in flight (R227): writes to G0 and Q0 do not; VPSW.ALL counts as one (log 67). -/
def RDest.counts : RDest → Bool
  | .g n | .q n => n != 0
  | .none | .jump _ => false
  | _ => true

/-! ### Results in flight (R48, R56) -/

/-- The image of a scalar result (R56). -/
def imgW (w : Word) : VReg := w.setWidth 2048

/-- The image of a pair: the even register's value below the odd one's (R56, R235). -/
def imgPair (lo hi : Word) : VReg := lo.setWidth 2048 ||| (hi.setWidth 2048 <<< 64)

/-- The image of a predicate. -/
def imgB (b : Bool) : VReg := if b then 1 else 0

/-- Deposits a result of latency lam in the latch of the slot that executes (R56). -/
def State.deposit (s : State) (lam : Nat) (x : VReg) : State :=
  let i := s.iss
  { s with iss := { i with
      near := if lam = 1 then i.near.set i.pos x else i.near
      far := if lam ≤ 2 then i.far.set i.pos x else i.far } }

/-- Issues a result of latency lam for a destination: it joins the results in flight, after those issued earlier
(R48). -/
def State.issueTo (s : State) (d : RDest) (lam : Nat) (v : RVal) : State :=
  let t := s.task
  s.setTask { t with inflight := t.inflight ++ [⟨d, v, lam, s.iss.pos, s.iss.pc, false⟩] }

/-- A result with its latch deposit; `sup`: write-back suppressed or the destination discards it (R55). -/
def State.result (s : State) (d : RDest) (sup : Bool) (lam : Nat) (x : VReg) : State :=
  let s := s.deposit lam x
  if sup then s else s.issueTo d lam (.ready x)

/-- A scalar result for a G register. -/
def State.retG (s : State) (d : Dst) (lam : Nat) (w : Word) : State :=
  s.result (.g d.reg.toNat) (d.s || d.reg == 0) lam (imgW w)

/-- A predicate result. -/
def State.retQ (s : State) (d : Dst) (b : Bool) : State :=
  s.result (.q d.reg.toNat) (d.s || d.reg == 0) 1 (imgB b)

/-- A mask result for a K register. -/
def State.retK (s : State) (d : Dst) (w : Word) : State :=
  s.result (.k d.reg.toNat) d.s 1 (imgW w)

/-- A vector result for Vd, at the physical register fixed at issue (R280). -/
def State.retV (s : State) (d : Dst) (lam : Nat) (x : VReg) : State :=
  s.result (.v (s.task.vMap d.reg.toNat)) d.s lam x

/-- Whether a result in flight is a late cause. -/
def Pend.isLate (p : Pend) : Bool := match p.val with | .late _ _ => true | _ => false

/-- Writes the results of a task that become due at the end of a clk, oldest first, and counts the others down (R48).
A result whose reply has not arrived is never due: its core is frozen (R176). A late cause stays until it is taken (R221). -/
def Task.age (t : Task) : Task :=
  let due := t.inflight.filter fun p => p.left ≤ 1 && !p.isLate
  let rest := (t.inflight.filter fun p => 1 < p.left || p.isLate).map fun p => { p with left := Nat.max 1 (p.left - 1) }
  due.foldl (fun t p => match p.val with
    | .ready x => t.writeDest p.dest x
    | _ => t) { t with inflight := rest }

/-- Whether the task's next clk must wait for a reply: a result due in it has not arrived (R176). -/
def Task.late (t : Task) : Bool := t.inflight.any fun p => p.left ≤ 1 && match p.val with | .await _ => true | _ => false

/-- The late cause due before the next bundle: the lowest slot of the oldest bundle (R221). -/
def Task.lateDue (t : Task) : Option Pend := t.inflight.find? fun p => p.left ≤ 1 && p.isLate

/-- Whether a task has returned from a handler whose results are still in flight: the bundle at TRAPPC waits for them (R225). -/
def Task.returning (t : Task) : Bool := t.replay && !t.inflight.isEmpty

/-- Whether a destination is a tile-side register or a pattern, which no shadow entry names (R235): the drain writes it at once
(log 35). -/
def RDest.atDrain : RDest → Bool
  | .t _ | .e _ | .ze _ | .d _ | .pLoad _ | .pSwap _ | .pSwapAll => true
  | _ => false

/-- The shadow entries of the results in flight, their offsets being the clks they still had (R228); the 15 predicates of
QMOV.ALLQ are 15 results. -/
def Task.drained (t : Task) : List Pend :=
  let each (p : Pend) : List Pend := match p.dest, p.val with
    | .qAll, .ready x => (upFrom 1 15).map fun n => { p with dest := .q n, val := .ready ((x >>> n) &&& 1), again := true }
    | _, _ => [{ p with again := true }]
  (t.inflight.filter fun p => !p.dest.atDrain).flatMap each

/-- The task with the results in flight gone from its pipelines, the tile-side ones written. -/
def Task.emptied (t : Task) : Task :=
  (t.inflight.filter fun p => p.dest.atDrain).foldl (fun t p => match p.val with
    | .ready x => t.writeDest p.dest x
    | _ => t) { t with inflight := [] }

/-- Moves every result in flight into the shadow buffer (R228). -/
def Task.drain (t : Task) : Task := { t.emptied with shadow := t.shadow ++ t.drained }

/-- Moves the results in flight of a handler into its own part of the shadow buffer (R229, R233). -/
def Task.drainHandler (t : Task) : Task := { t.emptied with hshadow := t.hshadow ++ t.drained }

/-! ### Errors of a context (R83, R226) -/

/-- Asks every task of a context for a pre-emption in place (R83, R230). -/
def State.preemptCtx (s : State) (n : Nat) : State :=
  { s with tasks := s.tasks.map fun kt =>
      if kt.2.place.ctx = n ∧ kt.2.stat ≠ .free ∧ kt.2.stat ≠ .ending ∧ kt.2.stat ≠ .offcore ∧ kt.2.stat ≠ .held
        ∧ kt.2.pre = none ∧ kt.1 < 1024 * 16
      then (kt.1, { kt.2 with pre := some ⟨true, true, s.cycle.toNat⟩ }) else kt }

/-- The key of a host queue. -/
def queueKey (ctx q : Nat) : Nat := 64 * ctx + q

/-- Ends the graphs of a context that enters ERROR (R216): its queues that are RUNNING or HALTING become HALTED with NODE
1,023; the node store is released, and what its nodes waited for is dropped. -/
def State.haltQueues (s : State) (n cause : Nat) : State :=
  { s with
    queues := s.queues.map fun kq => if kq.1 / 64 = n ∧ (kq.2.stat = .running ∨ kq.2.stat = .halting) then
      (kq.1, { kq.2 with stat := .halted, cause := cause, node := 1023, graph := none, off := false }) else kq
    held := s.held.filter fun h => !(h.ctx == n && match h.unit with | .sched _ _ _ => true | _ => false) }

/-- Discards the collective contexts of a context (R404). -/
def State.dropColls (s : State) (n : Nat) : State :=
  { s with
    colls := s.colls.filter fun kc => kc.2.ctx != n
    held := s.held.filter fun h => !(h.ctx == n && match h.unit with | .coll _ => true | _ => false) }

/-- Context n enters ERROR (R83, R216, R404). -/
def State.enterError (s : State) (n cause : Nat) : State :=
  ((s.setCtxAt n { s.ctxAt n with stat := .error, pending := false, toError := false, cause := cause }).haltQueues n cause).dropColls n

/-- An unrecoverable condition or a module ERROR in context n (R83): the cause is recorded unless one is already, and
the context acts as on STOP, or enters ERROR at once where nothing of it runs. -/
def State.ctxError (s : State) (n cause : Nat) : State :=
  let c := s.ctxAt n
  match c.stat with
  | .active => (s.setCtxAt n { c with stat := .quiescing, pending := true, toError := true, cause := cause }).preemptCtx n
  | .quiescing => if c.toError then s else s.setCtxAt n { c with toError := true, cause := cause }
  | .building | .stopped => s.enterError n cause
  | _ => s

/-- A module ERROR (R458): every context that is not FREE enters ERROR with the cause. -/
def State.moduleError (s : State) (cause : Nat) : State :=
  (upFrom 0 16).foldl (fun s n => s.ctxError n cause)
    { s with modstat := { s.modstat with phase := 5, cause := cause } }

/-- The home core of a group selector (R189). -/
def groupHome (g : Nat) : Nat := bits g 14 10 + 32 * bits g 9 6

/-- Whether a core lies in the group a selector names (R167). -/
def inGroup (g core : Nat) : Bool :=
  let x := core % 32
  let y := core / 32
  bits g 14 10 ≤ x && x < bits g 14 10 + 2 ^ bits g 5 3 && bits g 9 6 ≤ y && y < bits g 9 6 + 2 ^ bits g 2 0

/-- The barriers a task of a kernel belongs to as a member that has not arrived in the current phase (R190, R196). -/
def State.barsOf (s : State) (key kernel : Nat) : List (Nat × Nat) :=
  s.cores.flatMap fun cx => (cx.2.bars.filter fun nb => nb.2.stat = .waiting ∧ nb.2.owner = kernel
      ∧ inGroup nb.2.group (key / 16) = true ∧ ¬ nb.2.members.contains key = true).map fun nb => (cx.1, nb.1)

/-- The TRAPVAL of the barrier causes (R219). -/
def barTval (n group : Nat) : Word := BitVec.ofNat 64 (n + group * 2 ^ 16)

/-- Ends a task's wait with an event (R220, R237): outside a handler it takes the event before anything else, with
TRAPPC at the wait; in a handler the event stays pending and the handler goes on after its wait (R226). -/
def Task.wakeWith (t : Task) (r : Report) : Task :=
  { t with stat := .ready, wait := .none, woke := !t.trap.cause.getLsbD 63, events := t.events ++ [r] }

/-- Delivers an event to a task (R28, R220): one that sleeps outside a handler wakes to take it. -/
def Task.eventTo (t : Task) (r : Report) : Task :=
  if t.stat = .sleeping ∧ t.trap.cause.getLsbD 63 = false then t.wakeWith r else { t with events := t.events ++ [r] }

/-- A break of barrier n of core `home` in WAITING (R193, R196, R197): BROKEN with its REASON; every task that waits is
woken to take 0x123. -/
def State.breakBar (s : State) (home n reason : Nat) : State :=
  let c := s.coreAt home
  let b := c.bars.get .zero n
  if b.stat ≠ .waiting then s
  else
    let s := s.setCoreAt home { c with bars := c.bars.put n { b with stat := .broken, reason := reason, busy := some s.cycle.toNat } }
    { s with tasks := s.tasks.map fun kt => match kt.2.wait with
        | .barrier h m g => if h = home ∧ m = n ∧ g < 2 ^ 16 ∧ kt.2.stat = .sleeping then
            (kt.1, kt.2.wakeWith ⟨0x123, barTval n b.group⟩) else kt
        | _ => kt }

/-- The barriers that wait for a member whose trap puts its context in ERROR break with REASON 1 at the end of the clk, after its
arrivals (R193, R196). -/
def State.breakFor (s : State) (core slot kernel : Nat) : State := { s with barErrs := s.barErrs ++ [(core, slot, kernel)] }

/-- An unrecoverable cause of a task (R226): its issue stops and its context enters ERROR; a barrier that waits for it
breaks with REASON 1 (R196). Of a retriever's thread: it is HALTED, and thread 0 puts the module in ERROR (R390, R458). -/
def State.fatal (s : State) (core slot cause : Nat) : State :=
  let t := s.taskAt core slot
  if 1024 ≤ core then
    let s := s.setTaskAt core slot { t with stat := .held, wait := .none }
    let k := (core - 1024) * 8 + slot
    if slot = 0 then s.moduleError cause
    else { s with rts := s.rts.put k { s.rts.get .zero k with stat := 2, cause := cause } }
  else
  let s := s.breakFor core slot t.place.kernel
  let s := s.setTaskAt core slot { t with stat := .held, wait := .none, pre := none, saving := false }
  s.ctxError t.place.ctx cause

/-! ### Trap entry and return (R218 to R226) -/

/-- The bits of a program counter a trap record keeps (R218). -/
def pcBits (w : Word) : Word := w &&& BitVec.ofNat 64 (maskF 56 4)

/-- Trap entry for a task (R220, R223): the trap CSRs are written, INTRAP is set and the program counter takes
TRAPVEC.ENTRY. kind 0 precise, 1 imprecise, 2 event, 3 TRAPI; pc is TRAPPC, ipc the reporting bundle of a late
cause. -/
def Task.enterTrap (t : Task) (kind : Nat) (isLate : Bool) (cause : Nat) (pc : Word) (mask commit : Nat) (tval ipc : Word) :
    Task :=
  let f : Option Flow := match t.delay with
    | .taken f => if t.pc = pc then some f else none
    | _ => none
  let popsN := match f with | some x => x.pops | none => 0
  { t with
    trap := { t.trap with
      cause := BitVec.ofNat 64 (2 ^ 63 + b2n f.isSome * 2 ^ 62 + kind * 2 ^ 60 + b2n isLate * 2 ^ 59
        + popsN * 2 ^ 56 + t.loops.length * 2 ^ 53 + cause)
      pc := pcBits pc
      tgt := match f with | some x => pcBits x.tgt | none => 0
      slots := BitVec.ofNat 64 (commit * 16 + mask)
      val := tval
      ipc := if isLate then pcBits ipc else 0 }
    pc := pcBits t.trap.vec
    delay := .no
    lpad := match f with
      | some x => x.label.map fun l => (pcBits x.tgt, l)
      | none => t.label.map fun l => (pcBits pc, l)
    label := none
    woke := false }

/-- Whether a handler runs (TRAPCAUSE.INTRAP). -/
def Task.inTrap (t : Task) : Bool := t.trap.cause.getLsbD 63

/-- Whether a handler is installed (TRAPVEC.EN). -/
def Task.hasHandler (t : Task) : Bool := t.trap.vec.getLsbD 63

/-- A precise cause raised by the slot that executes (R220, R222, R223): the slot does not commit; the lowest raising
slot is reported; without a handler, or in one, the cause is unrecoverable (R226). -/
def State.raise (s : State) (cause : Nat) (tval : Word := 0) : State :=
  if s.iss.raised then { s with iss := { s.iss with slotRaised := true } }
  else
    let i := { s.iss with raised := true, slotRaised := true }
    let t := s.task
    if s.iss.inTrap || !t.hasHandler then { s.fatal s.iss.core s.iss.slot cause with iss := i }
    else
      { s.setTask (t.enterTrap 0 false cause s.iss.pc (2 ^ s.iss.pos) s.iss.commit.toNat tval 0) with iss := i }

/-- LEASEEV for an event of lease n (R402): the region through the range pair that binds it, lowest binding first. -/
def State.leaseEv (s : State) (ctx n : Nat) : Word :=
  let b := s.borrowers.get .zero n
  let c := s.ctxAt ctx
  let base := b.src.f 29 8 * 2 ^ 30
  let via (k : Nat) : Option Nat :=
    let w := c.leasebind.get 0 k
    if w.b 63 ∧ w.f 15 0 = n then some (w.f 19 16) else none
  let vbase := match (upFrom 0 64).findSome? via with
    | none => 0
    | some p =>
      let v := c.range.get 0 (2 * p)
      let i := c.range.get 0 (2 * p + 1)
      let l := v.f 11 6
      let lo := i.f 51 12 * 4096 / 2 ^ l * 2 ^ l
      if v.b 63 ∧ 12 ≤ l ∧ l ≤ 52 ∧ (i.b 11 = true ∨ i.f 63 52 = s.part.module) ∧ lo ≤ base ∧ base < lo + 2 ^ l
      then v.f 56 12 * 4096 / 2 ^ l * 2 ^ l + (base - lo) else 0
  BitVec.ofNat 64 (b2n (!b.fall.b 63) * 2 ^ 63 + vbase / 2 ^ 30 % 2 ^ 27 * 2 ^ 30 + b.pages % 128)

/-- What trap entry does to the core (R223): the monopoly count restarts, and the handler's first bundle issues 2 clk after the
last bundle. -/
def State.trapped (s : State) (core : Nat) : State :=
  let c := s.coreAt core
  if 1024 ≤ core then s else s.setCoreAt core { c with mono := 0, pauseTill := c.lastAt + 2 }

/-- What every trap entry does to the task beside its record (R223): the results in flight drain, the latches read zero, the
shadow buffer is kept unreplayed. -/
def Task.afterTrap (t : Task) : Task :=
  { t.drain with latch := .zero, replay := false, entering := false, skip := 0, fetchGot := [], fetchErr := none, atHead := false }

/-- A trap taken before the task's next bundle (R220, R221, R225): a report, an event or a late cause. The results in
flight drain, and the latches read zero without being lost (R223). A woken task's trap names its wait's bundle, with the branch whose
delay bundle that is (R66, R157, R220). -/
def State.takeTrap (s : State) (core slot kind : Nat) (isLate : Bool) (cause : Nat) (tval : Word) (mask : Nat)
    (ipc : Word) : State :=
  let t := s.taskAt core slot
  if !t.hasHandler || (isLate && t.inTrap) then s.fatal core slot cause
  else
    let t : Task := match t.woke, t.waitFlow with
      | true, some (f, ls) => { t with pc := t.waitPc, delay := .taken f, loops := ls }
      | true, none => { t with pc := t.waitPc }
      | _, _ => t
    let pc := t.pc
    let commit := if t.skip != 0 then t.skip.toNat else if t.woke then 14 else 0
    let t := t.enterTrap kind isLate cause pc mask commit tval ipc
    let t := if cause = 0x158 ∨ cause = 0x15A then
        { t with csr := { t.csr with leaseev := s.leaseEv t.place.ctx (tval.f 15 0) } } else t
    (s.setTaskAt core slot t.afterTrap).trapped core

/-- Return from a trap (R225): INTRAP := 0, and the bundle at TRAPPC issues next, without the slots in COMMIT, as the delay bundle
of a branch to TRAPTGT where DELAY is 1; the shadow buffer replays from its issue. A target that still must carry a label keeps it
where TRAPPC or TRAPTGT names it (R68, log 13); the delay bundle of an untaken branch is then an ordinary bundle (R66, log 36). -/
def Task.leaveTrap (t : Task) : Task :=
  let pc := pcBits t.trap.pc
  let tgt := pcBits t.trap.tgt
  let lab (a : Word) : Option Nat := (t.lpad.filter fun x => x.1 == a).map (·.2)
  { t with
    trap := { t.trap with cause := t.trap.cause.setF 63 63 0 }
    pc := pc
    delay := if t.trap.cause.getLsbD 62 then .taken ⟨tgt, t.trap.cause.f 58 56, lab tgt⟩ else .no
    label := if t.trap.cause.getLsbD 62 then none else lab pc
    lpad := none
    skip := BitVec.ofNat 4 (t.trap.slots.f 7 4)
    replay := true }

/-! ### Identifiers and free values -/

/-- The next identifier. -/
def State.freshId (s : State) : Nat × State := (s.nextId, { s with nextId := s.nextId + 1 })

/-- The number of the next free value, and the state with its counter advanced (log 4). -/
def State.freshFree (s : State) : Nat × State := (s.free, { s with free := s.free + 1 })

end Sys2Proof.Machine
end

