-- ==== Sys2Proof/Machine/Inbox.lean ====
section
/-! DEFINITION. The form of a herder's steps, and the messages that wait in a herder (R403, R410, R416). -/

namespace Sys2Proof.Machine

/-! ### Steps (R410 to R413) -/

/-- A step, field by field (R410): `zero` gathers the bits that must be zero in words 0 and 3. -/
structure CStep where
  kind : Nat
  op : Nat
  ty : Nat
  log : Bool
  pmode : Nat
  dim : Nat
  fan : Nat
  neg : Bool
  cuse : Bool
  csel : Nat
  stride : Nat
  off : Nat
  tag : Nat
  a1 : Word
  a2 : Word
  len : Nat
  w3lo : Nat
  aneg : Bool
  amod : Nat
  aoff : Nat
  zero0 : Nat
  zero3 : Nat
deriving DecidableEq, Repr

/-- Reads a step's four words. -/
def cstep (ws : List Word) : CStep :=
  let w := ws.getD 0 0
  let l := ws.getD 3 0
  ⟨w.f 63 60, w.f 59 58, w.f 57 56, w.b 55, w.f 54 53, w.f 52 51, w.f 50 49, w.b 48, w.b 47, w.f 46 45, w.f 44 33, w.f 32 21,
    w.f 20 9, ws.getD 1 0, ws.getD 2 0, l.f 63 32, l.f 31 0, l.b 31, l.f 30 19, l.f 18 7, w.f 8 0, l.f 6 0⟩

/-- Bytes of an element of TYPE. -/
def elemSize (ty : Nat) : Nat := 2 ^ ty

/-- Bytes an element takes in a partial (R417). -/
def wireSize (op ty : Nat) : Nat := if op ≠ 0 then elemSize ty else if ty = 2 then 8 else 4

/-- The step a collective context runs; past the end of its program it finds END (log 30). -/
def Coll.step (k : Coll) : CStep := cstep (k.prog.getD k.pc [])

/-! ### Messages that arrive (R416) -/

/-- The bytes a message moves (R417). -/
def msgLen (m : CollMsg) : Nat := m.bytes.length + m.vals.length * wireSize m.op m.ty

/-- Every contributor of a bucket. -/
def Bucket.all (b : Bucket) : List Nat := b.incl ++ b.excl

/-- Whether a step that runs takes the messages of a key: its round, its tag, its kind. -/
def Coll.wants (k : Coll) (m : CollMsg) : Bool :=
  let x := k.step
  k.stat == .running && k.fin.isNone && m.round == (k.round + 1) % 2 ^ 32 && m.tag == x.tag
    && (match m.kind with
      | 0 => x.kind == 2
      | 1 => x.kind == 4 || x.kind == 5
      | 2 | 3 | 4 => x.kind == 11
      | _ => x.kind == 13)

/-- The collective contexts of a GID. -/
def State.collsOf (s : State) (gid : Nat) : List (Nat × Coll) := s.colls.filter fun kc => kc.2.stat ≠ .free ∧ kc.2.gid = gid

/-- Whether a message must wait at its sender for credit (R416): its step does not run yet, and the herder's 4 MiB have no room for
it. A herder that holds nothing takes any message (log 74). -/
def State.collFull (s : State) (m : CollMsg) : Bool :=
  (s.collsOf m.gid).any fun kc => !kc.2.wants m &&
    (let held := ((s.colls.filter fun x => x.1 % 8 == kc.1 % 8).map fun x => (x.2.inbox.map msgLen).foldl (· + ·) 0).foldl (· + ·) 0
     held != 0 && decide (2 ^ 22 < held + msgLen m))

/-- Whether a partial meets the bucket of the step that runs without lying within it (R416): it is dropped whole, and its sender is not
acknowledged for it (log 74). -/
def State.collDrops (s : State) (m : CollMsg) : Bool :=
  m.kind == 1 && (s.collsOf m.gid).any fun kc =>
    kc.2.wants m && (m.incl ++ m.excl).any kc.2.bucket.all.contains && !(m.incl ++ m.excl).all kc.2.bucket.all.contains

/-- A message for a herder of this module (R416): it waits in the collective context of its GID; one for a context that is
not open is dropped (R404). -/
def State.collDeliver (s : State) (m : CollMsg) : State :=
  { s with colls := s.colls.map fun kc => if kc.2.stat ≠ .free ∧ kc.2.gid = m.gid then
      (kc.1, { kc.2 with inbox := kc.2.inbox ++ [m] }) else kc }

end Sys2Proof.Machine
end

