-- ==== Sys2Proof/Decode.lean ====
section
/-! DEFINITION. The decoder of slots and bundles and the encoder, from the formats of R52, the small fields of R53,
the latch selectors of R54, the opcode maps of R70 to R75 and each instruction's own table. -/

namespace Sys2Proof

/-- What decoding one slot word finds: whether it breaks reason 0 or reason 1 of R60, and the instruction. -/
structure Dec where
  bad0 : Bool
  bad1 : Bool
  ins : Instr
deriving DecidableEq, Repr

/-- One slot word with its lent bits (R49, R51): the fields of format RR are named after R52. -/
structure SlotWord where
  w : Nat
  hdr : Bool
  ext : Nat
deriving DecidableEq, Repr

namespace SlotWord

/-- Bits [hi:lo] of the slot word. -/
def f (x : SlotWord) (hi lo : Nat) : Nat := bits x.w hi lo

/-- The major opcode (R47). -/
def major (x : SlotWord) : Nat := x.f 31 25

/-- The 4-bit minor of formats RR and VR. -/
def minor (x : SlotWord) : Nat := x.f 3 0

/-- The destination of formats RR, RI and VI, with lent bit 0 as bit 6 (R52). -/
def dst (x : SlotWord) : Dst := ⟨.ofNat 7 (x.f 24 19 + 64 * bits x.ext 0 0), bit x.w 18⟩

/-- Source a, with lent bit 1 as bit 6 (R52, R54). -/
def srcA (x : SlotWord) : Src := ⟨.ofNat 7 (x.f 17 12 + 64 * bits x.ext 1 1), bit x.w 11⟩

/-- Source b, with lent bit 2 as bit 6 (R52, R54). -/
def srcB (x : SlotWord) : Src := ⟨.ofNat 7 (x.f 10 5 + 64 * bits x.ext 2 2), bit x.w 4⟩

/-- A register number beyond its file: reason 0 (R53). -/
def bad0Reg (f : File) (r : Nat) (latch : Bool) : Bool :=
  match f with
  | .q => !latch && 16 ≤ r % 64
  | .k => !latch && 8 ≤ r % 64
  | _ => false

/-- A source field that breaks reason 1: a zero field, a lent bit the file does not use, a latch selector's bits
[5:3] or its lent bit, a latch bit on a field that names T or P (R51, R54, R285). -/
def bad1Src (f : File) (s : Src) : Bool :=
  let r := s.reg.toNat
  match f with
  | .zero => s.l || r != 0
  | .pt => s.l || 64 ≤ r
  | .v => s.l && 8 ≤ r
  | _ => (s.l && 8 ≤ r) || 64 ≤ r

/-- A destination field that breaks reason 1. -/
def bad1Dst (f : File) (d : Dst) : Bool :=
  match f with
  | .zero => d.reg != 0
  | .v => false
  | _ => 64 ≤ d.reg.toNat

/-- A slot of format RR: files of d, a and b; the minor bits that lie in named fields; the instruction; and whether
its minor is a value of the named fields that no form lists. The minor rule of R53 decides the reason. -/
def rr (x : SlotWord) (fd fa fb : File) (named : Nat) (i : Instr) (unlisted : Bool := false) : Dec :=
  let m := x.minor
  let outside := m / (named + 1) != 0
  { bad0 := (unlisted && !outside) || bad0Reg fd x.dst.reg.toNat false || bad0Reg fa x.srcA.reg.toNat x.srcA.l
      || bad0Reg fb x.srcB.reg.toNat x.srcB.l
    bad1 := outside || bad1Dst fd x.dst || bad1Src fa x.srcA || bad1Src fb x.srcB || x.ext / 8 != 0
      || (fd == .zero && x.dst.s && i.noSuppress)
    ins := i }

/-- The immediate of format RI: 19 bits with a header, 11 sign-extended without one (R52). -/
def imm19 (x : SlotWord) : BitVec 19 :=
  if x.hdr then .ofNat 19 (x.f 10 0 + 2048 * x.ext) else .ofInt 19 (sext (x.f 10 0) 11)

/-- A slot of format RI; q: field d names a Q register by its low four bits and a condition by the others. -/
def ri (x : SlotWord) (i : Instr) (bad : Bool := false) : Dec :=
  ⟨false, (x.srcA.l && 8 ≤ x.f 17 12) || bad, i⟩

/-- The destination of format RI: all lent bits extend the immediate (R52). -/
def dstI (x : SlotWord) : Dst := ⟨.ofNat 7 (x.f 24 19), bit x.w 18⟩

/-- Source a of format RI. -/
def srcI (x : SlotWord) : Src := ⟨.ofNat 7 (x.f 17 12), bit x.w 11⟩

/-- An undefined opcode: reason 0 (R60). -/
def undef : Dec := ⟨true, false, .nop⟩

/-- A slot without lent bits: any lent bit is reason 1 (R51); `zero` says whether a zero field is non-zero and `bad`
whether a value is undefined. -/
def plain (x : SlotWord) (i : Instr) (zero : Bool := false) (bad : Bool := false) : Dec :=
  ⟨bad, zero || x.ext != 0, i⟩

end SlotWord

/-- NOP, major 0x00 of format N (R69). -/
def decNop (x : SlotWord) : Dec := x.plain .nop (x.f 24 0 != 0)

/-- Majors 0x01-0x26 of slots 0 and 1: scalar ALU and predicates (R70, R241 to R249). -/
def decScalar (x : SlotWord) : Dec :=
  let m := x.minor
  let d := x.dst
  let a := x.srcA
  let b := x.srcB
  match x.major with
  | 0x00 => decNop x
  | 0x01 =>
    x.rr .g .g .g 1 (.add (m % 2 == 1) d a b)
  | 0x03 =>
    x.rr .g .g .g 1 (.sub (m % 2 == 1) d a b)
  | 0x04 =>
    x.rr .g .g .g 1 (.sadd (m % 2 == 1) d a b)
  | 0x05 =>
    x.rr .g .g .g 1 (.ssub (m % 2 == 1) d a b)
  | 0x06 =>
    x.rr .g .g .g 1 (.mul (m % 2 == 1) d a b)
  | 0x07 =>
    x.rr .g .g .g 1 (.mulh (m % 2 == 1) d a b)
  | 0x08 =>
    x.rr .g .g .g 1 (.mulhu (m % 2 == 1) d a b)
  | 0x09 =>
    x.rr .g .g .g 1 (.div (m % 2 == 1) d a b)
  | 0x0A =>
    x.rr .g .g .g 1 (.divu (m % 2 == 1) d a b)
  | 0x0B =>
    x.rr .g .g .g 1 (.rem (m % 2 == 1) d a b)
  | 0x0C =>
    x.rr .g .g .g 1 (.remu (m % 2 == 1) d a b)
  | 0x0D =>
    x.rr .g .g .g 0 (.and d a b)
  | 0x0F =>
    x.rr .g .g .g 0 (.or d a b)
  | 0x11 =>
    x.rr .g .g .g 0 (.xor d a b)
  | 0x13 =>
    x.rr .g .g .g 1 (.shl (m % 2 == 1) d a b)
  | 0x15 =>
    x.rr .g .g .g 1 (.shr (m % 2 == 1) d a b)
  | 0x17 =>
    x.rr .g .g .g 1 (.sra (m % 2 == 1) d a b)
  | 0x19 =>
    x.rr .g .g .g 1 (.min (m % 2 == 1) d a b)
  | 0x1A =>
    x.rr .g .g .g 1 (.max (m % 2 == 1) d a b)
  | 0x1B =>
    x.rr .g .g .g 1 (.minu (m % 2 == 1) d a b)
  | 0x1C =>
    x.rr .g .g .g 1 (.maxu (m % 2 == 1) d a b)
  | 0x1D =>
    x.rr .g .g .zero 1 (.clz (m % 2 == 1) d a)
  | 0x1E =>
    x.rr .g .g .zero 1 (.cls (m % 2 == 1) d a)
  | 0x1F =>
    x.rr .g .g .zero 1 (.popc (m % 2 == 1) d a)
  | 0x20 =>
    if m < 8 && m % 4 < 3 then x.rr .g .g .zero 15 (.sext (m / 4 % 2 == 1) (.ofNat 2 m) d a)
    else x.rr .g .g .zero 15 .nop true
  | 0x22 =>
    if m < 11 then x.rr .q .g .g 15 (.cmp (.ofNat 4 m) d a b)
    else x.rr .q .g .g 15 .nop true
  | 0x24 =>
    if m < 5 then x.rr .q .q .q 15 (.qop (.ofNat 4 m) d a b)
    else x.rr .q .q .q 15 .nop true
  | 0x25 =>
    if m == 0 then x.rr .q .g .zero 15 (.qmovQFromG d a)
    else if m == 1 then x.rr .g .q .zero 15 (.qmovGFromQ d a)
    else if m == 2 then x.rr .g .zero .zero 15 (.qmovAllg d)
    else if m == 3 then x.rr .zero .g .zero 15 (.qmovAllq d.s a)
    else x.rr .q .g .zero 15 .nop true
  | 0x26 =>
    x.rr .g .g .g 15 (.sel d a b (.ofNat 4 m))
  | 0x02 => x.ri (.addi x.dstI x.srcI x.imm19)
  | 0x0E => x.ri (.andi x.dstI x.srcI x.imm19)
  | 0x10 => x.ri (.ori x.dstI x.srcI x.imm19)
  | 0x12 => x.ri (.xori x.dstI x.srcI x.imm19)
  | 0x14 => x.ri (.shli x.dstI x.srcI (.ofNat 6 (x.f 5 0))) (x.f 10 6 != 0 || x.ext != 0)
  | 0x16 => x.ri (.shri x.dstI x.srcI (.ofNat 6 (x.f 5 0))) (x.f 10 6 != 0 || x.ext != 0)
  | 0x18 => x.ri (.srai x.dstI x.srcI (.ofNat 6 (x.f 5 0))) (x.f 10 6 != 0 || x.ext != 0)
  | 0x21 => x.ri (.lui x.hdr x.dstI x.srcI (.ofNat 19 (x.f 10 0 + 2048 * x.ext)))
  | 0x23 => x.ri (.cmpi (.ofNat 2 (x.f 24 23)) ⟨.ofNat 7 (x.f 22 19), bit x.w 18⟩ x.srcI x.imm19)
  | _ => SlotWord.undef

/-- Majors 0x40-0x59 of slot 0: control instructions (R71), of formats B, J, LP and C (R52). -/
def decControl (x : SlotWord) : Dec :=
  let X := x.f 24 19
  let Y := x.f 18 13
  let imm := x.f 12 0
  let rX : BitVec 6 := .ofNat 6 X
  let rY : BitVec 6 := .ofNat 6 Y
  match x.major with
  | 0x40 => x.plain (.br (.ofNat 21 (x.f 20 0))) (x.f 24 21 != 0)
  | 0x41 => x.plain (.brt (.ofNat 4 (x.f 24 21)) (.ofNat 21 (x.f 20 0)))
  | 0x42 => x.plain (.brf (.ofNat 4 (x.f 24 21)) (.ofNat 21 (x.f 20 0)))
  | 0x43 => x.plain (.call (.ofNat 21 (x.f 20 0))) (x.f 24 21 != 0)
  | 0x44 => x.plain (.callt rX rY (.ofNat 8 (x.f 12 5))) (x.f 4 0 != 0)
  | 0x45 => x.plain (.ret rX) (Y != 0 || imm != 0)
  | 0x46 => x.plain (.jmpt rX rY (.ofNat 8 (x.f 12 5))) (x.f 4 0 != 0)
  | 0x47 => x.plain (.lpad (.ofNat 12 imm)) (X != 0 || Y != 0 || 4096 ≤ imm)
  | 0x48 => x.plain (.loop rX (.ofNat 13 imm)) (Y != 0)
  | 0x49 => x.plain (.loopi (.ofNat 12 (x.f 24 13)) (.ofNat 13 imm))
  | 0x4A => x.plain (.lbrk (.ofNat 4 X) (.ofNat 3 imm)) (Y != 0 || 8 ≤ imm) (16 ≤ X || imm % 8 == 0 || imm % 8 == 7)
  | 0x4B => x.plain .yield (x.f 24 0 != 0)
  | 0x4C => x.plain (.waitc rX) (Y != 0 || imm != 0)
  | 0x4D => x.plain (.waite (.ofNat 3 imm) (.ofNat 3 (imm / 8)) rX rY) (64 ≤ imm) (4 ≤ imm % 8 || 5 ≤ imm / 8 % 8)
  | 0x4E =>
    if imm % 4 == 0 then x.plain (.twaitAll rY) (X != 0 || 4 ≤ imm)
    else if imm % 4 == 1 then x.plain (.twait rX rY) (4 ≤ imm)
    else if imm % 4 == 2 then x.plain (.twaitZ (.ofNat 5 X) rY) (4 ≤ imm) (32 ≤ X)
    else SlotWord.undef
  | 0x4F => x.plain .endTask (x.f 24 0 != 0)
  | 0x50 => x.plain (.trapi (.ofNat 6 imm)) (X != 0 || Y != 0 || 64 ≤ imm)
  | 0x51 => x.plain .eret (x.f 24 0 != 0)
  | 0x52 => x.plain (.csrr rX (.ofNat 12 imm)) (Y != 0 || 4096 ≤ imm)
  | 0x53 => x.plain (.csrw rX (.ofNat 12 imm)) (Y != 0 || 4096 ≤ imm)
  | 0x54 => x.plain (.fence (.ofNat 3 imm)) (X != 0 || Y != 0 || 8 ≤ imm) (5 ≤ imm % 8)
  | 0x55 =>
    if imm / 4096 == 0 then x.plain (.launch rX (.ofNat 4 Y)) (imm % 4096 != 0) (16 ≤ Y)
    else x.plain (.launchW rX (.ofNat 4 Y)) (imm % 4096 != 0) (16 ≤ Y)
  | 0x56 => x.plain (.barinit rX rY (.ofNat 9 imm)) (512 ≤ imm)
  | 0x57 => x.plain (.bararr rX rY (.ofNat 9 imm)) (512 ≤ imm)
  | 0x58 =>
    if imm / 512 % 2 == 0 then x.plain (.barwait rX rY (.ofNat 9 imm)) (1024 ≤ imm)
    else x.plain (.barwaitA rX (.ofNat 9 imm)) (1024 ≤ imm || Y != 0)
  | 0x59 => x.plain (.barq rX rY (.ofNat 9 imm)) (512 ≤ imm)
  | _ => SlotWord.undef

/-- The offset of format M: 17 bits with a header, 9 sign-extended without one (R52). -/
def SlotWord.off17 (x : SlotWord) : BitVec 17 :=
  if x.hdr then .ofNat 17 (x.f 8 0 + 512 * x.ext) else .ofInt 17 (sext (x.f 8 0) 9)

/-- A plain load or store, format M: every lent bit extends the offset. -/
def SlotWord.mem (x : SlotWord) (mk : BitVec 6 → BitVec 6 → BitVec 4 → BitVec 17 → Instr) : Dec :=
  ⟨false, false, mk (.ofNat 6 (x.f 24 19)) (.ofNat 6 (x.f 18 13)) (.ofNat 4 (x.f 12 9)) x.off17⟩

/-- An atomic, format A (R53, R274): sizes 2 and 3 and scopes 5 to 7 are undefined; a scope without an order is
reason 1. -/
def SlotWord.atom (x : SlotWord)
    (mk : BitVec 6 → BitVec 6 → BitVec 6 → BitVec 2 → BitVec 3 → Instr) (badSize : Bool) : Dec :=
  x.plain (mk (.ofNat 6 (x.f 24 19)) (.ofNat 6 (x.f 18 13)) (.ofNat 6 (x.f 12 7)) (.ofNat 2 (x.f 6 5)) (.ofNat 3 (x.f 4 2)))
    (x.f 6 5 == 0 && x.f 4 2 != 0) (badSize || 5 ≤ x.f 4 2)

/-- Majors 0x40-0x57 of slot 1: memory, atomic, remote and page instructions (R72). zx = 1 with size 3 is reason 0 in LDH and CHKH as
it is in an ordered load (R53 and R270, log 58). -/
def decMem (x : SlotWord) : Dec :=
  let m := x.minor
  let a := x.srcA
  let b := x.srcB
  let z : BitVec 2 := .ofNat 2 (x.f 3 2)
  let zx := bit x.w 1
  let rd : BitVec 6 := .ofNat 6 (x.f 24 19)
  let rb : BitVec 6 := .ofNat 6 (x.f 18 13)
  let k : BitVec 4 := .ofNat 4 (x.f 12 9)
  let sz : Bool := x.f 1 0 == 1
  match x.major with
  | 0x40 => x.mem .ldb
  | 0x41 => x.mem .lds
  | 0x42 => x.mem .ldw
  | 0x43 => x.mem .ldd
  | 0x44 => x.mem .stb
  | 0x45 => x.mem .sts
  | 0x46 => x.mem .stw
  | 0x47 => x.mem .std
  | 0x48 => x.plain (.ldAcq rd rb k (.ofNat 3 (x.f 6 4)) z zx) (x.f 0 0 != 0)
      (x.f 8 7 != 1 || 5 ≤ x.f 6 4 || (zx && z == 3#2))
  | 0x49 => x.plain (.stRel rd rb k (.ofNat 3 (x.f 6 4)) z) (x.f 0 0 != 0) (x.f 8 7 != 2 || 5 ≤ x.f 6 4 || zx)
  | 0x4A => x.plain (.ldh rd rb k (.ofNat 5 (x.f 8 4)) z zx) (x.f 0 0 != 0) (zx && z == 3#2)
  | 0x4B => x.plain (.chkh rd rb k (.ofNat 5 (x.f 8 4)) z zx) (x.f 0 0 != 0) (zx && z == 3#2)
  | 0x4C => x.atom (fun d b v o s => .aadd d b v o s sz) (2 ≤ x.f 1 0)
  | 0x4D => x.atom (fun d b v o s => .asadd d b v o s sz) (2 ≤ x.f 1 0)
  | 0x4E => x.atom (fun d b v o s => .amin d b v o s sz) (2 ≤ x.f 1 0)
  | 0x4F => x.atom (fun d b v o s => .amax d b v o s sz) (2 ≤ x.f 1 0)
  | 0x50 => x.atom (fun d b v o s => .aand d b v o s sz) (2 ≤ x.f 1 0)
  | 0x51 => x.atom (fun d b v o s => .aor d b v o s sz) (2 ≤ x.f 1 0)
  | 0x52 => x.atom (fun d b v o s => .axchg d b v o s sz) (2 ≤ x.f 1 0)
  | 0x53 => x.atom (fun d b v o s => .acas d b v o s sz) (2 ≤ x.f 1 0)
  | 0x54 => x.atom .acas2 (x.f 1 0 != 1)
  | 0x55 => x.atom .remop (x.f 1 0 != 1)
  | 0x56 =>
    if m == 0 then x.rr .zero .g .g 15 (.pgdisc a b)
    else x.rr .zero .g .g 15 .nop true
  | 0x57 =>
    if m == 0 then x.rr .zero .g .g 15 (.pgpref a b)
    else if m == 1 then x.rr .zero .g .g 15 (.pgprefRec a b)
    else if m == 2 then x.rr .zero .g .g 15 (.pgprefRecw a b)
    else x.rr .zero .g .g 15 .nop true
  | _ => SlotWord.undef

/-- Majors 0x70-0x73 of slot 1 in a retriever's bundle: the packet instructions (R73, R393). -/
def decPacket (x : SlotWord) : Dec :=
  let m := x.minor
  let d := x.dst
  let a := x.srcA
  let b := x.srcB
  match x.major with
  | 0x70 =>
    if m == 0 then x.rr .g .g .zero 15 (.pkget d a)
    else x.rr .g .g .zero 15 .nop true
  | 0x71 =>
    if m == 0 then x.rr .zero .g .g 15 (.pkreply a b)
    else x.rr .zero .g .g 15 .nop true
  | 0x72 =>
    if m == 0 then x.rr .zero .g .g 15 (.pkfwd a b)
    else x.rr .zero .g .g 15 .nop true
  | 0x73 =>
    if m == 0 then x.rr .zero .g .g 15 (.pkdone a b)
    else x.rr .zero .g .g 15 .nop true
  | _ => SlotWord.undef

/-- The offset of format VM: 16 bits with a header, 9 sign-extended without one (R52, R298). -/
def SlotWord.off16 (x : SlotWord) : BitVec 16 :=
  if x.hdr then .ofNat 16 (x.f 8 0 + 512 * (x.ext / 2)) else .ofInt 16 (sext (x.f 8 0) 9)

/-- The V register of format VM (R52). -/
def SlotWord.dVM (x : SlotWord) : BitVec 7 := .ofNat 7 (x.f 24 19 + 64 * bits x.ext 0 0)

/-- Majors 0x00-0x36 of slots 2 and 3: vector instructions (R74, R284 to R313); retr: in a retriever's bundle the
optimiser majors are the lane forms of R391. -/
def decVector (retr : Bool) (x : SlotWord) : Dec :=
  let m := x.minor
  let d := x.dst
  let a := x.srcA
  let b := x.srcB
  let rb : BitVec 6 := .ofNat 6 (x.f 18 13)
  let k : BitVec 4 := .ofNat 4 (x.f 12 9)
  match x.major with
  | 0x00 => decNop x
  | 0x01 =>
    if m < 4 then x.rr .v .v .v 15 (.vadd (.ofNat 2 m) d a b)
    else x.rr .v .v .v 15 .nop true
  | 0x02 =>
    if m < 4 then x.rr .v .v .v 15 (.vsub (.ofNat 2 m) d a b)
    else x.rr .v .v .v 15 .nop true
  | 0x03 =>
    if m < 4 then x.rr .v .v .v 15 (.vsadd (.ofNat 2 m) d a b)
    else x.rr .v .v .v 15 .nop true
  | 0x04 =>
    if m < 4 then x.rr .v .v .v 15 (.vssub (.ofNat 2 m) d a b)
    else x.rr .v .v .v 15 .nop true
  | 0x05 =>
    if m < 4 then x.rr .v .v .v 15 (.vmul (.ofNat 2 m) d a b)
    else x.rr .v .v .v 15 .nop true
  | 0x06 =>
    if m < 4 then x.rr .v .v .v 15 (.vmulh (.ofNat 2 m) d a b)
    else if m / 4 == 1 then x.rr .v .v .v 15 (.vmulhQ (.ofNat 2 m) d a b)
    else x.rr .v .v .v 15 .nop true
  | 0x07 =>
    if m < 4 then x.rr .v .v .v 15 (.vmac (.ofNat 2 m) d a b)
    else x.rr .v .v .v 15 .nop true
  | 0x08 =>
    if m < 4 then x.rr .v .v .v 15 (.vmin (.ofNat 2 m) d a b)
    else x.rr .v .v .v 15 .nop true
  | 0x09 =>
    if m < 4 then x.rr .v .v .v 15 (.vmax (.ofNat 2 m) d a b)
    else x.rr .v .v .v 15 .nop true
  | 0x0A =>
    if m < 4 then x.rr .v .v .zero 15 (.vabs (.ofNat 2 m) d a)
    else x.rr .v .v .zero 15 .nop true
  | 0x0B =>
    if m < 4 then x.rr .v .v .zero 15 (.vneg (.ofNat 2 m) d a)
    else x.rr .v .v .zero 15 .nop true
  | 0x0C =>
    if m < 4 then x.rr .v .v .v 15 (.vand (.ofNat 2 m) d a b)
    else x.rr .v .v .v 15 .nop true
  | 0x0D =>
    if m < 4 then x.rr .v .v .v 15 (.vor (.ofNat 2 m) d a b)
    else x.rr .v .v .v 15 .nop true
  | 0x0E =>
    if m < 4 then x.rr .v .v .v 15 (.vxor (.ofNat 2 m) d a b)
    else x.rr .v .v .v 15 .nop true
  | 0x0F =>
    if m < 4 then x.rr .v .v .v 15 (.vshl (.ofNat 2 m) d a b)
    else if m / 4 == 1 then x.rr .v .v .v 15 (.vshlS (.ofNat 2 m) d a b)
    else x.rr .v .v .v 15 .nop true
  | 0x10 =>
    if m < 4 then x.rr .v .v .v 15 (.vshr (.ofNat 2 m) d a b)
    else x.rr .v .v .v 15 .nop true
  | 0x11 =>
    if m < 4 then x.rr .v .v .v 15 (.vsra (.ofNat 2 m) d a b)
    else x.rr .v .v .v 15 .nop true
  | 0x12 =>
    if m < 8 && m % 4 < 3 then x.rr .v .v .g 15 (.vnshr (.ofNat 2 m) (m / 4 % 2 == 1) d a b)
    else x.rr .v .v .g 15 .nop true
  | 0x13 =>
    x.rr .v .v .v 15 (.vcmp (.ofNat 2 (m / 4)) (.ofNat 2 m) d a b)
  | 0x14 =>
    if m < 4 then x.rr .v .v .v 15 (.vsel (.ofNat 2 m) d a b)
    else x.rr .v .v .v 15 .nop true
  | 0x15 =>
    if m == 0 then x.rr .k .k .k 15 (.vkopAnd d a b)
    else if m == 1 then x.rr .k .k .k 15 (.vkopOr d a b)
    else if m == 2 then x.rr .k .k .k 15 (.vkopXor d a b)
    else if m == 3 then x.rr .k .k .k 15 (.vkopAndn d a b)
    else if m == 4 then x.rr .k .v .zero 15 (.vkopFromv d a)
    else if m == 5 then x.rr .v .k .zero 15 (.vkopTov d a)
    else if m == 6 then x.rr .k .g .zero 15 (.vkopFromg d a)
    else if m == 7 then x.rr .g .k .zero 15 (.vkopTog d a)
    else if m == 8 then x.rr .g .k .zero 15 (.vkopPopc d a)
    else x.rr .k .k .k 15 .nop true
  | 0x16 =>
    x.rr .v .v .g 15 (.vcvt (.ofNat 2 m) (.ofNat 2 (m / 4)) d a b)
  | 0x17 =>
    if m % 4 < 3 then x.rr .v .v .zero 15 (.vwiden (.ofNat 2 m) (m / 4 % 2 == 1) (m / 8 == 1) d a)
    else x.rr .v .v .zero 15 .nop true
  | 0x18 =>
    if m < 3 then x.rr .v .v .v 15 (.vpack (.ofNat 2 m) d a b)
    else x.rr .v .v .v 15 .nop true
  | 0x19 =>
    x.rr .v .v .v 15 (.vunpk (.ofNat 2 (m / 4)) (.ofNat 2 m) d a b)
  | 0x1A =>
    if 0 < m && m < 4 then x.rr .v .v .pt 15 (.vshuf (.ofNat 2 m) d a (.ofNat 6 b.reg.toNat))
    else x.rr .v .v .pt 15 .nop true
  | 0x1B =>
    if m == 0 then x.rr .pt .v .zero 15 (.vpld d a)
    else x.rr .pt .v .zero 15 .nop true
  | 0x1C =>
    if m == 0 then x.rr .pt .zero .zero 15 (.vpsw d)
    else if m == 1 then x.rr .zero .zero .zero 15 (.vpswAll d.s)
    else x.rr .pt .zero .zero 15 .nop true
  | 0x1D =>
    if m < 4 then x.rr .v .v .zero 15 (.vreds (.ofNat 2 m) d a)
    else if m / 4 == 1 then x.rr .v .v .zero 15 (.vredsSq (.ofNat 2 m) d a)
    else x.rr .v .v .zero 15 .nop true
  | 0x1E =>
    if m / 4 == 0 then x.rr .v .v .zero 15 (.vredmMax (.ofNat 2 m) d a)
    else if m / 4 == 1 then x.rr .v .v .zero 15 (.vredmMin (.ofNat 2 m) d a)
    else if m / 4 == 2 then x.rr .v .v .zero 15 (.vredmAmax (.ofNat 2 m) d a)
    else x.rr .v .v .zero 15 .nop true
  | 0x1F =>
    if m / 4 == 0 then x.rr .v .v .zero 15 (.vscan (.ofNat 2 m) d a)
    else if m / 4 == 1 then x.rr .v .v .zero 15 (.vscanEx (.ofNat 2 m) d a)
    else x.rr .v .v .zero 15 .nop true
  | 0x20 =>
    if m < 4 then x.rr .v .g .zero 15 (.vbcast (.ofNat 2 m) d a)
    else if m / 4 == 1 then x.rr .v .v .g 15 (.vbcastV (.ofNat 2 m) d a b)
    else x.rr .v .g .zero 15 .nop true
  | 0x21 =>
    if m < 4 then x.rr .g .v .g 15 (.vextr (.ofNat 2 m) d a b)
    else x.rr .g .v .g 15 .nop true
  | 0x25 =>
    if m < 8 && m % 4 != 0 then x.rr .v .v .g 15 (.vgath (m / 4 % 2 == 1) (.ofNat 2 m) d a b)
    else x.rr .v .v .g 15 .nop true
  | 0x26 =>
    if 0 < m && m < 4 then x.rr .v .v .g 15 (.vscat (.ofNat 2 m) d a b)
    else x.rr .v .v .g 15 .nop true
  | 0x29 =>
    x.rr .v .g .zero 0 (.vldr d a)
  | 0x2A =>
    x.rr .zero .g .v 0 (.vstr d.s a b)
  | 0x2D =>
    if m / 4 == 0 then x.rr .v .v .zero 15 (.vcls (.ofNat 2 m) d a)
    else if m / 4 == 1 then x.rr .v .v .zero 15 (.vclsMin (.ofNat 2 m) d a)
    else x.rr .v .v .zero 15 .nop true
  | 0x2E =>
    if m < 4 then x.rr .v .v .g 15 (.vrnds (.ofNat 2 m) d a b)
    else if m / 4 % 2 == 1 && m % 4 < 3 then x.rr .v .v .g 15 (.vrndsNar (.ofNat 2 m) (m / 8 == 1) d a b)
    else x.rr .v .v .g 15 .nop true
  | 0x2F =>
    if m == 3 then x.rr .v .v .g 15 (.vexp2 d a b)
    else if m == 7 then x.rr .v .v .g 15 (.vexp2Q d a b)
    else x.rr .v .v .g 15 .nop true
  | 0x30 =>
    if m == 3 then x.rr .v .v .g 15 (.vlog2 d a b)
    else x.rr .v .v .g 15 .nop true
  | 0x31 =>
    if m == 3 then x.rr .v .v .zero 15 (.vrcp d a)
    else x.rr .v .v .zero 15 .nop true
  | 0x32 =>
    if m == 3 then x.rr .v .v .zero 15 (.vrsq d a)
    else x.rr .v .v .zero 15 .nop true
  | 0x33 =>
    if m == 3 then x.rr .v .v .v 15 (.vdivq d a b)
    else x.rr .v .v .v 15 .nop true
  | 0x22 => ⟨false, x.ext / 2 != 0, .vmovi (.ofNat 2 (x.f 17 16)) ⟨.ofNat 7 (x.f 24 19 + 64 * bits x.ext 0 0), bit x.w 18⟩
      (.ofNat 16 (x.f 15 0))⟩
  | 0x23 => ⟨false, false, .vld x.dVM rb k x.off16⟩
  | 0x24 => ⟨false, false, .vst x.dVM rb k x.off16⟩
  | 0x27 => ⟨false, k != 0, .vtld x.dVM rb x.off16⟩
  | 0x28 => ⟨false, k != 0, .vtst x.dVM rb x.off16⟩
  | 0x2B =>
    let c := x.f 24 22
    ⟨c == 0 || SlotWord.bad0Reg .k b.reg.toNat b.l,
     m != 0 || bit x.w 21 || SlotWord.bad1Src .v a || (a.l && c != 1) || SlotWord.bad1Src .k b || bits x.ext 0 0 != 0 || x.ext / 8 != 0,
     .vdefer (.ofNat 3 c) (.ofNat 2 (x.f 20 19)) d.s a b⟩
  | 0x2C =>
    let c := x.f 16 14
    ⟨c == 0 || 8 ≤ x.f 10 5,
     m != 0 || bit x.w 17 || a.l || b.l || x.ext / 2 != 0,
     .vdrain (.ofNat 3 c) (.ofNat 2 (x.f 13 12)) d (.ofNat 3 (x.f 10 5))⟩
  | 0x34 =>
    if retr then ⟨false, m != 0 || a.l || SlotWord.bad1Src .g b || x.ext / 8 != 0, .voptmL d a.reg b⟩
    else ⟨false, m != 0 || a.l || SlotWord.bad1Src .g b || x.ext != 0, .voptm d.s (.ofNat 6 (x.f 24 19)) (.ofNat 6 (x.f 17 12)) b⟩
  | 0x35 =>
    if retr then ⟨false, m != 0 || a.l || SlotWord.bad1Src .g b || x.ext / 8 != 0, .voptvL d a.reg b⟩
    else ⟨false, m != 0 || a.l || SlotWord.bad1Src .g b || x.ext != 0, .voptv d.s (.ofNat 6 (x.f 24 19)) (.ofNat 6 (x.f 17 12)) b⟩
  | 0x36 =>
    if retr then ⟨false, m != 0 || a.l || SlotWord.bad1Src .g b || x.ext / 8 != 0, .voptsL d a.reg b⟩
    else ⟨false, m != 0 || a.l || SlotWord.bad1Src .g b || x.ext != 0, .vopts d.s (.ofNat 6 (x.f 24 19)) (.ofNat 6 (x.f 17 12)) b⟩
  | _ => SlotWord.undef

/-- Majors 0x40-0x57 of slot 3: tile, copy and engine instructions of format T (R75, R324, R405). -/
def decTile (x : SlotWord) : Dec :=
  let X := x.f 24 19
  let Y := x.f 18 13
  let Z := x.f 12 7
  let m := x.f 6 0
  let tX : BitVec 6 := .ofNat 6 X
  let tY : BitVec 6 := .ofNat 6 Y
  let tZ : BitVec 6 := .ofNat 6 Z
  let zX : BitVec 5 := .ofNat 5 X
  let zY : BitVec 5 := .ofNat 5 Y
  let n : BitVec 2 := .ofNat 2 m
  match x.major with
  | 0x40 => x.plain (.tdset tX tY) (Z != 0 || m != 0)
  | 0x41 => if m % 2 == 0 then x.plain (.tscl tX tY) (Z != 0 || 2 ≤ m)
    else x.plain (.tsclZ zX tY) (Z != 0 || 2 ≤ m) (32 ≤ X)
  | 0x42 => x.plain (.tcens n tX tY) (Z != 0 || 4 ≤ m) (2 ≤ m % 4 && 32 ≤ Y)
  | 0x43 => x.plain (.tmma zX tY tZ) (m != 0) (32 ≤ X)
  | 0x44 => x.plain (.tmmas zX tY tZ) (m != 0) (32 ≤ X)
  | 0x45 => x.plain (.tmmao zX tY tZ) (m != 0) (32 ≤ X)
  | 0x46 => x.plain (.algld (.ofNat 2 X) tY) (Z != 0 || m != 0) (4 ≤ X)
  | 0x47 => if m / 4 % 2 == 0 then x.plain (.tmmaa zX tY tZ n) (8 ≤ m) (32 ≤ X)
    else x.plain (.tmmaaSw zX tY tZ n) (8 ≤ m) (32 ≤ X)
  | 0x48 => x.plain (.tconj tX tY n) (Z != 0 || 4 ≤ m)
  | 0x49 => x.plain (.tnorm zX tY n) (Z != 0 || 4 ≤ m) (32 ≤ X)
  | 0x4A => if m % 2 == 0 then x.plain (.tacc zX tY) (Z != 0 || 2 ≤ m) (32 ≤ X)
    else x.plain (.taccZ zX zY) (Z != 0 || 2 ≤ m) (32 ≤ X || 32 ≤ Y)
  | 0x4B => x.plain (.tzero zX) (Y != 0 || Z != 0 || m != 0) (32 ≤ X)
  | 0x4C => if m % 2 == 0 then x.plain (.tdrain tX zY) (Z != 0 || 2 ≤ m) (32 ≤ Y)
    else x.plain (.tdrainZ tX zY) (Z != 0 || 2 ≤ m) (32 ≤ Y)
  | 0x4D => if m % 2 == 0 then x.plain (.tresc tX tY tZ) (2 ≤ m)
    else x.plain (.trescZ tX zY tZ) (2 ≤ m) (32 ≤ Y)
  | 0x4E => x.plain (.txps tX tY tZ) (m != 0)
  | 0x4F => x.plain (.tld tX tY tZ) (m != 0)
  | 0x50 => x.plain (.tst tX tY tZ) (m != 0)
  | 0x51 => x.plain (.tstx tX tY tZ) (m != 0)
  | 0x54 => x.plain (.tcpyd tX tY tZ) (m != 0)
  | 0x55 => x.plain (.tmskld tX tY tZ) (m != 0)
  | 0x52 => x.plain (.dset tX tY (.ofNat 3 m)) (Z != 0 || 8 ≤ m)
  | 0x53 => match m % 4 with
    | 0 => x.plain (.tcpyMm tX tY tZ) (4 ≤ m)
    | 1 => x.plain (.tcpyTm tX tY tZ) (4 ≤ m)
    | 2 => x.plain (.tcpyMt tX tY tZ) (4 ≤ m)
    | _ => x.plain (.tcpyTt tX tY tZ) (4 ≤ m)
  | 0x56 => x.plain (.noise tX n) (Y != 0 || Z != 0 || 4 ≤ m)
  | 0x57 => match m % 8 with
    | 0 => x.plain (.collOpen tX tY) (Z != 0 || 8 ≤ m)
    | 1 => x.plain (.collRun tX tY) (Z != 0 || 8 ≤ m)
    | 2 => x.plain (.collShrink tX tY) (Z != 0 || 8 ≤ m)
    | 3 => x.plain (.collJoin tX tY) (Z != 0 || 8 ≤ m)
    | 4 => x.plain (.collCatch tX tY) (Z != 0 || 8 ≤ m)
    | 5 => x.plain (.collClose tX tY) (Z != 0 || 8 ≤ m)
    | _ => ⟨true, Z != 0 || 8 ≤ m || x.ext != 0, .nop⟩
  | _ => SlotWord.undef

/-- The majors a retriever's bundle defines in each slot position (R386); NOP stands in every position (R69). -/
def retrDefines (pos mj : Nat) : Bool :=
  match pos with
  | 0 => mj ≤ 0x26 || (0x40 ≤ mj && mj ≤ 0x4B) || mj == 0x4D || (0x4F ≤ mj && mj ≤ 0x54)
  | 1 => mj ≤ 0x26 || (0x40 ≤ mj && mj ≤ 0x54) || (0x70 ≤ mj && mj ≤ 0x73)
  | _ => mj ≤ 0x26 || (0x2D ≤ mj && mj ≤ 0x36)

/-- Decodes one slot by its position's map (R47, R70 to R75); retr: in a retriever's bundle (R73, R386). -/
def decodeDec (retr : Bool) (pos : Nat) (x : SlotWord) : Dec :=
  if retr && !retrDefines pos x.major then SlotWord.undef
  else match pos with
  | 0 => if x.major < 0x40 then decScalar x else decControl x
  | 1 => if x.major < 0x40 then decScalar x
         else if x.major < 0x70 then decMem x
         else if retr then decPacket x else SlotWord.undef
  | 2 => decVector retr x
  | _ => if x.major < 0x40 then decVector retr x else decTile x

/-- The instruction of one slot word, or the reason code of R60 it breaks, the lowest first (R63). -/
def decodeSlot (retr : Bool) (pos : Nat) (hdr : Bool) (ext : Nat) (w : BitVec 32) : Except Nat Instr :=
  let r := decodeDec retr pos ⟨w.toNat, hdr, if hdr then ext else 0⟩
  if r.bad0 then .error 0 else if r.bad1 then .error 1 else .ok r.ins

/-- Whether a slot-0 word is a header (R49). -/
def isHeader (w : BitVec 32) : Bool := bits w.toNat 31 28 == 15

/-- The positions tried for a word that stands alone: a core's slots 0 to 3, then a retriever's (log 7). -/
def tablePlaces : List (Bool × Nat) :=
  [(false, 0), (false, 1), (false, 2), (false, 3), (true, 1), (true, 2), (true, 3)]

/-- The first position at which a lone word decodes. -/
def placeOfWord (w : BitVec 32) : List (Bool × Nat) → Option (Bool × Nat × Instr)
  | [] => none
  | (retr, pos) :: rest =>
    match decodeSlot retr pos false 0 w with
    | .ok i => some (retr, pos, i)
    | .error _ => placeOfWord w rest

/-- The instruction the decoder reads from a lone 32-bit slot word without lent bits: the word at the first position
whose map gives it a meaning (log 7). -/
def decodeTableWord (nbits w : Nat) : Option Instr :=
  if 32 < nbits then none else (placeOfWord (.ofNat 32 w) tablePlaces).map fun r => r.2.2

/-! ### The encoder -/

/-- A word of format RR from its fields (R52). -/
def wRR (op : Nat) (d : Dst) (a b : Src) (minor : Nat) : BitVec 32 :=
  .ofNat 32 (op * 2 ^ 25 + d.reg.toNat % 64 * 2 ^ 19 + b2n d.s * 2 ^ 18 + a.reg.toNat % 64 * 2 ^ 12 + b2n a.l * 2 ^ 11
    + b.reg.toNat % 64 * 2 ^ 5 + b2n b.l * 2 ^ 4 + minor)

/-- The lent bits of a word of format RR (R52). -/
def xRR (d : Dst) (a b : Src) : Nat := d.reg.toNat / 64 + 2 * (a.reg.toNat / 64) + 4 * (b.reg.toNat / 64)

/-- A word of format RI (R52). -/
def wRI (op : Nat) (d : Dst) (a : Src) (imm : BitVec 19) : BitVec 32 :=
  .ofNat 32 (op * 2 ^ 25 + d.reg.toNat % 64 * 2 ^ 19 + b2n d.s * 2 ^ 18 + a.reg.toNat % 64 * 2 ^ 12 + b2n a.l * 2 ^ 11
    + imm.toNat % 2048)

/-- The lent bits of a word of format RI: the immediate's bits [18:11]. -/
def xRI (imm : BitVec 19) : Nat := imm.toNat / 2048

/-- A word of format VI, VMOVI (R52, R297). -/
def wVI (d : Dst) (imm : Nat) : BitVec 32 :=
  .ofNat 32 (0x22 * 2 ^ 25 + d.reg.toNat % 64 * 2 ^ 19 + b2n d.s * 2 ^ 18 + imm)

/-- A word of format B. -/
def wB (op q : Nat) (disp : BitVec 21) : BitVec 32 := .ofNat 32 (op * 2 ^ 25 + q * 2 ^ 21 + disp.toNat)

/-- A word of format C, J or LP from its three fields. -/
def wC (op x y imm : Nat) : BitVec 32 := .ofNat 32 (op * 2 ^ 25 + x * 2 ^ 19 + y * 2 ^ 13 + imm)

/-- A word of format M. -/
def wM (op : Nat) (d b : BitVec 6) (k : BitVec 4) (off : BitVec 17) : BitVec 32 :=
  .ofNat 32 (op * 2 ^ 25 + d.toNat * 2 ^ 19 + b.toNat * 2 ^ 13 + k.toNat * 2 ^ 9 + off.toNat % 512)

/-- The lent bits of a word of format M. -/
def xM (off : BitVec 17) : Nat := off.toNat / 512

/-- A word of format VM. -/
def wVM (op : Nat) (d : BitVec 7) (b : BitVec 6) (k : BitVec 4) (off : BitVec 16) : BitVec 32 :=
  .ofNat 32 (op * 2 ^ 25 + d.toNat % 64 * 2 ^ 19 + b.toNat * 2 ^ 13 + k.toNat * 2 ^ 9 + off.toNat % 512)

/-- The lent bits of a word of format VM. -/
def xVM (d : BitVec 7) (off : BitVec 16) : Nat := d.toNat / 64 + 2 * (off.toNat / 512)

/-- A word of format MO or MH; low holds the bits below the class field. -/
def wMO (op : Nat) (d b : BitVec 6) (k : BitVec 4) (low : Nat) : BitVec 32 :=
  .ofNat 32 (op * 2 ^ 25 + d.toNat * 2 ^ 19 + b.toNat * 2 ^ 13 + k.toNat * 2 ^ 9 + low)

/-- A word of format A. -/
def wA (op : Nat) (d b v : BitVec 6) (o : BitVec 2) (sc : BitVec 3) (z : Nat) : BitVec 32 :=
  .ofNat 32 (op * 2 ^ 25 + d.toNat * 2 ^ 19 + b.toNat * 2 ^ 13 + v.toNat * 2 ^ 7 + o.toNat * 2 ^ 5 + sc.toNat * 2 ^ 2 + z)

/-- A word of format T. -/
def wT (op x y z minor : Nat) : BitVec 32 := .ofNat 32 (op * 2 ^ 25 + x * 2 ^ 19 + y * 2 ^ 13 + z * 2 ^ 7 + minor)

/-- Where and how a slot operation is encoded: in a retriever's bundle or a core's, the slot position, whether a
header lends bits, the lent bits and the word. -/
structure Enc where
  retr : Bool
  pos : Nat
  hdr : Bool
  ext : Nat
  word : BitVec 32
deriving DecidableEq, Repr

/-- A scalar operation, put into slot 1 so that a header may stand in slot 0. -/
def encScalar (w : BitVec 32) (ext : Nat) : Option Enc := some ⟨false, 1, true, ext, w⟩
/-- A control operation, slot 0, which never has a header. -/
def encControl (w : BitVec 32) : Option Enc := some ⟨false, 0, false, 0, w⟩
/-- A vector operation, slot 2. -/
def encVector (w : BitVec 32) (ext : Nat) : Option Enc := some ⟨false, 2, true, ext, w⟩
/-- A retriever's vector operation, slot 2. -/
def encRetrVector (w : BitVec 32) (ext : Nat) : Option Enc := some ⟨true, 2, true, ext, w⟩
/-- A retriever's packet operation, slot 1. -/
def encPacket (w : BitVec 32) : Option Enc := some ⟨true, 1, true, 0, w⟩
/-- A tile operation, slot 3. -/
def encTile (w : BitVec 32) : Option Enc := some ⟨false, 3, true, 0, w⟩

/-- The encoding of a slot operation; none for an event, which has none. LUI without a header takes its 11-bit
immediate, so it is encoded without one. -/
def encode : Instr → Option Enc
  | .nop => encScalar (0#32) (0)
  | .add w d a b => encScalar (wRR 0x01 d a b (b2n w)) (xRR d a b)
  | .addi d a imm => encScalar (wRI 0x02 d a imm) (xRI imm)
  | .sub w d a b => encScalar (wRR 0x03 d a b (b2n w)) (xRR d a b)
  | .sadd w d a b => encScalar (wRR 0x04 d a b (b2n w)) (xRR d a b)
  | .ssub w d a b => encScalar (wRR 0x05 d a b (b2n w)) (xRR d a b)
  | .mul w d a b => encScalar (wRR 0x06 d a b (b2n w)) (xRR d a b)
  | .mulh w d a b => encScalar (wRR 0x07 d a b (b2n w)) (xRR d a b)
  | .mulhu w d a b => encScalar (wRR 0x08 d a b (b2n w)) (xRR d a b)
  | .div w d a b => encScalar (wRR 0x09 d a b (b2n w)) (xRR d a b)
  | .divu w d a b => encScalar (wRR 0x0A d a b (b2n w)) (xRR d a b)
  | .rem w d a b => encScalar (wRR 0x0B d a b (b2n w)) (xRR d a b)
  | .remu w d a b => encScalar (wRR 0x0C d a b (b2n w)) (xRR d a b)
  | .and d a b => encScalar (wRR 0x0D d a b (0)) (xRR d a b)
  | .andi d a imm => encScalar (wRI 0x0E d a imm) (xRI imm)
  | .or d a b => encScalar (wRR 0x0F d a b (0)) (xRR d a b)
  | .ori d a imm => encScalar (wRI 0x10 d a imm) (xRI imm)
  | .xor d a b => encScalar (wRR 0x11 d a b (0)) (xRR d a b)
  | .xori d a imm => encScalar (wRI 0x12 d a imm) (xRI imm)
  | .shl w d a b => encScalar (wRR 0x13 d a b (b2n w)) (xRR d a b)
  | .shli d a amt => encScalar (wRI 0x14 d a (amt.setWidth 19)) (0)
  | .shr w d a b => encScalar (wRR 0x15 d a b (b2n w)) (xRR d a b)
  | .shri d a amt => encScalar (wRI 0x16 d a (amt.setWidth 19)) (0)
  | .sra w d a b => encScalar (wRR 0x17 d a b (b2n w)) (xRR d a b)
  | .srai d a amt => encScalar (wRI 0x18 d a (amt.setWidth 19)) (0)
  | .min w d a b => encScalar (wRR 0x19 d a b (b2n w)) (xRR d a b)
  | .max w d a b => encScalar (wRR 0x1A d a b (b2n w)) (xRR d a b)
  | .minu w d a b => encScalar (wRR 0x1B d a b (b2n w)) (xRR d a b)
  | .maxu w d a b => encScalar (wRR 0x1C d a b (b2n w)) (xRR d a b)
  | .clz w d a => encScalar (wRR 0x1D d a ⟨0#7, false⟩ (b2n w)) (xRR d a ⟨0#7, false⟩)
  | .cls w d a => encScalar (wRR 0x1E d a ⟨0#7, false⟩ (b2n w)) (xRR d a ⟨0#7, false⟩)
  | .popc w d a => encScalar (wRR 0x1F d a ⟨0#7, false⟩ (b2n w)) (xRR d a ⟨0#7, false⟩)
  | .sext u n d a => encScalar (wRR 0x20 d a ⟨0#7, false⟩ (n.toNat + 4 * b2n u)) (xRR d a ⟨0#7, false⟩)
  | .lui wide d a imm => some ⟨false, 1, wide, if wide then xRI imm else 0, wRI 0x21 d a imm⟩
  | .cmp c d a b => encScalar (wRR 0x22 d a b (c.toNat)) (xRR d a b)
  | .cmpi c d a imm => encScalar (wRI 0x23 ⟨.ofNat 7 (d.reg.toNat + 16 * c.toNat), d.s⟩ a imm) (xRI imm)
  | .qop o d a b => encScalar (wRR 0x24 d a b (o.toNat)) (xRR d a b)
  | .qmovQFromG d a => encScalar (wRR 0x25 d a ⟨0#7, false⟩ (0)) (xRR d a ⟨0#7, false⟩)
  | .qmovGFromQ d a => encScalar (wRR 0x25 d a ⟨0#7, false⟩ (1)) (xRR d a ⟨0#7, false⟩)
  | .qmovAllg d => encScalar (wRR 0x25 d ⟨0#7, false⟩ ⟨0#7, false⟩ (2)) (xRR d ⟨0#7, false⟩ ⟨0#7, false⟩)
  | .qmovAllq s a => encScalar (wRR 0x25 ⟨0#7, s⟩ a ⟨0#7, false⟩ (3)) (xRR ⟨0#7, s⟩ a ⟨0#7, false⟩)
  | .sel d a b c => encScalar (wRR 0x26 d a b (c.toNat)) (xRR d a b)
  | .br disp => encControl (wB 0x40 0 disp)
  | .brt q disp => encControl (wB 0x41 q.toNat disp)
  | .brf q disp => encControl (wB 0x42 q.toNat disp)
  | .call disp => encControl (wB 0x43 0 disp)
  | .callt i t c => encControl (wC 0x44 i.toNat t.toNat (c.toNat * 32))
  | .ret x => encControl (wC 0x45 x.toNat 0 0)
  | .jmpt i t c => encControl (wC 0x46 i.toNat t.toNat (c.toNat * 32))
  | .lpad label => encControl (wC 0x47 0 0 label.toNat)
  | .loop x len => encControl (wC 0x48 x.toNat 0 len.toNat)
  | .loopi c len => encControl (wC 0x49 (c.toNat / 64) (c.toNat % 64) len.toNat)
  | .lbrk q n => encControl (wC 0x4A q.toNat 0 n.toNat)
  | .yield => encControl (wC 0x4B 0 0 0)
  | .waitc a => encControl (wC 0x4C a.toNat 0 0)
  | .waite t sc a b => encControl (wC 0x4D a.toNat b.toNat (t.toNat + 8 * sc.toNat))
  | .twaitAll y => encControl (wC 0x4E 0 y.toNat 0)
  | .twait x y => encControl (wC 0x4E x.toNat y.toNat 1)
  | .twaitZ x y => encControl (wC 0x4E x.toNat y.toNat 2)
  | .endTask => encControl (wC 0x4F 0 0 0)
  | .trapi i => encControl (wC 0x50 0 0 i.toNat)
  | .eret => encControl (wC 0x51 0 0 0)
  | .csrr d c => encControl (wC 0x52 d.toNat 0 c.toNat)
  | .csrw a c => encControl (wC 0x53 a.toNat 0 c.toNat)
  | .fence sc => encControl (wC 0x54 0 0 sc.toNat)
  | .launch a d => encControl (wC 0x55 a.toNat d.toNat 0)
  | .launchW a d => encControl (wC 0x55 a.toNat d.toNat 4096)
  | .barinit a b n => encControl (wC 0x56 a.toNat b.toNat n.toNat)
  | .bararr a d n => encControl (wC 0x57 a.toNat d.toNat n.toNat)
  | .barwait a b n => encControl (wC 0x58 a.toNat b.toNat n.toNat)
  | .barwaitA a n => encControl (wC 0x58 a.toNat 0 (512 + n.toNat))
  | .barq a d n => encControl (wC 0x59 a.toNat d.toNat n.toNat)
  | .ldb d b k off => encScalar (wM 0x40 d b k off) (xM off)
  | .lds d b k off => encScalar (wM 0x41 d b k off) (xM off)
  | .ldw d b k off => encScalar (wM 0x42 d b k off) (xM off)
  | .ldd d b k off => encScalar (wM 0x43 d b k off) (xM off)
  | .stb d b k off => encScalar (wM 0x44 d b k off) (xM off)
  | .sts d b k off => encScalar (wM 0x45 d b k off) (xM off)
  | .stw d b k off => encScalar (wM 0x46 d b k off) (xM off)
  | .std d b k off => encScalar (wM 0x47 d b k off) (xM off)
  | .ldAcq d b k sc z zx => encScalar (wMO 0x48 d b k (128 + sc.toNat * 16 + z.toNat * 4 + b2n zx * 2)) (0)
  | .stRel d b k sc z => encScalar (wMO 0x49 d b k (256 + sc.toNat * 16 + z.toNat * 4)) (0)
  | .ldh d b k e z zx => encScalar (wMO 0x4A d b k (e.toNat * 16 + z.toNat * 4 + b2n zx * 2)) (0)
  | .chkh d b k e z zx => encScalar (wMO 0x4B d b k (e.toNat * 16 + z.toNat * 4 + b2n zx * 2)) (0)
  | .aadd d b v o sc z => encScalar (wA 0x4C d b v o sc (b2n z)) (0)
  | .asadd d b v o sc z => encScalar (wA 0x4D d b v o sc (b2n z)) (0)
  | .amin d b v o sc z => encScalar (wA 0x4E d b v o sc (b2n z)) (0)
  | .amax d b v o sc z => encScalar (wA 0x4F d b v o sc (b2n z)) (0)
  | .aand d b v o sc z => encScalar (wA 0x50 d b v o sc (b2n z)) (0)
  | .aor d b v o sc z => encScalar (wA 0x51 d b v o sc (b2n z)) (0)
  | .axchg d b v o sc z => encScalar (wA 0x52 d b v o sc (b2n z)) (0)
  | .acas d b v o sc z => encScalar (wA 0x53 d b v o sc (b2n z)) (0)
  | .acas2 d b v o sc => encScalar (wA 0x54 d b v o sc 1) (0)
  | .remop d b v o sc => encScalar (wA 0x55 d b v o sc 1) (0)
  | .pgdisc a b => encScalar (wRR 0x56 ⟨0#7, false⟩ a b (0)) (xRR ⟨0#7, false⟩ a b)
  | .pgpref a b => encScalar (wRR 0x57 ⟨0#7, false⟩ a b (0)) (xRR ⟨0#7, false⟩ a b)
  | .pgprefRec a b => encScalar (wRR 0x57 ⟨0#7, false⟩ a b (1)) (xRR ⟨0#7, false⟩ a b)
  | .pgprefRecw a b => encScalar (wRR 0x57 ⟨0#7, false⟩ a b (2)) (xRR ⟨0#7, false⟩ a b)
  | .pkget d a => encPacket (wRR 0x70 d a ⟨0#7, false⟩ (0))
  | .pkreply a b => encPacket (wRR 0x71 ⟨0#7, false⟩ a b (0))
  | .pkfwd a b => encPacket (wRR 0x72 ⟨0#7, false⟩ a b (0))
  | .pkdone a b => encPacket (wRR 0x73 ⟨0#7, false⟩ a b (0))
  | .vadd t d a b => encVector (wRR 0x01 d a b (t.toNat)) (xRR d a b)
  | .vsub t d a b => encVector (wRR 0x02 d a b (t.toNat)) (xRR d a b)
  | .vsadd t d a b => encVector (wRR 0x03 d a b (t.toNat)) (xRR d a b)
  | .vssub t d a b => encVector (wRR 0x04 d a b (t.toNat)) (xRR d a b)
  | .vmul t d a b => encVector (wRR 0x05 d a b (t.toNat)) (xRR d a b)
  | .vmulh t d a b => encVector (wRR 0x06 d a b (t.toNat)) (xRR d a b)
  | .vmulhQ t d a b => encVector (wRR 0x06 d a b (4 + t.toNat)) (xRR d a b)
  | .vmac t d a b => encVector (wRR 0x07 d a b (t.toNat)) (xRR d a b)
  | .vmin t d a b => encVector (wRR 0x08 d a b (t.toNat)) (xRR d a b)
  | .vmax t d a b => encVector (wRR 0x09 d a b (t.toNat)) (xRR d a b)
  | .vabs t d a => encVector (wRR 0x0A d a ⟨0#7, false⟩ (t.toNat)) (xRR d a ⟨0#7, false⟩)
  | .vneg t d a => encVector (wRR 0x0B d a ⟨0#7, false⟩ (t.toNat)) (xRR d a ⟨0#7, false⟩)
  | .vand t d a b => encVector (wRR 0x0C d a b (t.toNat)) (xRR d a b)
  | .vor t d a b => encVector (wRR 0x0D d a b (t.toNat)) (xRR d a b)
  | .vxor t d a b => encVector (wRR 0x0E d a b (t.toNat)) (xRR d a b)
  | .vshl t d a b => encVector (wRR 0x0F d a b (t.toNat)) (xRR d a b)
  | .vshlS t d a b => encVector (wRR 0x0F d a b (4 + t.toNat)) (xRR d a b)
  | .vshr t d a b => encVector (wRR 0x10 d a b (t.toNat)) (xRR d a b)
  | .vsra t d a b => encVector (wRR 0x11 d a b (t.toNat)) (xRR d a b)
  | .vnshr t h d a b => encVector (wRR 0x12 d a b (t.toNat + 4 * b2n h)) (xRR d a b)
  | .vcmp c t d a b => encVector (wRR 0x13 d a b (t.toNat + 4 * c.toNat)) (xRR d a b)
  | .vsel t d a b => encVector (wRR 0x14 d a b (t.toNat)) (xRR d a b)
  | .vkopAnd d a b => encVector (wRR 0x15 d a b (0)) (xRR d a b)
  | .vkopOr d a b => encVector (wRR 0x15 d a b (1)) (xRR d a b)
  | .vkopXor d a b => encVector (wRR 0x15 d a b (2)) (xRR d a b)
  | .vkopAndn d a b => encVector (wRR 0x15 d a b (3)) (xRR d a b)
  | .vkopFromv d a => encVector (wRR 0x15 d a ⟨0#7, false⟩ (4)) (xRR d a ⟨0#7, false⟩)
  | .vkopTov d a => encVector (wRR 0x15 d a ⟨0#7, false⟩ (5)) (xRR d a ⟨0#7, false⟩)
  | .vkopFromg d a => encVector (wRR 0x15 d a ⟨0#7, false⟩ (6)) (xRR d a ⟨0#7, false⟩)
  | .vkopTog d a => encVector (wRR 0x15 d a ⟨0#7, false⟩ (7)) (xRR d a ⟨0#7, false⟩)
  | .vkopPopc d a => encVector (wRR 0x15 d a ⟨0#7, false⟩ (8)) (xRR d a ⟨0#7, false⟩)
  | .vcvt t q d a b => encVector (wRR 0x16 d a b (t.toNat + 4 * q.toNat)) (xRR d a b)
  | .vwiden t h u d a => encVector (wRR 0x17 d a ⟨0#7, false⟩ (t.toNat + 4 * b2n h + 8 * b2n u)) (xRR d a ⟨0#7, false⟩)
  | .vpack t d a b => encVector (wRR 0x18 d a b (t.toNat)) (xRR d a b)
  | .vunpk f t d a b => encVector (wRR 0x19 d a b (t.toNat + 4 * f.toNat)) (xRR d a b)
  | .vshuf t d a b => encVector (wRR 0x1A d a ⟨b.setWidth 7, false⟩ (t.toNat)) (xRR d a ⟨b.setWidth 7, false⟩)
  | .vpld d a => encVector (wRR 0x1B d a ⟨0#7, false⟩ (0)) (xRR d a ⟨0#7, false⟩)
  | .vpsw d => encVector (wRR 0x1C d ⟨0#7, false⟩ ⟨0#7, false⟩ (0)) (xRR d ⟨0#7, false⟩ ⟨0#7, false⟩)
  | .vpswAll s => encVector (wRR 0x1C ⟨0#7, s⟩ ⟨0#7, false⟩ ⟨0#7, false⟩ (1)) (xRR ⟨0#7, s⟩ ⟨0#7, false⟩ ⟨0#7, false⟩)
  | .vreds t d a => encVector (wRR 0x1D d a ⟨0#7, false⟩ (t.toNat)) (xRR d a ⟨0#7, false⟩)
  | .vredsSq t d a => encVector (wRR 0x1D d a ⟨0#7, false⟩ (4 + t.toNat)) (xRR d a ⟨0#7, false⟩)
  | .vredmMax t d a => encVector (wRR 0x1E d a ⟨0#7, false⟩ (0 + t.toNat)) (xRR d a ⟨0#7, false⟩)
  | .vredmMin t d a => encVector (wRR 0x1E d a ⟨0#7, false⟩ (4 + t.toNat)) (xRR d a ⟨0#7, false⟩)
  | .vredmAmax t d a => encVector (wRR 0x1E d a ⟨0#7, false⟩ (8 + t.toNat)) (xRR d a ⟨0#7, false⟩)
  | .vscan t d a => encVector (wRR 0x1F d a ⟨0#7, false⟩ (0 + t.toNat)) (xRR d a ⟨0#7, false⟩)
  | .vscanEx t d a => encVector (wRR 0x1F d a ⟨0#7, false⟩ (4 + t.toNat)) (xRR d a ⟨0#7, false⟩)
  | .vbcast t d a => encVector (wRR 0x20 d a ⟨0#7, false⟩ (t.toNat)) (xRR d a ⟨0#7, false⟩)
  | .vbcastV t d a b => encVector (wRR 0x20 d a b (4 + t.toNat)) (xRR d a b)
  | .vextr t d a b => encVector (wRR 0x21 d a b (t.toNat)) (xRR d a b)
  | .vmovi t d c => encVector (wVI d (t.toNat * 65536 + c.toNat)) ((d.reg.toNat / 64))
  | .vld d b k off => encVector (wVM 0x23 d b k off) (xVM d off)
  | .vst d b k off => encVector (wVM 0x24 d b k off) (xVM d off)
  | .vgath u t d a b => encVector (wRR 0x25 d a b (t.toNat + 4 * b2n u)) (xRR d a b)
  | .vscat t d a b => encVector (wRR 0x26 d a b (t.toNat)) (xRR d a b)
  | .vtld d b off => encVector (wVM 0x27 d b 0#4 off) (xVM d off)
  | .vtst d b off => encVector (wVM 0x28 d b 0#4 off) (xVM d off)
  | .vldr d a => encVector (wRR 0x29 d a ⟨0#7, false⟩ (0)) (xRR d a ⟨0#7, false⟩)
  | .vstr s a b => encVector (wRR 0x2A ⟨0#7, s⟩ a b (0)) (xRR ⟨0#7, s⟩ a b)
  | .vdefer c q s a b => encVector (wRR 0x2B ⟨.ofNat 7 (q.toNat + 8 * c.toNat), s⟩ a b 0) (xRR ⟨0#7, s⟩ a b)
  | .vdrain c q d k => encVector (wRR 0x2C d ⟨.ofNat 7 (q.toNat + 4 * c.toNat), false⟩ ⟨k.setWidth 7, false⟩ 0) ((d.reg.toNat / 64))
  | .vcls t d a => encVector (wRR 0x2D d a ⟨0#7, false⟩ (0 + t.toNat)) (xRR d a ⟨0#7, false⟩)
  | .vclsMin t d a => encVector (wRR 0x2D d a ⟨0#7, false⟩ (4 + t.toNat)) (xRR d a ⟨0#7, false⟩)
  | .vrnds t d a b => encVector (wRR 0x2E d a b (t.toNat)) (xRR d a b)
  | .vrndsNar t h d a b => encVector (wRR 0x2E d a b (t.toNat + 4 + 8 * b2n h)) (xRR d a b)
  | .vexp2 d a b => encVector (wRR 0x2F d a b (3)) (xRR d a b)
  | .vexp2Q d a b => encVector (wRR 0x2F d a b (7)) (xRR d a b)
  | .vlog2 d a b => encVector (wRR 0x30 d a b (3)) (xRR d a b)
  | .vrcp d a => encVector (wRR 0x31 d a ⟨0#7, false⟩ (3)) (xRR d a ⟨0#7, false⟩)
  | .vrsq d a => encVector (wRR 0x32 d a ⟨0#7, false⟩ (3)) (xRR d a ⟨0#7, false⟩)
  | .vdivq d a b => encVector (wRR 0x33 d a b (3)) (xRR d a b)
  | .voptm s d a b => encVector (wRR 0x34 ⟨d.setWidth 7, s⟩ ⟨a.setWidth 7, false⟩ b 0) (0)
  | .voptv s d a b => encVector (wRR 0x35 ⟨d.setWidth 7, s⟩ ⟨a.setWidth 7, false⟩ b 0) (0)
  | .vopts s d a b => encVector (wRR 0x36 ⟨d.setWidth 7, s⟩ ⟨a.setWidth 7, false⟩ b 0) (0)
  | .voptmL d a b => encRetrVector (wRR 0x34 d ⟨a, false⟩ b 0) (xRR d ⟨a, false⟩ ⟨0#7, false⟩)
  | .voptvL d a b => encRetrVector (wRR 0x35 d ⟨a, false⟩ b 0) (xRR d ⟨a, false⟩ ⟨0#7, false⟩)
  | .voptsL d a b => encRetrVector (wRR 0x36 d ⟨a, false⟩ b 0) (xRR d ⟨a, false⟩ ⟨0#7, false⟩)
  | .tdset x y => encTile (wT 0x40 x.toNat y.toNat 0 0)
  | .tscl x y => encTile (wT 0x41 x.toNat y.toNat 0 0)
  | .tsclZ x y => encTile (wT 0x41 x.toNat y.toNat 0 1)
  | .tcens c x y => encTile (wT 0x42 x.toNat y.toNat 0 c.toNat)
  | .tmma x y z => encTile (wT 0x43 x.toNat y.toNat z.toNat 0)
  | .tmmas x y z => encTile (wT 0x44 x.toNat y.toNat z.toNat 0)
  | .tmmao x y z => encTile (wT 0x45 x.toNat y.toNat z.toNat 0)
  | .algld x y => encTile (wT 0x46 x.toNat y.toNat 0 0)
  | .tmmaa x y z n => encTile (wT 0x47 x.toNat y.toNat z.toNat n.toNat)
  | .tmmaaSw x y z n => encTile (wT 0x47 x.toNat y.toNat z.toNat (4 + n.toNat))
  | .tconj x y n => encTile (wT 0x48 x.toNat y.toNat 0 n.toNat)
  | .tnorm x y n => encTile (wT 0x49 x.toNat y.toNat 0 n.toNat)
  | .tacc x y => encTile (wT 0x4A x.toNat y.toNat 0 0)
  | .taccZ x y => encTile (wT 0x4A x.toNat y.toNat 0 1)
  | .tzero x => encTile (wT 0x4B x.toNat 0 0 0)
  | .tdrain x y => encTile (wT 0x4C x.toNat y.toNat 0 0)
  | .tdrainZ x y => encTile (wT 0x4C x.toNat y.toNat 0 1)
  | .tresc x y adj => encTile (wT 0x4D x.toNat y.toNat adj.toNat 0)
  | .trescZ x y adj => encTile (wT 0x4D x.toNat y.toNat adj.toNat 1)
  | .txps x y z => encTile (wT 0x4E x.toNat y.toNat z.toNat 0)
  | .tld x y z => encTile (wT 0x4F x.toNat y.toNat z.toNat 0)
  | .tst x y z => encTile (wT 0x50 x.toNat y.toNat z.toNat 0)
  | .tstx x y z => encTile (wT 0x51 x.toNat y.toNat z.toNat 0)
  | .dset x y k => encTile (wT 0x52 x.toNat y.toNat 0 k.toNat)
  | .tcpyMm x y z => encTile (wT 0x53 x.toNat y.toNat z.toNat 0)
  | .tcpyTm x y z => encTile (wT 0x53 x.toNat y.toNat z.toNat 1)
  | .tcpyMt x y z => encTile (wT 0x53 x.toNat y.toNat z.toNat 2)
  | .tcpyTt x y z => encTile (wT 0x53 x.toNat y.toNat z.toNat 3)
  | .tcpyd x y z => encTile (wT 0x54 x.toNat y.toNat z.toNat 0)
  | .tmskld x y z => encTile (wT 0x55 x.toNat y.toNat z.toNat 0)
  | .noise x n => encTile (wT 0x56 x.toNat 0 0 n.toNat)
  | .collOpen d a => encTile (wT 0x57 d.toNat a.toNat 0 0)
  | .collRun d a => encTile (wT 0x57 d.toNat a.toNat 0 1)
  | .collShrink d a => encTile (wT 0x57 d.toNat a.toNat 0 2)
  | .collJoin d a => encTile (wT 0x57 d.toNat a.toNat 0 3)
  | .collCatch d a => encTile (wT 0x57 d.toNat a.toNat 0 4)
  | .collClose d a => encTile (wT 0x57 d.toNat a.toNat 0 5)
  | .takePendingTrap _ _ => none
  | .ctxCreate _ => none
  | .ctxStart _ => none
  | .ctxStop _ => none
  | .ctxDestroy _ => none
  | .ctxcmdUndefined _ => none
  | .ctxQuiesceComplete _ => none
  | .ctxDrainComplete _ => none
  | .configRegisterWrite _ _ => none
  | .frctlWrite _ _ => none
  | .registerWrite _ _ => none
  | .hostBarAccess _ _ _ _ => none
  | .accessAtHomeController _ => none
  | .memoryReplyArrival _ _ _ _ => none
  | .ptinv _ => none
  | .ptinvComplete => none
  | .pgabort _ => none
  | .fgenFlush _ => none
  | .miggo _ => none
  | .migrationComplete _ => none
  | .launchRecordArrival => none
  | .kernelPlacement _ => none
  | .taskEndComplete _ _ => none
  | .monopolyWatchdogExpiry _ => none
  | .freezeConversion _ => none
  | .tileTaskStart _ _ => none
  | .tileTaskComplete _ _ => none
  | .copyBurstReply _ _ => none
  | .missedPromise _ _ => none
  | .waiteReread _ _ => none
  | .barrierArrival => none
  | .barrierBreak _ _ _ => none
  | .queueEnable _ _ => none
  | .queueDisable _ _ => none
  | .queueRetry _ _ => none
  | .queueSkip _ _ => none
  | .qcmdUndefined _ _ => none
  | .queueConfigWrite _ _ _ _ => none
  | .doorbell _ _ _ => none
  | .graphStart _ _ => none
  | .kernelNode _ _ _ => none
  | .kernelNodeAdmit _ _ _ => none
  | .copyNode _ _ _ => none
  | .copyNodeComplete _ _ _ => none
  | .signalNode _ _ _ => none
  | .waitNodeRead _ _ _ => none
  | .waitNodeTimeout _ _ _ => none
  | .conditionalNode _ _ _ => none
  | .loopNodeEvaluate _ _ _ => none
  | .endNode _ _ => none
  | .graphHaltComplete _ _ => none
  | .preempt _ => none
  | .preemptionLanding _ _ => none
  | .preemptionForced _ _ => none
  | .saveComplete _ _ => none
  | .taskResume _ _ => none
  | .lnkctlTrain _ => none
  | .lnkctlDown _ => none
  | .linkTrainingComplete _ _ => none
  | .linkTrainingTimeout _ => none
  | .laneLost _ _ => none
  | .linkWidthAgreed _ => none
  | .laneThresholdCrossed _ _ _ => none
  | .laneRetrainComplete _ => none
  | .laneRetrainTimeout _ => none
  | .linkWiden _ => none
  | .laneBackgroundCheck _ _ _ => none
  | .codewordReceived _ _ _ _ _ => none
  | .replayRequestReceived _ _ => none
  | .replayAckTimeout _ => none
  | .packetRoute => none
  | .farDepthTimeout _ => none
  | .rotorEnable => none
  | .rotorDwellStart _ _ => none
  | .rotorGuardStart => none
  | .rotorLockTimeout => none
  | .packetArrivalAtTarget _ => none
  | .e2eAckArrival _ _ _ _ _ => none
  | .e2eResendTimeout _ _ => none
  | .resetNoticeArrival _ => none
  | .rtThreadStart _ _ => none
  | .rtThreadStop _ _ => none
  | .llcmdGrant _ => none
  | .llcmdReclaim _ => none
  | .blcmdExpect _ => none
  | .blcmdRelease _ => none
  | .blcmdClear _ => none
  | .leaseGrantArrival _ _ _ _ _ => none
  | .leaseAcceptArrival _ => none
  | .leaseRefusalArrival _ => none
  | .leaseGrantTimeout _ => none
  | .leaseTermExpiry _ => none
  | .leaseRenewalSend _ => none
  | .leaseRenewalArrival _ => none
  | .leaseLapse _ => none
  | .reclaimNoticeArrival _ _ => none
  | .evictionComplete _ => none
  | .evictionReportArrival _ _ => none
  | .reclaimForceTimeout _ => none
  | .collStepEnd _ => none
  | .collStepSend _ => none
  | .collStepRecv _ => none
  | .collStepPsend _ => none
  | .collStepRrs _ => none
  | .collStepRed _ => none
  | .collStepCopy _ => none
  | .collStepWait _ => none
  | .collStepLoop _ => none
  | .collStepEndl _ => none
  | .collStepAppend _ => none
  | .collStepA2a _ => none
  | .collStepSignal _ => none
  | .collStepSar _ => none
  | .collMessageArrival _ => none
  | .collStepTimeout _ => none
  | .collCatchComplete _ _ _ => none
  | .appendRowArrival _ _ _ _ => none
  | .sarRouterCombine _ => none
  | .sarPartialResend _ => none
  | .powerRegrant _ _ => none
  | .i3cPowerLimitWrite _ => none
  | .coolantLimit => none
  | .attestationRequest _ => none
  | .moduleReset _ => none
  | .hostLinkDown => none
  | .patrolScrub _ _ _ => none
  | .lpddr6Refresh => none
  | .hostLinkUp => none
  | .islandGrantExceeded _ _ => none

end Sys2Proof
end

