-- ==== Sys2Proof/Machine/Operands.lean ====
section
/-! DEFINITION. Operand forms: sources from registers and latches, immediates, effective addresses (R46 to R57, R240,
R242, R269). -/

namespace Sys2Proof.Machine

/-- The outcome of a meaning. -/
abbrev Out := Host.Outcome State Fault Refusal

/-- A command of the host or of an input: none is admitted in BOOTFAIL, where no access reaches a register, nor, until reset, in ERROR
(R453, R458). -/
def State.command (s : State) (o : Out) : Out := if s.modstat.phase = 1 ∨ s.modstat.phase = 5 then .next s else o

/-- The content of latch L(n): none where it is lost (R56, R58). -/
def Latches.get? (l : Latches) (n : Nat) : Option VReg :=
  if n < 4 then l.near.getD n none else l.far.getD (n - 4) none

/-- The value a read of latch L(n) gives: zero where it is lost (R58). -/
def Latches.get (l : Latches) (n : Nat) : VReg := (l.get? n).getD 0

/-- The latch a source selects (R54). -/
def Src.latch (a : Src) : Nat := a.reg.toNat % 8

/-- Whether a source reads a lost latch. -/
def Task.lostSrc (t : Task) (a : Src) : Bool := a.l && (t.latch.get? (Src.latch a)).isNone

/-- Records that an instruction has read these sources: a lost latch sets TASKST.LATCHLOST (R58, R168). -/
def State.touch (s : State) (as : List Src) : State :=
  let t := s.task
  if as.any t.lostSrc then s.setTask { t with csr := { t.csr with taskst := t.csr.taskst ||| 1 } } else s

/-- A scalar source: the G register, or latch bits [63:0] (R240). -/
def Task.srcG (t : Task) (a : Src) : Word :=
  if a.l then (t.latch.get (Src.latch a)).setWidth 64 else t.gReg a.reg.toNat

/-- A predicate source: the Q register, or a latch's bit 0 (R247). -/
def Task.srcQ (t : Task) (a : Src) : Bool :=
  if a.l then (t.latch.get (Src.latch a)).getLsbD 0 else t.qReg a.reg.toNat

/-- A mask source: the K register, or latch bits [63:0] (R285). -/
def Task.srcK (t : Task) (a : Src) : Word :=
  if a.l then (t.latch.get (Src.latch a)).setWidth 64 else t.kReg a.reg.toNat

/-- A vector source: the V register through the window, or all of a latch (R56, R280, R285). -/
def Task.srcV (t : Task) (a : Src) : VReg :=
  if a.l then t.latch.get (Src.latch a) else t.vPhys (t.vMap a.reg.toNat)

/-- The width W selects (R241). -/
def opWidth (w : Bool) : Nat := if w then 32 else 64

/-- The low n bits of an integer as a 64-bit word, sign-extended (R241). -/
def narrow (r : Int) (n : Nat) : Word := toWord (sext (wrap r n) n)

/-- The 64-bit value of an immediate of format RI (R242). -/
def immI (c : BitVec 19) : Int := sext c.toNat 19

/-- The effective address of format M: G(b) + size * offset (R269). -/
def Task.addrM (t : Task) (b : BitVec 6) (size : Nat) (off : BitVec 17) : Word :=
  t.gReg b.toNat + BitVec.ofInt 64 (size * sext off.toNat 17)

/-- The raw tile-store address of format VM, in units of 256 bytes; it is not bounded (R6, R52, R300). -/
def Task.tileAddr (t : Task) (b : BitVec 6) (off : BitVec 16) : Int := (t.gReg b.toNat).toNat + 256 * sext off.toNat 16

end Sys2Proof.Machine
end

