-- ==== Sys2Proof/Machine/Translate.lean ====
section
/-! DEFINITION. The part's capabilities, range translation, the page walk, and where the byte of an intermediate address
lives (R10 to R12, R86, R92 to R101, R106, R116). -/

namespace Sys2Proof.Machine

/-! ### The part (R11, R12) -/

def Part.memch (p : Part) : Nat := if p.variant = 2 then 64 else 128
def Part.meshX (p : Part) : Nat := if p.variant = 2 then 16 else 32
def Part.hasRotor (p : Part) : Bool := p.variant == 0
def Part.hasDecoder (p : Part) : Bool := p.variant != 2
/-- The LPDDR6 bytes the part backs: CAP.MEMCH times 24 GiB (R95). -/
def Part.dramBytes (p : Part) : Nat := p.memch * 24 * 2 ^ 30

/-- The compute island of a core (R447). -/
def Part.island (p : Part) (core : Nat) : Nat := core % 32 / 4 + p.meshX / 4 * (core / 32 / 4)

/-- The home memory controller of an IA (R94). -/
def Part.home (p : Part) (ia : Nat) : Nat := bits ia 15 12 % (p.memch / 8)

/-- CAP (R12). -/
def Part.cap (p : Part) : Word :=
  let h := p.variant = 2
  BitVec.ofNat 64 (p.stepping % 256 * 2 ^ 48 + p.variant * 2 ^ 44 + (if h then 1 else 2) * 2 ^ 40
    + (if h then 256 else 512) * 2 ^ 30 + p.meshX * 2 ^ 24 + 16 * 2 ^ 19 + p.memch * 2 ^ 11
    + (if h then 12 else 24) * 2 ^ 6 + b2n p.hasDecoder * 2 + b2n p.hasRotor)

/-! ### Range translation (R86) -/

/-- Permission masks of a range pair: X bit 0, RD bit 1, W bit 2 (R85). -/
abbrev permX : Nat := 1
abbrev permR : Nat := 2
abbrev permW : Nat := 4
abbrev permRW : Nat := 6

/-- Whether range pair n matches a virtual address (R86). -/
def Ctx.rangeHit (c : Ctx) (va : Word) (n : Nat) : Bool :=
  let v := c.range.get 0 (2 * n)
  let l := v.f 11 6
  v.b 63 && 12 ≤ l && l ≤ 52 && va.f 56 l == v.f 56 l

/-- The range pair that translates a virtual address: the lowest that matches (R86). -/
def Ctx.rangeOf (c : Ctx) (va : Word) : Option Nat :=
  if va.f 63 57 ≠ 0 then none else (upFrom 0 16).find? (c.rangeHit va)

/-- Whether a module number is cabled into the pod (R96, R363); the module's own always is. -/
def State.cabled (s : State) (m : Nat) : Bool := m == s.part.module || (s.podmap.get 0 (m / 64)).b (m % 64)

/-- A virtual address through a context's range pairs: the module and the IA, or the cause (R86, R96). -/
def State.translate (s : State) (ctx : Nat) (va : Word) (need : Nat) : Except Nat (Nat × Nat) :=
  let c := s.ctxAt ctx
  match c.rangeOf va with
  | none => .error 0x080
  | some n =>
    let l := (c.range.get 0 (2 * n)).f 11 6
    let i := c.range.get 0 (2 * n + 1)
    if i.f 2 0 &&& need ≠ need then .error 0x081
    else
      let m := if i.b 11 then s.part.module else i.f 63 52
      if s.cabled m then .ok (m, i.f 51 l * 2 ^ l + va.toNat % 2 ^ l) else .error 0x088

/-! ### The stores of bytes -/

/-- Where a byte lives: the ring SRAM, the local LPDDR6, host memory. -/
inductive Loc where
  | ring (a : Nat)
  | dram (a : Nat)
  | host (a : Nat)
deriving DecidableEq, Repr

/-- The place k bytes on. -/
def Loc.plus (l : Loc) (k : Nat) : Loc :=
  match l with
  | .ring a => .ring (a + k)
  | .dram a => .dram (a + k)
  | .host a => .host (a + k)

/-- A byte's store, as the poison list numbers it, and its address there. -/
def Loc.at_ : Loc → Nat × Nat
  | .ring a => (0, a)
  | .dram a => (1, a)
  | .host a => (2, a)

/-- Reads a byte; a byte that nothing has written reads 0 (log 1). -/
def Mem.rd (m : Mem) : Loc → Byte
  | .ring a => m.ring.get 0 a
  | .dram a => m.dram.get 0 a
  | .host a => m.host.get 0 a

/-- Writes a byte. -/
def Mem.wr (m : Mem) (l : Loc) (b : Byte) : Mem :=
  match l with
  | .ring a => { m with ring := m.ring.set 0 a b }
  | .dram a => { m with dram := m.dram.set 0 a b }
  | .host a => { m with host := m.host.set 0 a b }

/-- Whether the byte's 64-byte line is poisoned (R451). -/
def Mem.bad (m : Mem) (l : Loc) : Bool := m.poison.contains (l.at_.1, l.at_.2 / 64 * 64)

/-- Clears the poison of every line that a write covers whole (R452). -/
def Mem.heal (m : Mem) (ls : List Loc) : Mem :=
  { m with poison := m.poison.filter fun p => !((upFrom p.2 64).all fun a => ls.any fun l => l.at_ == (p.1, a)) }

/-- The memory's canonical form: addresses rising, no byte listed that an unlisted address reads as. -/
abbrev Mem.wf (m : Mem) : Prop := m.ring.wf 0 = true ∧ m.dram.wf 0 = true ∧ m.host.wf 0 = true

/-- A little-endian word of local LPDDR6 (R3). -/
def Mem.dramWord (m : Mem) (a : Nat) : Word := BitVec.ofNat 64 (ofBytes ((upFrom a 8).map fun x => m.rd (.dram x)))

/-! ### The page walk (R97 to R101) -/

/-- What a walk reaches: no page, a malformed entry, or a leaf with the address of the entry it was read from. -/
inductive Walk where
  | unmapped
  | malformed
  | leaf (e : Word) (at_ : Nat)
deriving DecidableEq, Repr

/-- The page size of a leaf. -/
def leafSize (e : Word) : Nat := 2 ^ (12 + 2 * e.f 58 55)

/-- The span of one entry at the level a leaf's size belongs to (R97). -/
def leafSpan (e : Word) : Nat := if e.f 58 55 < 5 then 2 ^ 12 else if e.f 58 55 < 9 then 2 ^ 21 else 2 ^ 30

/-- Leaf state numbers (R99). -/
abbrev stMigrating : Nat := 1
abbrev stBorrowed : Nat := 5

/-- The page sizes a level allows (R97), by SIZE. -/
def sizeAllowed (level size : Nat) : Bool :=
  match level with
  | 2 => 9 ≤ size && size ≤ 11
  | 3 => 5 ≤ size && size ≤ 8
  | 4 => size ≤ 4
  | _ => false

/-- Whether a leaf at a level is well formed (R100). -/
def leafOk (dram level : Nat) (e : Word) : Bool :=
  let st := e.f 61 59
  let p := leafSize e
  let out := e.f 51 12 * 4096
  sizeAllowed level (e.f 58 55) && st != 7 && e.f 54 53 != 3
    && (st == stMigrating || !e.b 8)
    && (if st == stBorrowed then 9 ≤ e.f 58 55 && !e.b 52 && e.f 17 12 == 0
        else out % p == 0 && (e.b 52 || (e.f 51 42 == 0 && out + p ≤ dram)))

/-- One level of the walk: reads the entry of the table at `base` that indexes the IA, then goes on. -/
def walkFrom (m : Mem) (dram ia : Nat) : List (Nat × Nat × Nat) → Nat → Walk
  | [], _ => .malformed
  | (level, hi, lo) :: rest, base =>
    let a := base + 8 * bits ia hi lo
    let e := m.dramWord a
    if !e.b 63 then .unmapped
    else if e.b 62 then
      if rest.isEmpty || e.f 61 52 != 0 || e.f 11 0 != 0 || dram < e.f 51 12 * 4096 + 4096 then .malformed
      else walkFrom m dram ia rest (e.f 51 12 * 4096)
    else if leafOk dram level e then .leaf e a else .malformed

/-- The walk of an IA through the module's page table (R97, R100, R102). -/
def State.tableWalk (s : State) (ia : Nat) : Walk :=
  if !s.page.ptbase.b 63 then .unmapped
  else
    let base := s.page.ptbase.f 41 7 * 128
    if s.part.dramBytes < base + 128 then .malformed
    else walkFrom s.mem s.part.dramBytes ia [(0, 51, 48), (1, 47, 39), (2, 38, 30), (3, 29, 21), (4, 20, 12)] base

/-- The cached translation that serves an IA: its home controller's, of the page that covers it (R94, R98). -/
def State.cachedAt (s : State) (ia : Nat) : Option CachedLeaf :=
  s.page.cache.find? fun c => c.home == s.part.home ia && c.base == ia / leafSize c.leaf * leafSize c.leaf

/-- What the home controller of an IA translates it by: a cached translation, or a walk of the table. A walk that an access
makes is not kept (log 10). -/
def State.walk (s : State) (ia : Nat) : Walk :=
  match s.cachedAt ia with
  | some c => .leaf c.leaf (c.at_ + 8 * (ia % leafSize c.leaf / leafSpan c.leaf))
  | none => s.tableWalk ia

/-- Loads the translation of the page at an IA into the caches of the page's home controllers (R120). -/
def State.cacheLeaf (s : State) (ia : Nat) : State :=
  match s.tableWalk ia with
  | .leaf e a =>
    let base := ia / leafSize e * leafSize e
    let first := a - 8 * (ia % leafSize e / leafSpan e)
    let homes := (upFrom 0 (Nat.min (s.part.memch / 8) (leafSize e / 4096))).map fun k => s.part.home (base + 4096 * k)
    let old := s.page.cache.filter fun c => !(c.base == base && homes.contains c.home)
    { s with page := { s.page with cache := old ++ homes.map fun h => ⟨h, base, e, first⟩ } }
  | _ => s

/-- Drops the cached translations of pages that overlap [lo, hi) (R103, R104). -/
def State.uncache (s : State) (lo hi : Nat) : State :=
  { s with page := { s.page with cache := s.page.cache.filter fun c => !(c.base < hi && lo < c.base + leafSize c.leaf) } }

/-- The address that a page shares with all its bytes: where its attributes change next to it (R92, R97, R113); an unmapped
page counts as 4 KiB. -/
def State.pageBase (s : State) (ia : Nat) : Nat :=
  if ia < 0x10000000 then ia / 2 ^ 22 * 2 ^ 22
  else if 0xFFFF000000000 ≤ ia then 0xFFFF000000000
  else match s.walk ia with
    | .leaf e _ => ia / leafSize e * leafSize e
    | _ => ia / 4096 * 4096

/-! ### Where an access goes (R92, R93, R96, R101, R106, R116) -/

/-- The kind of an access (R106): a read, a fetch, a write, an atomic, or a copy-engine read into the tile store. -/
inductive Acc where
  | read
  | fetch
  | write
  | atomic
  | decoded
deriving DecidableEq, Repr

/-- The permissions an access needs of its leaf or ring segment, as a range pair's mask (R99, R102). -/
def Acc.need : Acc → Nat
  | .read | .decoded => permR
  | .fetch => permX
  | .write => permW
  | .atomic => permRW

/-- Whether an access reads only. -/
def Acc.reads : Acc → Bool
  | .read | .fetch | .decoded => true
  | _ => false

/-- What becomes of an access to one byte. kind is the page kind: 0 S, 1 R, 2 U. -/
inductive Look where
  | xlat (cause : Nat)
  | mem (l : Loc) (kind : Nat)
  | zeros (kind : Nat)
  | poison (kind : Nat)
  | comp (out : Loc) (size off : Nat) (kind : Nat)
  | dev (off : Nat)
  | remote (m ia : Nat) (kind : Nat)
  | fault (cause st : Nat) (kind : Nat)
  | wait (kind : Nat)
  | err (cause st : Nat)
deriving DecidableEq, Repr

/-- The page kind an access is ordered by; an access whose kind is not known here counts as S (R111). -/
def Look.kind : Look → Nat
  | .mem _ k | .zeros k | .poison k | .comp _ _ _ k | .remote _ _ k | .fault _ _ k | .wait k => k
  | _ => 0

/-- A look with another page kind. -/
def Look.withKind (l : Look) (k : Nat) : Look :=
  match l with
  | .mem x _ => .mem x k
  | .zeros _ => .zeros k
  | .poison _ => .poison k
  | .comp o z f _ => .comp o z f k
  | .remote m ia _ => .remote m ia k
  | .fault c st _ => .fault c st k
  | .wait _ => .wait k
  | x => x

/-- The page permissions of a leaf as a range pair's mask: X bit 11, W bit 10, RD bit 9 (R99). -/
def leafPerm (e : Word) : Nat := b2n (e.b 11) + 2 * b2n (e.b 9) + 4 * b2n (e.b 10)

/-- What becomes of an access of this module to a leaf (R101, R106); own: what becomes of it at an IA of this module, for a
BORROWED leaf that names the module's own number (R10); its kind is that leaf's (R122). -/
def State.lookLeaf (s : State) (own : Nat → Look) (e : Word) (ia : Nat) (a : Acc) : Look :=
  let p := leafSize e
  let kind := e.f 54 53
  let st := e.f 61 59
  let here : Look :=
    let x := e.f 51 12 * 4096 + ia % p
    if e.b 52 then if s.hostUp then .mem (.host x) kind else .err 0x08E 0 else .mem (.dram x) kind
  if leafPerm e &&& a.need ≠ a.need then .err 0x083 0
  else match st with
  | 0 => here
  | 1 => if !e.b 8 && a.reads then here else .wait kind
  | 2 => if a = .decoded && s.part.hasDecoder then
      if e.b 52 then if s.hostUp then .comp (.host (e.f 51 12 * 4096)) p (ia % p) kind else .err 0x08E 0
      else .comp (.dram (e.f 51 12 * 4096)) p (ia % p) kind
    else .fault 0x085 2 kind
  | 3 => if a.reads then .zeros kind else .fault 0x084 3 kind
  | 4 => .fault 0x086 4 kind
  | 5 =>
    let m := e.f 29 18
    let out := e.f 51 30 * 2 ^ 30 + ia % p
    if m = s.part.module then (own out).withKind kind
    else if s.cabled m then .remote m out kind else .err 0x088 0
  | _ => if a.reads then .poison kind else .err 0x151 6

/-- What becomes of an access of this module to one IA (R92 to R94), through at most k BORROWED leaves of the module itself; an
access that those lead round stays waiting (log 17). -/
def State.lookVia (s : State) : Nat → Nat → Acc → Look
  | k, ia, a =>
  if ia < 0x10000000 then
    let seg := bits ia 27 22
    let r := s.page.ringattr.get 0 seg
    if s.part.variant = 2 ∧ 0x08000000 ≤ ia then .err 0x08B 0
    else if s.part.hasRotor && 60 ≤ seg then .err 0x083 0
    else if r.f 4 3 = 3 then .err 0x087 0
    else if r.f 2 0 &&& a.need ≠ a.need then .err 0x083 0
    else .mem (.ring ia) (r.f 4 3)
  else if 0xFFFF000000000 ≤ ia then .dev (ia - 0xFFFF000000000)
  else match s.walk ia with
    | .unmapped => .fault 0x082 7 0
    | .malformed => .err 0x087 0
    | .leaf e _ => match k with
      | 0 => s.lookLeaf (fun _ => .wait 0) e ia a
      | k + 1 => s.lookLeaf (fun x => s.lookVia k x a) e ia a

/-- What becomes of an access of this module to one IA (R92 to R94): no more leaves can follow one another than its page tables have
bytes, unless they lead round. -/
def State.lookIA (s : State) (ia : Nat) (a : Acc) : Look := s.lookVia (s.mem.dram.length + 1) ia a

/-- What becomes of an access that arrived from module m (R116), which waits where it finds MIGRATING; `lends`: the page is on a lease to m. Nothing is held
or side-logged here, and the device aperture is refused (R93). -/
def State.lookFor (s : State) (lends : Nat → Bool) (ia : Nat) (a : Acc) : Look :=
  if 0xFFFF000000000 ≤ ia then .err 0x089 0
  else if ia < 0x10000000 then s.lookIA ia a
  else match s.walk ia with
    | .unmapped => .err 0x089 7
    | .malformed => .err 0x087 0
    | .leaf e _ =>
      let st := e.f 61 59
      if st = 1 then .wait (e.f 54 53)
      else if st = 0 ∨ (st = 3 ∧ a.reads) then s.lookLeaf (fun _ => .err 0x089 st) e ia a
      else if st = 4 ∧ lends ia then s.lookLeaf (fun _ => .err 0x089 st) (e.setF 61 59 0) ia a
      else .err 0x089 st

/-- Whether an IA lies in a window register's window: base aligned to 2^LOG2SIZE, 12 to 48 usable (R390). -/
def inWindow (w : Word) (ia : Nat) : Bool :=
  let l := w.f 11 6
  12 ≤ l && l ≤ 48 && ia / 2 ^ l == w.f 51 12 * 4096 / 2 ^ l

/-- The lease an access to lender IA `ia` of module m travels under, when a BORROWED leaf forwards it (R397). -/
def State.leaseOf (s : State) (m ia : Nat) : Option Nat :=
  (s.borrowers.find? fun nb => (nb.2.stat == .active || nb.2.stat == .evicting) && nb.2.src.f 63 52 == m
    && nb.2.src.f 51 30 * 2 ^ 30 ≤ ia && ia < (nb.2.src.f 51 30 + nb.2.pages) * 2 ^ 30).map (·.1)

/-- The module and IA that a unit's address names, or the cause (R86, R388): retriever thread 0 and the save of a task issue
fabric addresses, every other unit virtual ones. -/
def State.xlate (s : State) (u : UnitId) (ctx : Nat) (va : Word) (need : Nat) : Except Nat (Nat × Nat) :=
  match u with
  | .save _ _ | .ring _ => .ok (s.part.module, va.toNat)
  | .retr _ 0 => .ok (va.f 63 52, va.f 51 0)
  | _ => s.translate ctx va need

/-- Whether a module and IA lie outside what a unit may reach (R389): threads 1 to 7 of a retriever reach only their window of
their own module, fetches apart. -/
def State.lookOut (s : State) (u : UnitId) (m ia : Nat) (a : Acc) : Bool :=
  match u with
  | .retr r t => t != 0 && a != .fetch && !(m == s.part.module && inWindow (s.rts.get .zero (r * 8 + t)).win ia)
  | _ => false

/-- What becomes of a unit's access at a module and IA (R96, R389). -/
def State.lookAt (s : State) (u : UnitId) (m ia : Nat) (a : Acc) : Look :=
  if s.lookOut u m ia a then .err 0x089 0
  else if m = s.part.module then s.lookIA ia a
  else if s.cabled m then .remote m ia 0 else .err 0x088 0

/-- What becomes of a unit's access to one address, with its module and IA (R86, R388, R389). -/
def State.lookU (s : State) (u : UnitId) (ctx : Nat) (va : Word) (a : Acc) : Look × Nat × Nat :=
  match s.xlate u ctx va a.need with
  | .error c => (.xlat c, 0, 0)
  | .ok (m, ia) => (s.lookAt u m ia a, m, ia)

end Sys2Proof.Machine
end

