-- ==== Sys2Proof/Machine/Bar.lean ====
section
/-! DEFINITION. The registers of BAR0 and BAR2 as a read finds them (R81, R102, R200, R234, R362, R363, R390, R394, R395,
R457). -/

namespace Sys2Proof.Machine

/-- The number of a context's state (R82). -/
def CtxStat.num : CtxStat → Nat
  | .free => 0
  | .building => 1
  | .active => 2
  | .quiescing => 3
  | .stopped => 4
  | .draining => 5
  | .error => 6

/-- CTXSTAT (R82). -/
def Ctx.ctxstat (c : Ctx) : Word :=
  BitVec.ofNat 64 (c.cause * 2 ^ 32 + b2n c.badwr * 2 ^ 10 + b2n c.pending * 2 ^ 9 + b2n c.badcmd * 2 ^ 8 + c.stat.num)

/-- The control page of a context (R81). -/
def Ctx.pageRead (c : Ctx) (off : Nat) : Word :=
  if off = 0x008 then c.ctxstat
  else if off = 0x010 then c.quota
  else if off = 0x018 then c.frbase
  else if off = 0x020 then c.frctl
  else if off = 0x028 then c.satlim
  else if 0x100 ≤ off ∧ off < 0x200 then c.range.get 0 ((off - 0x100) / 8)
  else if 0x200 ≤ off ∧ off < 0x400 then c.leasebind.get 0 ((off - 0x200) / 8)
  else 0

/-- The page control block (R102); PTSTAT.BUSY while an invalidation is queued. -/
def State.pageCtlRead (s : State) (off : Nat) : Word :=
  if off = 0x000 then s.page.ptbase
  else if off = 0x010 then BitVec.ofNat 64 (2 * b2n s.page.lost + b2n (!s.page.ptinv.isEmpty))
  else if 0x100 ≤ off ∧ off < 0x180 then BitVec.ofNat 64 (s.ctxAt ((off - 0x100) / 8)).gen
  else if 0x200 ≤ off ∧ off < 0x400 then s.page.ringattr.get 0 ((off - 0x200) / 8)
  else 0

/-- The number of a queue's state (R200). -/
def QStat.num : QStat → Nat
  | .disabled => 0
  | .idle => 1
  | .running => 2
  | .halting => 3
  | .halted => 4

/-- QSTAT (R200). -/
def HostQueue.qstat (x : HostQueue) : Word :=
  BitVec.ofNat 64 (x.stat.num * 2 ^ 61 + x.cause * 2 ^ 52 + x.node * 2 ^ 42 + b2n x.limit * 8 + b2n x.baddb * 4 + b2n x.badcmd * 2)

/-- The registers of a queue (R200). -/
def HostQueue.pageRead (x : HostQueue) (off : Nat) : Word :=
  if off = 0x00 then x.base
  else if off = 0x08 then x.cfg
  else if off = 0x10 then BitVec.ofNat 64 (x.head * 2 ^ 32 + x.tail)
  else if off = 0x18 then x.qstat
  else 0

/-- CAP.TORUSW (R12). -/
def Part.torusW (p : Part) : Nat := if p.variant = 2 then 12 else 24

/-- Whether a link is fitted (R351). -/
def Part.fitted (p : Part) (n : Nat) : Bool := if n < 144 then n % 24 < p.torusW else n < 256 && p.hasRotor

/-- The number of a link's state (R362). -/
def LStat.num : LStat → Nat
  | .down => 0
  | .training => 1
  | .active16 => 2
  | .active8 => 3
  | .active4 => 4
  | .retrain => 5
  | .failed => 6

/-- LNKSTAT (R362). -/
def Link.stat_ (l : Link) : Word :=
  BitVec.ofNat 64 (l.stat.num * 2 ^ 61 + (if l.stat = .active8 ∨ l.stat = .active4 then l.group else 0) * 2 ^ 56 + (if l.stat = .retrain then l.rlane else 0) * 2 ^ 52
    + l.healthy * 2 ^ 32 + l.failcause * 2 ^ 28 + l.ackseq)

/-- The registers of a link (R362). -/
def Link.pageRead (l : Link) (off : Nat) : Word :=
  if off = 0x00 then BitVec.ofNat 64 (b2n l.auto)
  else if off = 0x08 then l.stat_
  else if off = 0x10 then BitVec.ofNat 64 (l.replays * 2 ^ 32 + l.uncorr)
  else if 0x20 ≤ off ∧ off < 0xA0 then
    let k := l.lanes.get .zero ((off - 0x20) / 8)
    BitVec.ofNat 64 (b2n k.failed * 2 ^ 63 + b2n k.crossed * 2 ^ 62 + k.syms)
  else 0

/-- The module link registers (R363); ROTCTL and ROTCALW read zero without a rotor. -/
def State.linkBlockRead (s : State) (off : Nat) : Word :=
  if off = 0x000 then BitVec.ofNat 64 (b2n (s.part.hasRotor && s.rotor.en))
  else if off = 0x008 then s.flowcfg
  else if off = 0x010 then s.linkcfg
  else if 0x100 ≤ off ∧ off < 0x348 then (if s.part.hasRotor then s.rotor.calw.get 0 ((off - 0x100) / 8) else 0)
  else if 0x400 ≤ off ∧ off < 0x600 then s.podmap.get 0 ((off - 0x400) / 8)
  else 0

/-- The registers of a retriever thread (R390). -/
def RetrThread.pageRead (x : RetrThread) (off : Nat) : Word :=
  if off = 0x00 then x.ctl
  else if off = 0x08 then x.entry
  else if off = 0x10 then x.win
  else if off = 0x18 then x.sram
  else if off = 0x20 then x.kick
  else if off = 0x28 then BitVec.ofNat 64 (x.stat * 2 ^ 62 + x.cause * 2 ^ 41 + x.inbox.length)
  else 0

/-- The migration block (R394). -/
def Migration.pageRead (x : Migration) (off : Nat) : Word :=
  if off = 0x00 then x.src
  else if off = 0x08 then x.dst
  else if off = 0x10 then x.tab
  else if off = 0x20 then BitVec.ofNat 64 (b2n x.busy * 2 ^ 63 + x.result)
  else 0

/-- The registers of a retriever: its threads 1 to 7, its migration block. -/
def State.retrRead (s : State) (r off : Nat) : Word :=
  let t := off / 0x100
  if 1 ≤ t ∧ t < 8 then
    (s.rts.get .zero (r * 8 + t)).pageRead (off % 0x100)
  else if t = 8 then (s.migs.get .zero r).pageRead (off % 0x100)
  else 0

/-- The number of a lender entry's state, and of a borrower entry's (R395). -/
def LendStat.num : LendStat → Nat
  | .free => 0
  | .granting => 1
  | .active => 2
  | .recalling => 3
def BorStat.num : BorStat → Nat
  | .free => 0
  | .expect => 1
  | .active => 2
  | .evicting => 3
  | .demoted => 4

/-- A lender entry (R395). -/
def Lender.pageRead (l : Lender) (off : Nat) : Word :=
  if off = 0x00 then l.base
  else if off = 0x08 then l.cfg
  else if off = 0x18 then BitVec.ofNat 64 (l.stat.num * 2 ^ 62 + l.result * 2 ^ 59 + l.expiry % 2 ^ 48)
  else 0

/-- A borrower entry (R395). -/
def Borrower.pageRead (b : Borrower) (off : Nat) : Word :=
  if off = 0x00 then b.src
  else if off = 0x08 then b.fall
  else if off = 0x18 then BitVec.ofNat 64 (b.stat.num * 2 ^ 61 + b2n b.lapsed * 2 ^ 60 + b.term * 2 ^ 7 + b.pages)
  else 0

/-- MODSTAT (R457). -/
def ModStat.word (m : ModStat) : Word := BitVec.ofNat 64 (m.phase * 2 ^ 61 + m.cause * 2 ^ 52 + b2n m.therm)

/-- The retriever whose registers an offset of BAR0 lies in. -/
def State.retrOf (s : State) (off : Nat) : Option Nat :=
  if 0x900000 ≤ off ∧ (off - 0x900000) / 0x1000 < s.part.memch / 8 then some ((off - 0x900000) / 0x1000) else none

/-- An 8-byte read of a BAR register; an offset no chapter lists reads zero, and so does every doorbell (R201). -/
def State.barRead (s : State) (bar off : Nat) : Word :=
  if bar = 0 then
    if 0x400000 ≤ off ∧ off < 0x410000 then (s.ctxAt ((off - 0x400000) / 0x1000)).pageRead (off % 0x1000)
    else if 0x500000 ≤ off ∧ off < 0x501000 then s.pageCtlRead (off - 0x500000)
    else if 0x600000 ≤ off ∧ off < 0x610000 then
      (s.queues.get .zero (queueKey ((off - 0x600000) / 0x1000) (off % 0x1000 / 0x40))).pageRead (off % 0x40)
    else if 0x700000 ≤ off ∧ off < 0x700080 then (s.ctxAt ((off - 0x700000) / 8)).savebase
    else if 0x800000 ≤ off ∧ off < 0x810000 then
      let n := (off - 0x800000) / 0x100
      if s.part.fitted n then (s.links.get .zero n).pageRead (off % 0x100) else 0
    else if 0x810000 ≤ off ∧ off < 0x811000 then s.linkBlockRead (off - 0x810000)
    else if 0xA00000 ≤ off ∧ off < 0xA02000 then (s.lenders.get .zero ((off - 0xA00000) / 0x20)).pageRead (off % 0x20)
    else if 0xA10000 ≤ off ∧ off < 0xA18000 then (s.borrowers.get .zero ((off - 0xA10000) / 0x20)).pageRead (off % 0x20)
    else if off = 0xB00000 then s.modstat.word
    else match s.retrOf off with
    | some r => s.retrRead r (off % 0x1000)
    | none => 0
  else 0

end Sys2Proof.Machine
end

