-- ==== Sys2Proof/Machine/Memory.lean ====
section
/-! DEFINITION. Reads and writes of virtual addresses: fault records, the side log, reports, packets to other modules
(R86, R107 to R116, R121 to R150). An access is performed at its issue unless it must wait; one that waits keeps its place in
program order (log 2). -/

namespace Sys2Proof.Machine

/-! ### Packets to other modules (R145 to R147) -/

/-- UNITK, UNIT and SLOT of a record (R113): the launch scheduler's copy unit counts as copy engine 1,023, and the save of a task
and the writer of a fault ring as a core (log 33). -/
def UnitId.rec_ : UnitId → Nat × Nat × Nat
  | .core c s _ => (0, c, s)
  | .copy c _ _ => (1, c, 0)
  | .retr r _ => (2, r, 0)
  | .coll c => (3, c % 8, 0)
  | .sched _ _ _ => (1, 1023, 0)
  | .save c s => (0, c, s)
  | .ring _ => (0, 1023, 0)

/-- UNIT and UNITK of a packet for a unit of this module. -/
def UnitId.pkt (u : UnitId) : Nat × Nat := (u.rec_.2.1 * 16 + u.rec_.2.2, u.rec_.1)

/-- A new packet of this module, without its end-to-end number. -/
def newPkt (src dst cls : Nat) (unit : Nat × Nat) (op : PktOp) (ia len : Nat) (data : List Byte) (lease : Option Nat) : Packet :=
  ⟨src, dst, 0, none, false, false, false, cls, unit.1, unit.2, op, ia, len, data, lease, false, none⟩

/-- What is kept of a flow's latest packet (R379): its destination, unit, class and number. -/
def pktLast (p : Packet) : Nat × Nat × Nat × Nat × Nat := (p.dst, p.unit / 16, p.unitk, p.cls, p.seq)

/-- Whether two packets of this module are of one flow (R379), by what is kept of them. -/
def sameLast (a b : Nat × Nat × Nat × Nat × Nat) : Bool := (a.1, a.2.1, a.2.2.1, a.2.2.2.1) == (b.1, b.2.1, b.2.2.1, b.2.2.2.1)

/-- The number a new packet of a flow names as its predecessor (R379): that of its flow's previous packet, where that one is
unacknowledged. -/
def State.predOf (s : State) (ps : List Unacked) (p : Packet) : Option Nat :=
  match s.lastSeq.find? (sameLast (pktLast p)) with
  | some l => if ps.any fun x => (pktLast x.pkt) == l then some l.2.2.2.2 else none
  | none => none

/-- Sends a packet on its pair: it takes the pair's next number unless the window of 2^24 holds it (R145, R146, R379). -/
def State.sendOn (s : State) (u : Unacked) : State :=
  let m := u.pkt.dst
  let p := s.e2eSrc.get ⟨0, true, [], []⟩ m
  let full := match p.unacked with
    | [] => false
    | x :: _ => 2 ^ 24 ≤ (p.next + 2 ^ 32 - x.pkt.seq) % 2 ^ 32
  if full || !p.waiting.isEmpty then
    { s with e2eSrc := s.e2eSrc.put m { p with waiting := p.waiting ++ [u] } }
  else
    let pkt := { u.pkt with seq := p.next, isOpen := p.opening, pred := s.predOf p.unacked u.pkt }
    { s with
      lastSeq := (pktLast pkt) :: s.lastSeq.filter fun l => !sameLast (pktLast pkt) l
      e2eSrc := s.e2eSrc.put m { p with next := (p.next + 1) % 2 ^ 32, opening := false, unacked := p.unacked ++ [{ u with pkt := pkt }] }
      outq := s.outq ++ [pkt] }

/-- An access of a unit as it leaves for another module: its unit, context and virtual address, its number among the accesses of
the module and its page kind, the access whose reply it brings with the offset of its bytes, whether it is a DONE add (R164), and
the IA of this module whose BORROWED leaf forwards it. -/
structure Sender where
  unit : UnitId
  ctx : Nat
  va : Word
  id : Nat
  kind : Nat
  held : Option Nat
  off : Nat
  done : Bool
  own : Option Nat
deriving DecidableEq, Repr

/-- Sends a packet of a unit. -/
def State.sendPkt (s : State) (x : Sender) (p : Packet) : State :=
  s.sendOn ⟨p, x.id, x.kind, 0, x.held, x.off, x.unit, x.ctx, x.va, x.done, none, x.own⟩

/-- Sends an access to n bytes at IA ia of module m; one that a BORROWED leaf forwards travels under its lease (R397). -/
def State.sendTo (s : State) (x : Sender) (m : Nat) (op : PktOp) (ia len : Nat) (data : List Byte) : State :=
  let lease := if x.own.isSome then s.leaseOf m ia else none
  s.sendPkt x (newPkt s.part.module m 0 x.unit.pkt op ia len data lease)

/-! ### Fault records (R89, R113) -/

/-- Whether a unit issues fabric addresses, so that its records have VA 0 (R113, R234, R388). -/
def UnitId.usesIA : UnitId → Bool
  | .retr _ t => t == 0
  | .save _ _ | .ring _ => true
  | _ => false

/-- ACC of a record (R113). -/
def Acc.rec_ : Acc → Nat
  | .read | .decoded => 0
  | .write => 1
  | .atomic => 2
  | .fetch => 3

/-- What a fault record says of the access (R113). -/
structure RecInfo where
  unit : UnitId
  cause : Nat
  state : Nat
  acc : Acc
  held : Bool
  pref : Bool
  slog : Nat
  va : Word
  module : Nat
  ia : Nat
  size : Nat
deriving DecidableEq, Repr

/-- LOG2SZ: the smallest power of two that holds the access, at most 2^8 (R113). -/
def log2Size (n : Nat) : Nat := Nat.min 8 (bitLen 9 (n - 1))

/-- The 32 bytes of a record (R113). -/
def RecInfo.bytes (r : RecInfo) (gen cycle : Nat) : List Byte :=
  let u := r.unit.rec_
  toBytes 8 (r.module * 2 ^ 52 + r.ia) ++ toBytes 8 (r.va.toNat % 2 ^ 57)
    ++ toBytes 8 (gen * 2 ^ 56 + r.cause * 2 ^ 47 + r.state * 2 ^ 44 + r.acc.rec_ * 2 ^ 42 + b2n r.held * 2 ^ 41
      + b2n r.pref * 2 ^ 40 + r.slog * 2 ^ 34 + u.1 * 2 ^ 30 + u.2.1 * 2 ^ 20 + u.2.2 * 2 ^ 16 + log2Size r.size)
    ++ toBytes 8 cycle

/-- Writes bytes at places. -/
def Mem.wrAll (m : Mem) (ls : List (Loc × Byte)) : Mem :=
  (ls.foldl (fun m x => m.wr x.1 x.2) m).heal (ls.map (·.1))

/-- The place of a look that is served from memory. -/
def Look.loc? : Look → Option Loc
  | .mem l _ => some l
  | _ => none

/-- Whether a look is served from host memory. -/
def Look.onHost : Look → Bool
  | .mem (.host _) _ => true
  | _ => false

/-- Writes the first fault record that waits for the ring of context n, and whether it is done with (R89, R106, R113, R114): a
record of an older generation, and one for a disabled ring, is dropped; a full ring, or a write that meets a fault or an error,
drops it and sets OVF; a MIGRATING page delays it; a BORROWED one forwards it, and HEAD advances once it is acknowledged. -/
def State.writeRec (s : State) (n gen : Nat) (bytes : List Byte) : State × Bool :=
  let c := s.ctxAt n
  let k := c.frctl.f 63 59
  let head := c.frctl.f 39 20
  let drop := s.setCtxAt n { c with frctl := c.frctl.setF 40 40 1 }
  if gen ≠ c.gen ∨ k < 6 ∨ 20 < k then (s, true)
  else if (head + 1) % 2 ^ k = c.frctl.f 19 0 % 2 ^ k then (drop, true)
  else
    let ia := c.frbase.f 51 5 * 32 + 32 * head
    let ls := (upFrom ia 32).map fun a => s.lookIA a .write
    let locs := ls.filterMap Look.loc?
    if locs.length = 32 then
      ({ s with mem := s.mem.wrAll (locs.zip bytes) }.setCtxAt n { c with frctl := c.frctl.setF 39 20 ((head + 1) % 2 ^ k) }, true)
    else match ls.head? with
      | some (.wait _) => (s, false)
      | some (.remote m x kind) =>
        let (id, s) := s.freshId
        ((s.setCtxAt n { c with recSent := true }).sendTo ⟨.ring n, n, BitVec.ofNat 64 ia, id, kind, none, 0, false, some ia⟩ m
          .write x 32 bytes, false)
      | _ => (drop, true)

/-- Writes the records of context n that wait, in order, k at most. -/
def State.writeRecs (s : State) (n : Nat) : Nat → State
  | 0 => s
  | k + 1 =>
    let c := s.ctxAt n
    match c.recs with
    | [] => s
    | (g, bs) :: rest =>
      if c.recSent then s
      else match s.writeRec n g bs with
        | (s, true) => (s.setCtxAt n { s.ctxAt n with recs := rest }).writeRecs n k
        | (s, false) => s

/-- The forwarded record of context n is acknowledged, or refused (R89): HEAD advances, or OVF is set. -/
def State.recAcked (s : State) (n : Nat) (ok : Bool) : State :=
  let c := s.ctxAt n
  let f := if ok then c.frctl.setF 39 20 ((c.frctl.f 39 20 + 1) % 2 ^ c.frctl.f 63 59) else c.frctl.setF 40 40 1
  (s.setCtxAt n { c with frctl := f, recs := c.recs.drop 1, recSent := false }).writeRecs n c.recs.length

/-- Writes a fault record of context n into its ring, behind those that wait (R89, R113). -/
def State.record (s : State) (n : Nat) (r : RecInfo) : State :=
  let r := if r.unit.usesIA then { r with va := 0 } else r
  let c := s.ctxAt n
  (s.setCtxAt n { c with recs := c.recs ++ [(c.gen, r.bytes c.gen s.cycle.toNat)] }).writeRecs n (c.recs.length + 1)

/-! ### Tier demotion (R401) -/

/-- The lease whose eviction a byte's IA gives an event for: EVICTING or DEMOTED, not by RELEASE, and bound by the
context. -/
def State.demotedAt (s : State) (ctx ia : Nat) : Option (Nat × Borrower) :=
  s.borrowers.find? fun nb => (nb.2.stat == .evicting || nb.2.stat == .demoted) && !nb.2.rel
    && nb.2.src.f 29 8 * 2 ^ 30 ≤ ia && ia < (nb.2.src.f 29 8 + nb.2.pages) * 2 ^ 30
    && (upFrom 0 64).any fun k => let w := (s.ctxAt ctx).leasebind.get 0 k
      w.b 63 && w.f 15 0 == nb.1

/-- TRAPVAL[18:16] of the event: the new tier (R401). -/
def Borrower.tier (b : Borrower) : Nat := if !b.fall.b 63 then 4 else if b.fall.b 62 then 3 else 1

/-- What the model changes of a task that may have left its core. -/
def State.onTask (s : State) (core slot kernel : Nat) (f : Task → Task) : State :=
  let t := s.taskAt core slot
  if t.stat ≠ .free ∧ t.place.kernel = kernel then s.setTaskAt core slot (f t)
  else { s with offs := s.offs.map fun o =>
    if o.core = core ∧ o.slot = slot ∧ o.task.place.kernel = kernel then { o with task := f o.task } else o }

/-- One byte of an access: its offset, its look, its module and its IA. -/
structure ByteLook where
  off : Nat
  look : Look
  module : Nat
  ia : Nat
deriving DecidableEq, Repr

/-- The event of a task's first access to an evicted region (R401): once for each task and eviction, also to a task that is off
its core. -/
def State.demote (s : State) (u : UnitId) (ctx : Nat) (ls : List ByteLook) : State :=
  match u with
  | .core c slot kernel =>
    if s.borrowers.isEmpty then s
    else
      let at_ (b : ByteLook) : Option (Nat × Borrower) := match b.look with
        | .xlat _ => none
        | _ => if b.module = s.part.module then s.demotedAt ctx b.ia else none
      match ls.findSome? at_ with
      | none => s
      | some (k, b) =>
        let who := (taskKey c slot, kernel)
        if b.told.contains who then s
        else
          ({ s with borrowers := s.borrowers.put k { b with told := b.told ++ [who] } }).onTask c slot kernel fun t =>
            t.eventTo ⟨if b.lapsed then 0x15A else 0x158, BitVec.ofNat 64 (k + b.tier * 2 ^ 16)⟩
  | _ => s

/-! ### Reads -/

/-- What a read of several bytes finds: the bytes; a translation error; a memory-side error or poison; a serviceable
fault; a migration in progress; the side log's order; or bytes of other modules still to come. off is the offset of
the byte that decides. -/
inductive RdRes where
  | ok (bs : List Byte)
  | xlat (cause off : Nat)
  | err (cause off st : Nat)
  | fault (off : Nat)
  | wait (off : Nat)
  | order
  | remote (miss : List (Nat × Nat × Nat))
deriving DecidableEq, Repr

/-- The looks of n bytes from va (R86: each byte takes its own pair). -/
def State.looks (s : State) (u : UnitId) (ctx : Nat) (va : Word) (n : Nat) (a : Acc) : List ByteLook :=
  (upFrom 0 n).map fun i =>
    let r := s.lookU u ctx (va + BitVec.ofNat 64 i) a
    ⟨i, r.1, r.2.1, r.2.2⟩

/-- The module and IA of the byte at an offset of an access, as translated at its issue (R91). -/
def Held.partAt (h : Held) (off : Nat) : Option (Nat × Nat) :=
  (h.parts.find? fun p => p.1 ≤ off && off < p.1 + p.2.2.2).map fun p => (p.2.1, p.2.2.1 + (off - p.1))

/-- The looks of n bytes from va, which stand at offset base of an access: what its translation at issue reaches now (R91). -/
def State.looksOf (s : State) (h : Held) (va : Word) (n : Nat) (a : Acc) (base : Nat) : List ByteLook :=
  (upFrom 0 n).map fun i => match h.partAt (base + i) with
    | some (m, ia) => ⟨base + i, s.lookAt h.unit m ia a, m, ia⟩
    | none =>
      let r := s.lookU h.unit h.ctx (va + BitVec.ofNat 64 i) a
      ⟨base + i, r.1, r.2.1, r.2.2⟩

/-- Whether the byte b' of an access at va, which follows byte b, lies in the same part: under the same range pair, and on the same
page of this module (R86, R110, R113, R129). -/
def State.samePart (s : State) (u : UnitId) (ctx : Nat) (va : Word) (b b' : ByteLook) : Bool :=
  let a := va + BitVec.ofNat 64 b'.off
  let pair (x : Word) : Option Nat := match u with
    | .save _ _ | .ring _ | .retr _ 0 => none
    | _ => (s.ctxAt ctx).rangeOf x
  a.toNat % 4096 != 0 || (pair (a - 1) == pair a
    && (b.module != s.part.module || b'.module != s.part.module || s.pageBase b.ia == s.pageBase b'.ia))

/-- Adds a byte to the runs of an access, the latest first: offset, module, IA, length, and the last byte. -/
def addRun (same : ByteLook → ByteLook → Bool) (to_ : ByteLook → Nat × Nat) (acc : List (Nat × Nat × Nat × Nat × ByteLook))
    (b : ByteLook) : List (Nat × Nat × Nat × Nat × ByteLook) :=
  let t := to_ b
  match acc with
  | (o, m, ia, n, l) :: rest =>
    if o + n = b.off ∧ m = t.1 ∧ ia + n = t.2 ∧ same l b = true then (o, m, ia, n + 1, b) :: rest
    else (b.off, t.1, t.2, 1, b) :: acc
  | [] => [(b.off, t.1, t.2, 1, b)]

/-- The number of the range pair's run in which the byte at an offset of an access at va lies: bytes of one run are one part (R86). -/
def Ctx.pairRun (c : Ctx) (va : Word) (off : Nat) : Nat :=
  ((upFrom 1 off).filter fun i => c.rangeOf (va + BitVec.ofNat 64 (i - 1)) != c.rangeOf (va + BitVec.ofNat 64 i)).length

/-- The maximal runs of consecutive bytes that are one part: offset, module, IA, length (R86, R129). -/
def runs (same : ByteLook → ByteLook → Bool) (to_ : ByteLook → Nat × Nat) (l : List ByteLook) : List (Nat × Nat × Nat × Nat) :=
  (l.foldl (addRun same to_) []).reverse.map fun r => (r.1, r.2.1, r.2.2.1, r.2.2.2.1)

/-- The module and IA a byte goes to: those of its look where it leaves the module (R101). -/
def ByteLook.target (b : ByteLook) : Nat × Nat :=
  match b.look with
  | .remote m ia _ => (m, ia)
  | _ => (b.module, b.ia)

/-- The IA of this module whose BORROWED leaf forwards a byte. -/
def ByteLook.own (b : ByteLook) (module : Nat) : Option Nat :=
  match b.look with
  | .remote _ _ _ => if b.module = module then some b.ia else none
  | _ => none

/-- The translation error of a byte. -/
def ByteLook.xlat? (b : ByteLook) : Option (Nat × Nat) := match b.look with | .xlat c => some (c, b.off) | _ => none

/-- The access error of a byte read: a memory-side error, or poison, also of a byte that another module has sent (R106, R108, R451,
R452). -/
def State.rdErr? (s : State) (devOk : Bool) (taint : List Nat) (b : ByteLook) : Option (Nat × Nat × Nat) :=
  match b.look with
  | .remote _ _ _ => if taint.contains b.off then some (0x150, b.off, 0) else none
  | .err c st => some (c, b.off, st)
  | .poison _ => some (0x150, b.off, 0)
  | .dev o => if devOk && (o < 0x1010000) then none else some (0x083, b.off, 0)
  | .mem l _ => if s.mem.bad l then some (0x150, b.off, 0) else none
  | _ => none

/-- The byte at an offset of the device aperture: BAR0 below 0x1000000, BAR2 above (R93). -/
def State.devByte (s : State) (o : Nat) : Byte :=
  let w := if o < 0x1000000 then s.barRead 0 (o / 8 * 8) else s.barRead 2 ((o - 0x1000000) / 8 * 8)
  BitVec.ofNat 8 (w.toNat / 2 ^ (8 * (o % 8)))

/-- Why a read cannot end yet, of the bytes below an offset where there is one: the lowest byte that faults, else one whose page
migrates, else the bytes other modules must still send. -/
def openLooks (ls : List ByteLook) (miss : ByteLook → Option (Nat × Nat × Nat)) (below : Option Nat) : Option RdRes :=
  let ls : List ByteLook := match below with | some o => ls.filter fun b => b.off < o | none => ls
  match ls.find? fun b => match b.look with | .fault _ _ _ | .comp _ _ _ _ => true | _ => false with
  | some b => some (.fault b.off)
  | none => match ls.find? fun b => match b.look with | .wait _ => true | _ => false with
    | some b => some (.wait b.off)
    | none => if (ls.filterMap miss).isEmpty then none else some (.remote (ls.filterMap miss))

/-- Reads bytes whose looks are known; got holds the bytes other modules have replied, taint those of them that are poisoned, bad what
they refused; devOk permits the device aperture. A translation error decides (log 34); else the lowest-addressed failing byte, once
the parts below it no longer fault, wait or lie with other modules (R86, R271). -/
def State.readLooks (s : State) (ls : List ByteLook) (got : Tab Byte) (bad : List (Nat × Nat × Nat)) (devOk : Bool)
    (taint : List Nat := []) : RdRes :=
  let refused (b : ByteLook) : Option (Nat × Nat × Nat) := match b.look with
    | .remote _ _ _ => (bad.find? fun x => x.1 == b.off).map fun x => (x.2.1, b.off, x.2.2)
    | _ => none
  let open_ (b : ByteLook) : Option (Nat × Nat × Nat) := match b.look with
    | .remote m ia _ => if (got.get? b.off).isNone then some (b.off, m, ia) else none
    | _ => none
  match ls.findSome? ByteLook.xlat? with
  | some (c, o) => .xlat c o
  | none =>
    match ls.findSome? fun b => (refused b).orElse fun _ => s.rdErr? devOk taint b with
    | some (c, o, st) => (openLooks ls (if bad.isEmpty then open_ else fun _ => none) (some o)).getD (.err c o st)
    | none => (openLooks ls open_ none).getD (.ok (ls.map fun b => match b.look with
        | .mem l _ => s.mem.rd l
        | .dev o => s.devByte o
        | .remote _ _ _ => got.get 0 b.off
        | _ => 0))

/-- The pages a faulting access touches: the lowest byte on each that faults, with its cause and state (R113). -/
def State.faultPages (s : State) (ls : List ByteLook) : List (ByteLook × Nat × Nat) :=
  let fs := ls.filterMap fun b => match b.look with
    | .fault c st _ => some (b, c, st)
    | .comp _ _ _ _ => some (b, 0x085, 2)
    | _ => none
  fs.foldl (fun acc x => if acc.any (fun y => y.1.module == x.1.module
    && (y.1.ia / 4096 == x.1.ia / 4096 || s.pageBase y.1.ia == s.pageBase x.1.ia)) then acc else acc ++ [x]) []

/-- Writes one record for each page a faulting access at va touches; base is the offset of its first byte (R107, R113). -/
def State.recordFaults (s : State) (ctx : Nat) (u : UnitId) (ls : List ByteLook) (va : Word) (a : Acc) (held : Bool)
    (slog n : Nat) (base : Nat := 0) : State :=
  (s.faultPages ls).foldl (fun s x => s.record ctx
    ⟨u, x.2.1, x.2.2, a, held, false, slog, va + BitVec.ofNat 64 (x.1.off - base), x.1.module, x.1.ia, n⟩) s

/-- Sends the reads of the bytes other modules must reply, one packet for each part (R96, R129); va is the address of offset 0. -/
def State.sendReads (s : State) (h : Held) (va : Word) (ls : List ByteLook) (miss : List (Nat × Nat × Nat)) : State :=
  let want := ls.filter fun b => miss.any fun x => x.1 == b.off
  (runs (s.samePart h.unit h.ctx va) ByteLook.target want).foldl (fun st r =>
    let b := (want.find? fun b => b.off == r.1).getD ⟨r.1, .wait 0, 0, 0⟩
    st.sendTo ⟨h.unit, h.ctx, va + BitVec.ofNat 64 r.1, h.id, b.look.kind, some h.id, r.1, false, b.own s.part.module⟩ r.2.1 .read
      r.2.2.1 r.2.2.2 []) s

/-! ### The side log (R110 to R112) -/

/-- Where a unit's side log is kept: a core's own; the copy engine of core c at 4096 + c; retriever r at 1024 + r;
herder h at 2048 + h; the launch scheduler's copy unit at 3072. -/
def UnitId.logKey : UnitId → Nat
  | .core c _ _ => c
  | .copy c _ _ => 4096 + c
  | .retr r _ => 1024 + r
  | .coll c => 2048 + c % 8
  | .sched _ _ _ => 3072
  | .save c _ => c
  | .ring n => 3073 + n

/-- The side log of a unit. -/
def State.sideOf (s : State) (u : UnitId) : List SideEnt := (s.coreAt u.logKey).side

/-- The bytes a side-log entry writes: those of a page where it discards one. -/
def SideEnt.len (e : SideEnt) : Nat := if e.disc = 0 then e.bytes.length else e.disc

/-- Whether an access to n bytes at (module, ia) overlaps a side-log entry. -/
def SideEnt.overlaps (e : SideEnt) (m ia n : Nat) : Bool := e.module == m && ia < e.ia + e.len && e.ia < ia + n

/-- The part of a REMOP that stands for words not known yet (R278), at offset 256: of its target's module, or, while its request block
is not read, of every module, which no module's number names. -/
def anyWords (m : Nat) : Nat × Nat × Nat × Nat := (256, m, 0, 2 ^ 52)
/-- What stands for every module in such a part. -/
def anyModule : Nat := 4096

/-- Whether a held access covers a byte. -/
def Held.covers (h : Held) (m ia : Nat) : Bool :=
  h.parts.any fun p => (p.2.1 == m || p.2.1 == anyModule) && p.2.2.1 ≤ ia && ia < p.2.2.1 + p.2.2.2

/-- Whether a request is a store, which a full side log holds (R110). -/
def MemReq.isStore : MemReq → Bool
  | .store _ _ _ _ => true
  | _ => false

/-- Whether a request writes and has no result: a store, or a PGDISC. -/
def MemReq.isWrite : MemReq → Bool
  | .store _ _ _ _ | .disc _ _ => true
  | _ => false

/-- Whether a held access takes part in the order of its unit's accesses (R123): a bundle fetch and a herder's row do not. -/
def Held.ordered (h : Held) : Bool := match h.req with | .fetch _ | .reply _ => false | _ => true

/-- Whether the accesses of a unit have a program order (R123): those of a task or thread do. -/
def UnitId.inOrder : UnitId → Bool
  | .core _ _ _ | .retr _ _ => true
  | _ => false

/-- Whether a WAITE's read is still the one its task waits with (R261). -/
def State.polls (s : State) (h : Held) : Bool :=
  let waits (t : Task) : Bool := match t.wait with | .reread id _ _ _ _ _ => id == h.id | _ => false
  h.why != .poll || s.tasks.any (fun kt => waits kt.2) || s.offs.any fun o => waits o.task

/-- The packets of a unit that are not acknowledged (R147). -/
def State.sentBy (s : State) (u : UnitId) : List Unacked :=
  (s.e2eSrc.flatMap fun p => p.2.unacked ++ p.2.waiting).filter fun x => x.unit == u

/-- Whether every write of a unit has been performed: none stands in its side log and none awaits its
acknowledgement (R139, R147). -/
def State.unitQuiet (s : State) (u : UnitId) : Bool :=
  !(s.sideOf u).any (fun e => e.unit == u)
    && !s.e2eSrc.any fun p => (p.2.unacked ++ p.2.waiting).any fun x => x.unit == u

/-- What stands before an access of a unit and is not complete: the entries of its side log, its held accesses and its packets
without an acknowledgement, and its register stores that wait at the host interface (R93); whether a FENCE stands between (R132);
whether a store of its log is held for want of an entry (R110); whether one of them writes host memory (R149). -/
structure Older where
  side : List SideEnt
  held : List Held
  sent : List Unacked
  dev : List BarAcc
  fenced : Bool
  stuck : Bool
  host : Bool
deriving DecidableEq, Repr

/-- What stands before access number k of a unit (R111, R123, R128, R132). -/
def State.older (s : State) (u : UnitId) (k : Nat) : Older :=
  let side := (s.sideOf u).filter fun e => e.seq < k
  let held := s.held.filter fun h => u.inOrder && h.unit == u && h.id < k && h.ordered && s.polls h
  let sent := (s.sentBy u).filter fun x => x.id < k
  let dev := s.barq.filter fun a => a.unit == u && a.id < k
  let fenced := (s.coreAt u.logKey).fences.any fun f => f.1 == u && f.2 < k
    && (side.any (fun e => e.seq < f.2) || held.any (fun h => h.id < f.2) || sent.any (fun x => x.id < f.2)
      || dev.any fun a => a.id < f.2)
  let hosts (m ia : Nat) : Bool := m == s.part.module && (s.lookIA ia .read).onHost
  ⟨side, held, sent, dev, fenced, s.held.any fun h => h.req.isStore && h.unit.logKey == u.logKey && h.id < k,
    side.any (fun e => e.unit == u && hosts e.module e.ia) || held.any fun h => h.req.isStore && h.parts.any fun p => hosts p.2.1 p.2.2.1⟩

/-- Whether nothing stands before an access. -/
def Older.clear (o : Older) : Bool := o.side.isEmpty && o.held.isEmpty && o.sent.isEmpty && o.dev.isEmpty && !o.stuck

/-- Whether a byte of an access must wait for what stands before it (R111, R128, R132, R147): a FENCE between; bytes that overlap;
an acquire not yet performed, for S and R pages; for an S page, the side log, every held access, a register store, and packets to S
pages that travel elsewhere; for host memory, a write to host memory (R149); for a release, everything. -/
def Older.blocks (o : Older) (rel : Bool) (b : ByteLook) : Bool :=
  let toS := b.look.kind == 0
  let to_ := match b.look with | .remote m _ _ => some m | _ => none
  o.fenced || o.stuck
    || o.side.any (fun e => e.overlaps b.module b.ia 1)
    || o.held.any (fun h => h.covers b.module b.ia || (h.acq && b.look.kind != 2))
    || ((rel || toS) && (!o.side.isEmpty || !o.held.isEmpty || !o.dev.isEmpty))
    || (o.host && b.look.onHost)
    || (toS && o.sent.any fun x => x.kind == 0 && to_ != some x.pkt.dst)
    || (rel && !o.sent.isEmpty)

/-- Whether a new access of a unit to a byte must wait. -/
def State.waits (s : State) (u : UnitId) (rel : Bool) (b : ByteLook) : Bool := (s.older u s.nextId).blocks rel b

/-- Whether a unit has accesses to other modules that are not acknowledged (R147). -/
def State.unacked (s : State) (u : UnitId) : Bool := !(s.sentBy u).isEmpty

/-- The lowest free entry number of a side log. -/
def freeIdx (l : List SideEnt) : Nat := ((upFrom 0 1024).find? fun i => !l.any fun e => e.idx == i).getD 1023

/-- Appends an entry to a unit's side log. -/
def State.logSide (s : State) (u : UnitId) (e : SideEnt) : State :=
  let c := s.coreAt u.logKey
  s.setCoreAt u.logKey { c with side := c.side ++ [e] }

/-! ### Kicks (R392) -/

/-- The 8-byte word of this module's memory at an IA whose page is served. -/
def State.wordAt (s : State) (ia : Nat) : Word :=
  BitVec.ofNat 64 (ofBytes ((upFrom ia 8).map fun a => match s.lookIA a .write with
    | .mem l _ => s.mem.rd l
    | _ => 0))

/-- Queues a kick in an inbox: a new packet, or merged into the newest when 64 wait (R392). -/
def kickInbox (q : List RPkt) (src unit unitk : Nat) (old new : Word) : List RPkt :=
  if q.length < 64 then
    let id := ((upFrom 0 65).find? fun i => !q.any fun p => p.id == i).getD 64
    q ++ [⟨id, false, src, unit, unitk, old, new, 1, [], 0, none, 0⟩]
  else match q.reverse with
    | p :: r => (({ p with new := new, count := p.count + 1 }) :: r).reverse
    | [] => []

/-- Kicks every thread 1 to 7 whose RTKICK word a write of this module touched, whatever its state (R392): `before` is the state before
the write, ias its bytes' IAs. -/
def State.kick (s before : State) (src : Nat) (u : Nat × Nat) (ias : List Nat) : State :=
  s.rts.foldl (fun s rt =>
    let k := rt.2.kick
    let ia := k.f 51 3 * 8
    if k.b 63 && rt.1 % 8 != 0 && ias.any (fun a => ia ≤ a && a < ia + 8) then
      { s with rts := s.rts.put rt.1 { rt.2 with inbox := kickInbox rt.2.inbox src (u.1 / 16) u.2 (before.wordAt ia) (s.wordAt ia) } }
    else s) s

/-! ### Writes -/

/-- What becomes of one byte of a write: written, logged (quietly, or with a fault), refused, sent to a device
register, or sent to another module. -/
inductive WClass where
  | write
  | quiet
  | log
  | fail (cause st : Nat)
  | dev
  | remote (m : Nat)
deriving DecidableEq, Repr

/-- Whether a byte's write is refused. -/
def WClass.isFail : WClass → Bool
  | .fail _ _ => true
  | _ => false

/-- The class of one byte of a write (R106, R110, R111, R128, R147). devOk permits the device aperture. -/
def State.wClass (_s : State) (o : Older) (devOk rel : Bool) (b : ByteLook) : WClass :=
  match b.look with
  | .xlat c => .fail c 0
  | .err c st => .fail c st
  | .dev x => if devOk && (x < 0x1010000) then (if o.blocks rel b then .quiet else .dev) else .fail 0x083 0
  | .poison _ => .fail 0x151 6
  | .fault _ _ _ | .comp _ _ _ _ | .zeros _ => .log
  | .wait _ => .quiet
  | .mem _ _ => if o.blocks rel b then .quiet else .write
  | .remote m _ _ => if o.blocks rel b then .quiet else .remote m

/-- One maximal run of bytes of a write of one class and one part. -/
structure WRun where
  cls : WClass
  off : Nat
  looks : List ByteLook
deriving DecidableEq, Repr

/-- Adds a byte to the runs of a write, the latest first; a side-log entry is one page part of at most 256 bytes (R110). -/
def addWRun (same : ByteLook → ByteLook → Bool) (acc : List WRun) (x : WClass × ByteLook) : List WRun :=
  match acc with
  | r :: rest =>
    let l := r.looks.getLastD x.2
    if r.cls = x.1 ∧ r.off + r.looks.length = x.2.off ∧ same l x.2 = true
        ∧ (x.1.isFail = true ∨ (l.module = x.2.module ∧ l.ia + 1 = x.2.ia ∧ l.target.1 = x.2.target.1 ∧ l.target.2 + 1 = x.2.target.2))
        ∧ r.looks.length % 256 ≠ 0
    then { r with looks := r.looks ++ [x.2] } :: rest
    else ⟨x.1, x.2.off, [x.2]⟩ :: acc
  | [] => [⟨x.1, x.2.off, [x.2]⟩]

/-- A report of a failing part: its cause and TRAPVAL, the virtual address of its first byte with the target's page
state for 0x089 (R219). -/
def memTval (cause st : Nat) (va : Word) : Word :=
  BitVec.ofNat 64 (va.toNat % 2 ^ 57 + (if cause = 0x089 then st * 2 ^ 57 else 0))

/-- Marks the lines of poisoned bytes that were written (R451). -/
def Mem.taint (m : Mem) (ls : List (Loc × Bool)) : Mem :=
  let new := (ls.filter (·.2)).map fun l => (l.1.at_.1, l.1.at_.2 / 64 * 64)
  { m with poison := (m.poison ++ new).eraseDups }

/-- Takes the numbers of the module's accesses up to k. -/
def State.numbered (s : State) (k : Nat) : State := { s with nextId := Nat.max s.nextId (k + 1) }

/-- Queues a unit's register store, as access number k, at the host interface (R93, R149). -/
def State.toBar (s : State) (u : UnitId) (k o : Nat) (data : List Byte) : State :=
  let w := BitVec.ofNat 64 (ofBytes data)
  let a : BarAcc := if o < 0x1000000 then ⟨u, k, 0, o, w⟩ else ⟨u, k, 2, o - 0x1000000, w⟩
  { s with barq := s.barq ++ [a] }

/-- Performs one run of a write, access number k: memory takes its bytes; a log entry keeps them, with a record unless it is quiet; a
device register access is queued; a packet leaves. What fails is reported (R108, R110). bad: the offsets of the poisoned bytes, whose
poison goes with them (R451). -/
def State.writeRun (s : State) (ctx : Nat) (u : UnitId) (va : Word) (bs : List Byte) (bad : List Nat) (rel : Bool) (k : Nat) (r : WRun) :
    State × List Report :=
  let data := (bs.drop r.off).take r.looks.length
  let ill := (bad.filter fun i => r.off ≤ i && i < r.off + r.looks.length).map (· - r.off)
  let va' := va + BitVec.ofNat 64 r.off
  let b := r.looks.headD ⟨0, .wait 0, 0, 0⟩
  match r.cls with
  | .write =>
    let locs := r.looks.filterMap fun (b : ByteLook) => b.look.loc?
    let m := s.mem.wrAll (locs.zip data)
    let s' := { s with mem := if ill.isEmpty then m else m.taint ((locs.zip (upFrom 0 locs.length)).map fun (x : Loc × Nat) => (x.1, ill.contains x.2)) }
    (s'.kick s s.part.module u.pkt (r.looks.map ByteLook.ia), [])
  | .quiet =>
    ((s.numbered k).logSide u ⟨freeIdx (s.sideOf u), k, ctx, u, va', b.module, b.ia, data, b.look.kind, false, true, rel, 0, ill⟩, [])
  | .log =>
    let i := freeIdx (s.sideOf u)
    let s := (s.numbered k).logSide u ⟨i, k, ctx, u, va', b.module, b.ia, data, b.look.kind, false, false, rel, 0, ill⟩
    let ls := r.looks.map fun b => match b.look with
      | .zeros k => { b with look := .fault 0x084 3 k }
      | _ => b
    (s.recordFaults ctx u ls va .write false i bs.length, [])
  | .fail c st => (s, [⟨c, memTval c st va'⟩])
  | .dev => ((s.numbered k).toBar u k (b.ia - 0xFFFF000000000) data, [])
  | .remote m =>
    ((s.numbered k).sendTo ⟨u, ctx, va', k, b.look.kind, none, 0, false, b.own s.part.module⟩ m
      (if ill.isEmpty then .write else .poisoned ill) b.target.2 data.length data, [])

/-- The single-copy atomic unit of a write of n bytes at va in which the byte at an offset lies (R126): its first offset and its length:
an aligned access of at most 8 bytes whole, else an aligned word that it writes in full, else the byte. -/
def atomUnit (va n off : Nat) : Nat × Nat :=
  if n ≤ 8 ∧ n ≠ 0 ∧ va % n = 0 then (0, n)
  else
    let w := (va + off) / 4 * 4
    if va ≤ w ∧ w + 4 ≤ va + n then (w - va, 4) else (off, 1)

/-- The classes of a write's bytes where a unit of single-copy atomicity of which a part must wait waits whole (R126). -/
def wholeUnits (va : Nat) (cs : List WClass) : List WClass :=
  (cs.zip (upFrom 0 cs.length)).map fun x => match x.1 with
    | .write | .dev | .remote _ =>
      let u := atomUnit va cs.length x.2
      if ((cs.drop u.1).take u.2).contains .quiet then .quiet else x.1
    | c => c

/-- The runs of a write whose bytes have these looks, in ascending order. -/
def State.writeRuns (s : State) (ctx : Nat) (u : UnitId) (va : Word) (devOk rel : Bool) (k : Nat) (ls : List ByteLook) : List WRun :=
  let o := s.older u k
  (((wholeUnits va.toNat (ls.map (s.wClass o devOk rel))).zip ls).foldl (addWRun (s.samePart u ctx va)) []).reverse

/-- Whether access number k of a unit may still fail in a part: one is logged, or with another module. -/
def State.partOut (s : State) (u : UnitId) (k : Nat) : Bool :=
  (s.sideOf u).any (fun e => e.unit == u && e.seq == k) || (s.sentBy u).any fun x => x.id == k

/-- Writes bytes whose looks are known, as access number k (R44): its parts, in ascending order, each by its own class; devOk
permits the device aperture, rel makes it a release. One report for each part that fails, in ascending address order: one above a
part that may still fail waits for it (R86). -/
def State.writeLooks (s : State) (ctx : Nat) (u : UnitId) (va : Word) (bs : List Byte) (devOk rel : Bool) (k : Nat)
    (ls : List ByteLook) (bad : List Nat := []) : State × List Report :=
  let pair (r : WRun) : Nat := (s.ctxAt ctx).pairRun va r.off
  let r := (s.writeRuns ctx u va devOk rel k ls).foldl (fun (acc : State × List Report × List Nat) r =>
    let x := acc.1.writeRun ctx u va bs bad rel k r
    if r.cls.isFail then
      if acc.2.2.contains (pair r) then acc
      else if x.1.partOut u k then ({ x.1 with repWait := x.1.repWait ++ x.2.map fun y => (u, k, y) }, acc.2.1, acc.2.2 ++ [pair r])
      else (x.1, acc.2.1 ++ x.2, acc.2.2 ++ [pair r])
    else (x.1, acc.2)) (s.demote u ctx ls, [], [])
  (r.1, r.2.1)

/-- Writes bytes at a virtual address (R44). -/
def State.writeVA (s : State) (ctx : Nat) (u : UnitId) (va : Word) (bs : List Byte) (devOk rel : Bool) (bad : List Nat := []) :
    State × List Report :=
  s.writeLooks ctx u va bs devOk rel s.nextId (s.looks u ctx va bs.length .write) bad

/-- Whether a unit's side log has no entry for a write (R110): all 64 hold accesses, or fewer are free than the write has
parts to log. -/
def State.noRoom (s : State) (u : UnitId) (ctx : Nat) (va : Word) (rel : Bool) (k : Nat) (ls : List ByteLook) : Bool :=
  let n := (s.sideOf u).length
  64 ≤ n || (n != 0 && 64 < n + ((s.writeRuns ctx u va true rel k ls).filter fun r => r.cls == .quiet || r.cls == .log).length)

/-- Appends imprecise reports to a task (R108, R220). -/
def State.reportTo (s : State) (core slot : Nat) (rs : List Report) : State :=
  if rs.isEmpty then s
  else
    let t := s.taskAt core slot
    s.setTaskAt core slot { t with reports := t.reports ++ rs }

/-- Reports an access error of a task's write to the task, also where it has left its core (R108). -/
def State.reportTask (s : State) (core slot kernel : Nat) (r : Report) : State :=
  s.onTask core slot kernel fun t => { t with reports := t.reports ++ [r] }

/-! ### Atomics (R127, R274 to R276) -/

/-- The new value of an atomic, none where nothing is written: op 0 add, 1 saturating add, 2 min, 3 max, 4 and, 5 or,
6 exchange, 7 compare and swap (the expected value in e), 8 the DONE add; old and v are n-bit values. -/
def atomNew (op n old v e : Nat) : Option Nat :=
  let so := sext old n
  let sv := sext v n
  let hi : Int := (2 ^ (n - 1) : Nat) - 1
  let lo : Int := -((2 ^ (n - 1) : Nat) : Int)
  match op with
  | 0 => some ((old + v) % 2 ^ n)
  | 1 => some (wrap (max lo (min hi (so + sv))) n)
  | 2 => some (if so ≤ sv then old else v)
  | 3 => some (if so ≤ sv then v else old)
  | 4 => some (old &&& v)
  | 5 => some (old ||| v)
  | 6 => some v
  | _ => if old = e then some v else none

/-- Whether an atomic may go to a host-tier page: add, exchange and compare and swap (R276). -/
def hostAtomic (op : Nat) : Bool := op == 0 || op == 6 || op == 7 || op == 9

/-- Performs an atomic on bytes whose places are known: the old bytes, and memory with the new ones where it writes (R127). op 9 is
the two-word compare and swap, with ops the expected pair and the new pair (R275). -/
def Mem.atomic (m : Mem) (op : Nat) (ls : List Loc) (ops : List Word) : List Byte × Option Mem :=
  let old := ls.map m.rd
  let n := 8 * ls.length
  let o := ofBytes old
  let a := ((ops.getD 0 0).toNat) % 2 ^ n
  let e := ((ops.getD 1 0).toNat) % 2 ^ n
  let new := if op = 9 then
      if o = (ops.getD 0 0).toNat + (ops.getD 1 0).toNat * 2 ^ 64
      then some ((ops.getD 2 0).toNat + (ops.getD 3 0).toNat * 2 ^ 64) else none
    else atomNew op n o a e
  match new with
  | some x => (old, some (m.wrAll (ls.zip (toBytes ls.length x))))
  | none => (old, none)

/-- Memory after an atomic of this module, and the kicks of its write where it makes one (R127, R392). -/
def State.atomicDone (s : State) (m : Option Mem) (src : Nat) (u : Nat × Nat) (ias : List Nat) : State :=
  match m with
  | some m => { s with mem := m }.kick s src u ias
  | none => s

end Sys2Proof.Machine
end

