-- ==== Sys2Proof/Machine/Pages.lean ====
section
/-! DEFINITION. Leaves changed by hardware, the translated pieces of a range, and the discard of pages (R98, R104, R105, R119). -/

namespace Sys2Proof.Machine

/-! ### Leaves changed by hardware (R98, R104) -/

/-- The places of every copy of the leaf of an IA, read from `at_`, in ascending address order. -/
def leafCopies (e : Word) (at_ ia : Nat) : List Nat :=
  (upFrom 0 (leafSize e / leafSpan e)).map fun k => at_ - 8 * (ia % leafSize e / leafSpan e) + 8 * k

/-- Changes a leaf at every copy by compare-and-swap (R104): a copy that differs drops the change and restores the copies
before it; the page's cached translations are dropped. Whether it was made. -/
def State.swapLeaf (s : State) (e new : Word) (at_ ia : Nat) : State × Bool :=
  let cs := leafCopies e at_ ia
  if cs.all fun a => s.mem.dramWord a == e then
    let w (m : Mem) (a : Nat) : Mem := m.wrAll ((upFrom a 8).map Loc.dram |>.zip (toBytes 8 new.toNat))
    (({ s with mem := cs.foldl w s.mem }).uncache (ia / leafSize e * leafSize e) (ia / leafSize e * leafSize e + leafSize e), true)
  else (s.uncache (ia / leafSize e * leafSize e) (ia / leafSize e * leafSize e + leafSize e), false)

/-! ### Ranges (R86, R119, R120) -/

/-- The ends of the range pairs of a context that matter between two addresses. -/
def Ctx.edges (c : Ctx) (lo hi : Nat) : List Nat :=
  (upFrom 0 16).flatMap fun n =>
    let v := c.range.get 0 (2 * n)
    let l := v.f 11 6
    if v.b 63 ∧ 12 ≤ l ∧ l ≤ 52 then
      let b := v.f 56 12 * 4096 / 2 ^ l * 2 ^ l
      [b, b + 2 ^ l].filter fun x => lo < x && x < hi
    else []

/-- A virtual range cut where its translation can change: address and length of each piece. -/
def cutAt : Nat → List Nat → Nat → Nat → List (Nat × Nat)
  | 0, _, _, _ => []
  | k + 1, es, lo, hi =>
    if hi ≤ lo then []
    else
      let e := es.foldl (fun m x => if lo < x then Nat.min m x else m) hi
      (lo, e - lo) :: cutAt k es e hi

/-- The pieces of a virtual range with their translations. -/
def State.pieces (s : State) (ctx lo hi need : Nat) : List (Nat × Nat × Except Nat (Nat × Nat)) :=
  (cutAt 34 ((s.ctxAt ctx).edges lo hi) lo hi).map fun p => (p.1, p.2, s.translate ctx (BitVec.ofNat 64 p.1) need)

/-- The translated runs of a range: virtual address, module, IA, length; adjacent pieces that run on are one. -/
def joinPieces : List (Nat × Nat × Except Nat (Nat × Nat)) → List (Nat × Nat × Nat × Nat)
  | [] => []
  | (va, n, .ok (m, ia)) :: rest => match joinPieces rest with
    | (va', m', ia', n') :: t => if m = m' ∧ ia + n = ia' ∧ va + n = va' then (va, m, ia, n + n') :: t
        else (va, m, ia, n) :: (va', m', ia', n') :: t
    | [] => [(va, m, ia, n)]
  | (_, _, .error _) :: rest => joinPieces rest

/-! ### Discarding pages (R105, R119) -/

/-- A page of this module that lies wholly in a range: its address, its leaf and the address of the entry it was read from. -/
structure WholePage where
  base : Nat
  leaf : Word
  at_ : Nat
deriving DecidableEq, Repr

/-- The pages wholly inside [lo, hi) of this module from IA ia on, ring and device aperture excepted, k steps at most. -/
def State.wholePages (s : State) (lo hi : Nat) : Nat → Nat → List WholePage
  | 0, _ => []
  | k + 1, ia =>
    if hi ≤ ia ∨ 0xFFFF000000000 ≤ ia then []
    else if ia < 0x10000000 then s.wholePages lo hi k (Nat.max (ia + 4096) (Nat.min hi 0x10000000))
    else match s.walk ia with
      | .leaf e a =>
        let p := leafSize e
        let base := ia / p * p
        let rest := s.wholePages lo hi k (base + p)
        if lo ≤ base ∧ base + p ≤ hi then ⟨base, e, a - 8 * ((ia - base) / leafSpan e)⟩ :: rest else rest
      | _ => s.wholePages lo hi k (ia / 4096 * 4096 + 4096)

/-- The pages wholly inside [ia, ia + n) of this module. -/
def State.pagesIn (s : State) (ia n : Nat) : List WholePage := s.wholePages ia (ia + n) (n / 4096 + 2) ia

/-- Discards one page of this module (R104, R105, R119): a MIGRATING page when its migration completes. -/
def State.discard (s : State) (p : WholePage) : State :=
  match p.leaf.f 61 59 with
  | 0 | 2 | 6 => (s.swapLeaf p.leaf (p.leaf.setF 61 59 3) p.at_ p.base).1
  | 1 => { s with migs := s.migs.map fun m => if m.2.busy = true ∧ m.2.at_ = p.at_ then (m.1, { m.2 with discard := true }) else m }
  | _ => s

/-- Discards the pages wholly inside [ia, ia + n) of this module. -/
def State.discardRange (s : State) (ia n : Nat) : State := (s.pagesIn ia n).foldl State.discard s

/-- Discards the pages of a range for a unit, as access number id (R119): a MIGRATING page also takes an entry of the unit's side
log, behind which the unit's later accesses to it wait as behind a store. -/
def State.discardFor (s : State) (u : UnitId) (ctx : Nat) (va : Word) (id ia n : Nat) : State :=
  (s.pagesIn ia n).foldl (fun s p =>
    let s := s.discard p
    if p.leaf.f 61 59 = stMigrating then
      s.logSide u ⟨freeIdx (s.sideOf u), id, ctx, u, va + BitVec.ofNat 64 (p.base - ia), s.part.module, p.base, [], p.leaf.f 54 53,
        false, true, false, leafSize p.leaf, []⟩
    else s) s

end Sys2Proof.Machine
end

