-- ==== Sys2Proof/Machine/Access.lean ====
section
/-! DEFINITION. Accesses with a result: loads, gathers, atomics, remote operations; holding, retrying and answering them
(R106 to R111, R176, R221, R271 to R278). -/

namespace Sys2Proof.Machine

/-! ### Remote operations at their retriever (R277, R278) -/

/-- The fields of a request block: OP, N and X (R277). -/
structure RemopBlk where
  op : Nat
  rsv : Nat
  n : Nat
  x : Word
  exp : List Word
  new : List Word
deriving DecidableEq, Repr

/-- The 8-byte word at an offset of a byte string. -/
def wordOf (bs : List Byte) (off : Nat) : Word := BitVec.ofNat 64 (ofBytes ((bs.drop off).take 8))

/-- Reads a request block (R277). -/
def remopBlk (bs : List Byte) : RemopBlk where
  op := (wordOf bs 0).f 63 60
  rsv := (wordOf bs 0).f 59 5
  n := (wordOf bs 0).f 4 0
  x := wordOf bs 8
  exp := (upFrom 0 4).map fun k => wordOf bs (8 + 8 * k)
  new := (upFrom 0 4).map fun k => wordOf bs (40 + 8 * k)

/-- Whether a block's OP, N and X are in range (R277). -/
def RemopBlk.ok (b : RemopBlk) : Bool :=
  b.rsv == 0 && match b.op with
    | 0 | 2 => b.n == 0
    | 1 => 1 ≤ b.n && b.n ≤ 4
    | 3 => 1 ≤ b.n && b.n ≤ 16 && b.x.toNat % 8 == 0 && b.x.toNat < 2 ^ 16
    | _ => false

/-- The bytes a remote operation's target covers (R278). -/
def RemopBlk.size (b : RemopBlk) : Nat := match b.op with | 1 => 8 * b.n | 2 => 16 | _ => 8

/-- The alignment of a remote operation's target (R278). -/
def RemopBlk.align (b : RemopBlk) : Nat := match b.op with | 1 => 32 | 2 => 16 | _ => 8

/-- What performing a remote operation gives: the reply, the REPLY bytes, the words that other modules must store (module, IA,
value), and the IAs written; or why it is not performed; or the word of another module that it needs first, with the offset its
bytes take in the access. -/
inductive RemopRes where
  | done (reply : Word) (bytes : List Byte) (out : List (Nat × Nat × Word × Option Nat)) (ias : List Nat)
  | fail (cause st : Nat)
  | fault (cause st ia : Nat)
  | wait
  | away (m ia off own : Nat)
deriving DecidableEq, Repr

/-- How a retriever finds a byte: for an access of this module or for one of module m (R106, R116). -/
abbrev Finder := Nat → Acc → Look

/-- The place of one byte for an atomic, a REMOP or a row of a queue, or why there is none (R93, R106, R452); host permits a
host-tier page (R276). -/
def State.place (s : State) (find : Finder) (host : Bool) (x : Nat) (a : Acc) : Except RemopRes Loc :=
  match find x a with
  | .mem (.host y) _ => if !host then .error (.fail 0x083 0) else if s.mem.bad (.host y) then .error (.fail 0x150 0) else .ok (.host y)
  | .mem l _ => if s.mem.bad l then .error (.fail 0x150 0) else .ok l
  | .fault c st _ => .error (.fault c st x)
  | .comp _ _ _ _ => .error (.fault 0x085 2 x)
  | .zeros _ => .error (.fault 0x084 3 x)
  | .wait _ => .error .wait
  | .err c st => .error (.fail c st)
  | .poison _ => .error (.fail (if a.reads then 0x150 else 0x151) 6)
  | .dev _ => .error (.fail 0x083 0)
  | .remote _ _ _ => .error (.fail 0x089 5)
  | .xlat c => .error (.fail c 0)

/-- The places of the n bytes at an IA, or why there are none: the lowest byte without one decides. -/
def State.places (s : State) (find : Finder) (ia n : Nat) (a : Acc) (host : Bool := false) : Except RemopRes (List Loc) :=
  (upFrom ia n).foldr (fun x acc => match s.place find host x a, acc with
    | .error e, _ => .error e
    | .ok _, .error e => .error e
    | .ok l, .ok ls => .ok (l :: ls)) (.ok [])

/-- Reads the word at known places. -/
def Mem.word (m : Mem) (ls : List Loc) : Word := BitVec.ofNat 64 (ofBytes (ls.map m.rd))

/-- Writes a word at known places. -/
def Mem.setWord (m : Mem) (ls : List Loc) (w : Word) : Mem := m.wrAll (ls.zip (toBytes 8 w.toNat))

/-- The offset in a REMOP's access of the word that its hop h reads on another module. -/
def chaseOff (h : Nat) : Nat := 512 + 8 * h

/-- CHASE (R278): follows links from p while hops remain: the hops made, why it stopped, and where. Each link is looked up as a REMOP's
word (R106). A link on a page that is BORROWED is read from its lender first: got holds what the lenders have sent. -/
def State.chase (s : State) (find : Finder) (got : Tab Byte) (x : Nat) : Nat → Nat → Nat → Except RemopRes (Nat × Nat × Nat)
  | 0, h, p => .ok (h, 0, p)
  | k + 1, h, p =>
    let go (q : Nat) : Except RemopRes (Nat × Nat × Nat) :=
      if q = 0 then .ok (h + 1, 1, p)
      else if q / 2 ^ 52 ≠ s.part.module then .ok (h + 1, 2, p)
      else if 0xFFFF000000000 ≤ q % 2 ^ 52 then .ok (h + 1, 3, p)
      else s.chase find got x k (h + 1) q
    let t := (p + x) % 2 ^ 52
    match find t .atomic with
    | .remote m ia _ =>
      if (got.get? (chaseOff h)).isSome then go (ofBytes (got.getMany 0 (chaseOff h) 8)) else .error (.away m ia (chaseOff h) t)
    | _ => match s.places find t 8 .atomic with
      | .error e => .error e
      | .ok ls => go (s.mem.word ls).toNat

/-- Performs a remote operation on this module's memory (R278). t is the target IA; node the fabric address of ENQ's
node. -/
def State.performRemop (s : State) (find : Finder) (got : Tab Byte) (b : RemopBlk) (t node : Nat) : State × RemopRes :=
  let stop (e : RemopRes) : State × RemopRes := (s, e)
  match b.op with
  | 0 =>
    match s.places find t 8 .atomic with
    | .error e => stop e
    | .ok ls =>
      let old := s.mem.word ls
      ({ s with mem := s.mem.setWord ls (old + b.x) }, .done old [] [] (upFrom t 8))
  | 1 =>
    match s.places find t (8 * b.n) .atomic with
    | .error e => stop e
    | .ok ls =>
      let olds := (upFrom 0 b.n).map fun k => s.mem.word ((ls.drop (8 * k)).take 8)
      let eqs := (upFrom 0 b.n).map fun k => olds.getD k 0 == b.exp.getD k 0
      let m := ((eqs.zip (upFrom 0 b.n)).map fun x => b2n x.1 * 2 ^ x.2).foldl (· + ·) 0
      let hit := eqs.all id
      let mem := if hit then
          (upFrom 0 b.n).foldl (fun mm k => mm.setWord ((ls.drop (8 * k)).take 8) (b.new.getD k 0)) s.mem
        else s.mem
      ({ s with mem := mem },
        .done (BitVec.ofNat 64 m) (olds.flatMap fun w => toBytes 8 w.toNat) [] (if hit then upFrom t (8 * b.n) else []))
  | 2 =>
    match s.places find t 16 .atomic, s.places find (node % 2 ^ 52) 8 .write with
    | .error e, _ => stop e
    | _, .error e => stop e
    | .ok ls, .ok ns =>
      let old := s.mem.word (ls.drop 8)
      let x := BitVec.ofNat 64 node
      let linked (m : Mem) (ia : Nat) (out : List (Nat × Nat × Word × Option Nat)) (ias : List Nat) : State × RemopRes :=
        ({ s with mem := m.setWord (ls.drop 8) x }, .done old [] out (upFrom ia 8 ++ ias ++ upFrom (t + 8) 8))
      let m := s.mem.setWord ns 0
      let nia := node % 2 ^ 52
      if old = 0 then linked (m.setWord (ls.take 8) x) nia [] (upFrom t 8)
      else if old.f 63 52 ≠ s.part.module then
        if s.cabled (old.f 63 52) then linked m nia [(old.f 63 52, old.f 51 0, x, none)] [] else stop (.fail 0x088 0)
      else match find (old.f 51 0) .write with
        | .remote om oia _ => linked m nia [(om, oia, x, some (old.f 51 0))] []
        | _ => match s.places find (old.f 51 0) 8 .write with
          | .error e => stop e
          | .ok os => linked (m.setWord os x) nia [] (upFrom (old.f 51 0) 8)
  | _ =>
    match s.chase find got b.x.toNat b.n 0 (s.part.module * 2 ^ 52 + t) with
    | .error e => stop e
    | .ok (h, why, p) => (s, .done (BitVec.ofNat 64 p) (toBytes 8 h ++ toBytes 8 why) [] [])

/-- What follows a remote operation that has been performed: the kicks of its writes, and its stores on other modules, which unit u
sends, under the lease of the BORROWED leaf that forwards them, if any (R278, R392, R397). -/
def State.remopDone (s before : State) (u : UnitId) (ctx src : Nat) (from_ : Nat × Nat)
    (out : List (Nat × Nat × Word × Option Nat)) (ias : List Nat) : State :=
  out.foldl (fun s x =>
    let (id, s) := s.freshId
    s.sendTo ⟨u, ctx, 0, id, 0, none, 0, false, x.2.2.2⟩ x.1 .write x.2.1 8 (toBytes 8 x.2.2.1.toNat)) (s.kick before src from_ ias)

/-! ### Serving an access (R106, R111, R271) -/

/-- What becomes of a request: its result, or the bytes of several results (R303), a translation error (precise), a memory-side error (late), or a hold, with the access
as it stands. -/
inductive Served where
  | done (img : VReg)
  | bytes (bs : List Byte)
  | xlat (cause : Nat) (tval : Word)
  | fail (cause : Nat) (tval : Word)
  | hold (h : Held)
deriving DecidableEq, Repr

/-- An access held for a reason, at an IA. -/
def Held.for_ (h : Held) (why : HoldWhy) (ia : Nat) : Served := .hold { h with why := why, ia := ia }

/-- The image of bytes, the first in bits [7:0]. -/
def imgBytes (bs : List Byte) : VReg := BitVec.ofNat 2048 (ofBytes bs)

/-- A loaded value extended to 64 bits (R269, R270). -/
def extendLoad (bs : List Byte) (zx : Bool) : Word :=
  if zx then BitVec.ofNat 64 (ofBytes bs) else toWord (sext (ofBytes bs) (8 * bs.length))

/-- Whether an access may reach the device aperture: an 8-byte, 8-byte-aligned scalar access of a core (R93). -/
def devOk (u : UnitId) (va : Word) (n : Nat) : Bool :=
  n == 8 && va.toNat % 8 == 0 && match u with | .core _ _ _ => true | _ => false

/-- The virtual addresses a request names: the offset in the access, the address and the length of each run; a range that PGDISC
discards is placed by itself. -/
def MemReq.spans : MemReq → List (Nat × Word × Nat)
  | .load va n _ | .ldh _ va n _ _ | .raw va n | .atomic _ va n _ => [(0, va, n)]
  | .gather w _ lanes => (lanes.zip (upFrom 0 lanes.length)).map fun x => (8 * x.2, x.1, w / 8)
  | .drain lanes => (lanes.zip (upFrom 0 lanes.length)).map fun x => (32 * x.2, x.1, 32)
  | .noise lanes _ => (lanes.zip (upFrom 0 lanes.length)).map fun x => (2 * x.2, x.1, 2)
  | .remop _ gv => [(0, gv, 128)]
  | .waite va => [(0, va, 8)]
  | .launch va _ => [(0, va, 160)]
  | .fetch va => [(0, va, 16)]
  | .store va bs _ _ => [(0, va, bs.length)]
  | .doneAdd va => [(0, va, 8)]
  | .reply _ | .disc _ _ => []

/-- The kind of the access a request makes. -/
def MemReq.acc : MemReq → Acc
  | .atomic _ _ _ _ | .doneAdd _ => .atomic
  | .fetch _ => .fetch
  | .store _ _ _ _ | .disc _ _ => .write
  | _ => .read

/-- The bytes a request names, with their translation at issue (R86): an error stands as their look, and so does an address that a
retriever's window refuses (R389). -/
def State.placed (s : State) (h : Held) : List ByteLook :=
  let a := h.req.acc
  h.req.spans.flatMap fun (o, va, n) => (upFrom 0 n).map fun i =>
    match s.xlate h.unit h.ctx (va + BitVec.ofNat 64 i) a.need with
    | .error c => ⟨o + i, .xlat c, 0, 0⟩
    | .ok (m, ia) => ⟨o + i, if s.lookOut h.unit m ia a then .xlat 0x089 else .wait 0, m, ia⟩

/-- An access with its parts (R91); a REMOP's words are not known until its block is read. -/
def State.withParts (s : State) (h : Held) : Held :=
  let bs := (s.placed h).filter fun b => b.xlat?.isNone
  let part (x : Nat × Word × Nat) : List (Nat × Nat × Nat × Nat) :=
    runs (s.samePart h.unit h.ctx (x.2.1 - BitVec.ofNat 64 x.1)) (fun b => (b.module, b.ia))
      (bs.filter fun b => x.1 ≤ b.off && b.off < x.1 + x.2.2)
  { h with parts := h.req.spans.flatMap part ++ (match h.req with | .remop _ _ => [anyWords anyModule] | _ => []) }

/-- The address of the byte at an offset of a request. -/
def MemReq.addr (r : MemReq) (off : Nat) : Word :=
  match r with
  | .load va _ _ | .ldh _ va _ _ _ | .raw va _ | .fetch va | .atomic _ va _ _ | .waite va | .launch va _
  | .store va _ _ _ | .disc va _ | .doneAdd va =>
    va + BitVec.ofNat 64 off
  | .reply _ => 0
  | .gather _ _ lanes => lanes.getD (off / 8) 0 + BitVec.ofNat 64 (off % 8)
  | .drain lanes => lanes.getD (off / 32) 0 + BitVec.ofNat 64 (off % 32)
  | .noise lanes _ => lanes.getD (off / 2) 0 + BitVec.ofNat 64 (off % 2)
  | .remop va gv => if off < 128 then gv + BitVec.ofNat 64 off else va + BitVec.ofNat 64 (off - 128)

/-- The translation error of an access that is found at issue: cause and TRAPVAL (R86, R108, R389). -/
def State.issueErr (s : State) (h : Held) : Option (Nat × Word) :=
  (s.placed h).findSome? fun b => match b.look with
    | .xlat c => some (c, memTval c 0 (h.req.addr b.off))
    | _ => none

/-- What a read of n bytes at offset base of a held access finds, with the looks of its bytes. -/
def State.readPart (s : State) (h : Held) (va : Word) (n : Nat) (a : Acc) (dev : Bool) (base : Nat) : List ByteLook × RdRes :=
  let ls := s.looksOf h va n a base
  (ls, s.readLooks ls h.got (h.bad.filter fun x => base ≤ x.1 && x.1 < base + n) dev h.taint)

/-- The IA of the byte of an access at an offset. -/
def iaAt (ls : List ByteLook) (o : Nat) : Nat := ((ls.find? fun b => b.off == o).map (·.ia)).getD 0

/-- Whether a read must wait for what stands before it. -/
def Older.blocksAny (o : Older) (rel : Bool) (ls : List ByteLook) : Bool := ls.any fun b => b.xlat?.isNone && o.blocks rel b

/-- The outcome of a read of n bytes for a held request: faults write their records here, also behind the side log
(R114's example). -/
def State.serveRead (s : State) (h : Held) (va : Word) (n : Nat) (a : Acc) (dev : Bool) (k : List Byte → VReg) : State × Served :=
  let (ls, r) := s.readPart h va n a dev 0
  let s := s.demote h.unit h.ctx ls
  let at_ (o : Nat) : Word := va + BitVec.ofNat 64 o
  match r with
  | .xlat c o => (s, .xlat c (memTval c 0 (at_ o)))
  | .fault o => (s.recordFaults h.ctx h.unit ls va a true 0 n, h.for_ .flush (iaAt ls o))
  | r => if (s.older h.unit h.id).blocksAny false ls then (s, h.for_ .side (iaAt ls 0)) else match r with
    | .ok bs => (s, .done (k bs))
    | .err c o st => (s, .fail c (memTval c st (at_ o)))
    | .fault o => (s, h.for_ .flush (iaAt ls o))
    | .wait o => (s, h.for_ .migration (iaAt ls o))
    | .remote miss => (s.sendReads h va ls miss, h.for_ .reply (iaAt ls 0))
    | .order => (s, h.for_ .side (iaAt ls 0))
    | .xlat c o => (s, .xlat c (memTval c 0 (at_ o)))

/-- A read of several lanes of n bytes, at offsets stride apart in the access (R113, R299, R303): each is its own access. The whole
waits for a flush, a migration, its order or other modules' lanes, in this order, and completes at once; where a lane fails, only that
lane and those below it count, and it decides once none of these waits. Every faulting lane that counts writes its record. -/
def State.serveLanes (s : State) (h : Held) (n stride : Nat) (lanes : List Word) (k : List (List Byte) → Served) : State × Served :=
  let all := (lanes.zip (upFrom 0 lanes.length)).map fun x => (x.1, s.readPart h x.1 n .read false (stride * x.2))
  let failed (r : RdRes) : Bool := match r with | .xlat _ _ | .err _ _ _ => true | _ => false
  let each := match all.findIdx? fun x => failed x.2.2 with | some f => all.take (f + 1) | none => all
  let s := each.foldl (fun s x => match x.2.2 with
    | .fault _ => (s.demote h.unit h.ctx x.2.1).recordFaults h.ctx h.unit x.2.1 x.1 .read true 0 n ((x.2.1.headD ⟨0, .wait 0, 0, 0⟩).off)
    | _ => s.demote h.unit h.ctx x.2.1) s
  let fails := each.findSome? fun x => match x.2.2 with
    | .xlat c o => some (Served.xlat c (memTval c 0 (h.req.addr o)))
    | .err c o st => some (.fail c (memTval c st (h.req.addr o)))
    | _ => none
  let faults := each.findSome? fun x => match x.2.2 with | .fault o => some (iaAt x.2.1 o) | _ => none
  let waits := each.findSome? fun x => match x.2.2 with | .wait o => some (iaAt x.2.1 o) | _ => none
  let behind := (s.older h.unit h.id).blocksAny false (each.flatMap (·.2.1))
  let away := each.filterMap fun x => match x.2.2 with | .remote miss => some (x.1, x.2.1, miss) | _ => none
  match faults, waits with
  | some ia, _ => (s, h.for_ .flush ia)
  | _, some ia => (s, h.for_ .migration ia)
  | _, _ =>
    if behind then (s, h.for_ .side 0)
    else if away.isEmpty then (s, fails.getD (k (each.map fun x => match x.2.2 with | .ok bs => bs | _ => [])))
    else (away.foldl (fun s x => s.sendReads h (x.1 - BitVec.ofNat 64 ((x.2.1.headD ⟨0, .wait 0, 0, 0⟩).off)) x.2.1 x.2.2) s, h.for_ .reply 0)

/-- A gather of 64 lanes of w bits, each extended to 32 (R299). -/
def State.serveGather (s : State) (h : Held) (w : Nat) (zx : Bool) (lanes : List Word) : State × Served :=
  let lane (bs : List Byte) : Nat := wrap (if zx then (ofBytes bs : Int) else sext (ofBytes bs) w) 32
  s.serveLanes h (w / 8) 8 lanes fun vs =>
    .done (BitVec.ofNat 2048 ((vs.zip (upFrom 0 vs.length)).foldl (fun img x => img + lane x.1 * 2 ^ (32 * x.2)) 0))

/-- An atomic on this module's memory or, by packet, on another's (R96, R127, R274 to R276). Its bytes lie in one page
and one range pair, for they are aligned. A release waits before it meets a fault. -/
def State.serveAtomic (s : State) (h : Held) (op : Nat) (va : Word) (n : Nat) (ops : List Word) : State × Served :=
  let ls := s.looksOf h va n .atomic 0
  let s := s.demote h.unit h.ctx ls
  let sx (bs : List Byte) : VReg := if n = 16 then imgBytes bs else imgW (extendLoad bs false)
  let flt (b : ByteLook) : Option (Nat × Nat) := match b.look with
    | .fault c st _ => some (c, st)
    | .comp _ _ _ _ => some (0x085, 2)
    | .zeros _ => some (0x084, 3)
    | _ => none
  match ls.findSome? ByteLook.xlat?, ls with
  | some (c, o), _ => (s, .xlat c (memTval c 0 (va + BitVec.ofNat 64 o)))
  | _, [] => (s, .done 0)
  | _, b :: _ =>
    let o := s.older h.unit h.id
    if (h.rel || (flt b).isNone) && h.got.isEmpty && h.bad.isEmpty && o.blocksAny h.rel ls then (s, h.for_ .side b.ia)
    else match flt b with
    | some (c, st) => (s.recordFaults h.ctx h.unit (ls.map fun b => { b with look := .fault c st b.look.kind }) va .atomic true 0 n,
        h.for_ .flush b.ia)
    | none => match b.look with
      | .wait _ => (s, h.for_ .migration b.ia)
      | .err c st => (s, .fail c (memTval c st va))
      | .poison _ => (s, .fail 0x151 (memTval 0x151 6 va))
      | .remote m ia kind => match h.bad with
        | (_, c, st) :: _ => (s, .fail c (memTval c st va))
        | [] =>
          if h.got.isEmpty then
            (s.sendTo ⟨h.unit, h.ctx, va, h.id, kind, some h.id, 0, false, b.own s.part.module⟩ m (.atomic op ops) ia n [],
              h.for_ .reply b.ia)
          else (s, .done (sx (h.got.map (·.2))))
      | .mem l _ =>
        let locs := ls.filterMap fun b => b.look.loc?
        let isHost := match l with | .host _ => true | _ => false
        if isHost && !hostAtomic op then (s, .fail 0x083 (memTval 0x083 0 va))
        else if locs.any s.mem.bad then (s, .fail 0x150 (memTval 0x150 0 va))
        else
          let r := s.mem.atomic op locs ops
          (s.atomicDone r.2 s.part.module h.unit.pkt (ls.map ByteLook.ia), .done (sx r.1))
      | _ => (s, .fail 0x083 (memTval 0x083 0 va))

/-- Reports of a task's write, to the task wherever it is, or to its thread (R108). -/
def State.reportUnits (s : State) (u : UnitId) (rs : List Report) : State :=
  match u with
  | .core c slot k => rs.foldl (fun s r => s.reportTask c slot k r) s
  | .retr r t => s.reportTo (1024 + r) t rs
  | _ => s

/-- The records of a REMOP on this module that a fault holds (R107, R113): one for each page of its target and of ENQ's node that faults;
a word that memory names has no virtual address. -/
def State.remopFaults (s : State) (h : Held) (b : RemopBlk) (va : Word) (ia nia c st fia : Nat) : State :=
  let at_ (lo n : Nat) : List ByteLook := (upFrom 0 n).map fun i => ⟨i, s.lookIA (lo + i) .atomic, s.part.module, lo + i⟩
  let zero (b : ByteLook) : ByteLook := match b.look with | .zeros k => { b with look := .fault 0x084 3 k } | _ => b
  let t := if b.op = 3 then [] else (at_ ia b.size).map zero
  let n := if b.op = 2 then (at_ nia 8).map zero else []
  if (s.faultPages (t ++ n)).any fun x => x.1.ia == fia then
    (s.recordFaults h.ctx h.unit t va .atomic true 0 b.size).recordFaults h.ctx h.unit n b.x .atomic true 0 8
  else s.record h.ctx ⟨h.unit, c, st, .atomic, true, false, 0, 0, s.part.module, fia, 8⟩

/-- A remote operation whose block is known (R277, R278): its checks and the translation of its target and node, then the operation
here or at its module; a word of this module waits for what stands before it (R111, R128); the REPLY bytes are written before the
result. -/
def State.serveRemopBlk (s : State) (h : Held) (va gv : Word) (bs : List Byte) : State × Served :=
  let b := remopBlk bs
  let need := if b.op = 3 then Acc.read else .write
  let fin (s : State) (reply : Word) (rb : List Byte) : State × Served :=
    if rb.isEmpty then (s, .done (imgW reply))
    else
      let w := s.writeVA h.ctx h.unit (gv + 96) rb false false
      (w.1.reportUnits h.unit w.2, .done (imgW reply))
  let reply0 : Tab Byte := h.got.filter fun (kv : Nat × Byte) => 128 ≤ kv.1 && kv.1 < 512
  let placeAt (off : Nat) (x : Word) (a : Acc) : Except Nat (Nat × Nat) := match h.partAt off with
    | some p => .ok p
    | none => s.xlate h.unit h.ctx x a.need
  if !b.ok then (s, .xlat 0x055 0)
  else if va.toNat % b.align ≠ 0 then (s, .xlat 0x08C (memTval 0x08C 0 va))
  else match placeAt 128 va need, (if b.op = 2 then placeAt 192 b.x .write else .ok (0, 0)) with
  | .error c, _ => (s, .xlat c (memTval c 0 va))
  | _, .error c => (s, .xlat c (memTval c 0 b.x))
  | .ok (m0, ia0), .ok (n0, nia0) =>
    let tb : ByteLook := ⟨128, s.lookAt h.unit m0 ia0 .atomic, m0, ia0⟩
    let nb : ByteLook := if b.op = 2 then ⟨192, s.lookAt h.unit n0 nia0 .atomic, n0, nia0⟩ else tb
    let s := s.demote h.unit h.ctx [tb, nb]
    let (m, ia) := tb.target
    let h : Held := { h with parts := (h.parts.filter fun (p : Nat × Nat × Nat × Nat) => p.1 < 128) ++ [(128, m0, ia0, b.size)]
      ++ (if b.op = 2 then [(192, n0, nia0, 8)] else []) ++ (if 2 ≤ b.op then [anyWords m] else []) }
    let o := s.older h.unit h.id
    let free (x : Nat) (a : Acc) : Look :=
      let l := s.lookIA x a
      if reply0.isEmpty && o.blocks h.rel ⟨0, l, s.part.module, x⟩ then .wait l.kind else l
    let (nm, nia) := nb.target
    let reply := reply0
    let bytes := ((upFrom 0 b.size).map fun i => ({ tb with ia := ia0 + i } : ByteLook))
      ++ (if b.op = 2 then (upFrom 0 8).map fun i => ({ nb with ia := nia0 + i } : ByteLook) else [])
    match h.bad with
    | (o, c, st) :: _ => (s, .fail c (memTval c st (h.req.addr o)))
    | [] =>
      if nm ≠ m then (s, .xlat 0x055 0)
      else if reply.isEmpty && o.blocksAny h.rel bytes then (s, h.for_ .side ia0)
      else if m ≠ s.part.module then match tb.look with
        | .err c st => (s, .fail c (memTval c st va))
        | _ =>
          if reply.isEmpty then
            let blk := bs.take 8 ++ (if b.op = 2 then toBytes 8 (nm * 2 ^ 52 + nia) else toBytes 8 b.x.toNat) ++ bs.drop 16
            (s.sendTo ⟨h.unit, h.ctx, va, h.id, tb.look.kind, some h.id, 128, false, tb.own s.part.module⟩ m (.remop blk) ia 128 [],
              h.for_ .reply ia0)
          else fin s (BitVec.ofNat 64 (ofBytes ((reply.map (·.2)).take 8))) ((reply.map (·.2)).drop 8)
      else match s.performRemop free h.got b ia (nm * 2 ^ 52 + nia) with
        | (s', .done reply rb out ias) => fin (s'.remopDone s h.unit h.ctx s.part.module h.unit.pkt out ias) reply rb
        | (s, .fail c st) => (s, .fail c (memTval c st va))
        | (s, .fault c st fia) => (s.remopFaults h b va ia0 nia0 c st fia, h.for_ .flush fia)
        | (s, .wait) => (s, h.for_ .migration ia0)
        | (s, .away am aia off own) =>
          (s.sendTo ⟨h.unit, h.ctx, va, h.id, 0, some h.id, off, false, some own⟩ am .read aia 8 [], h.for_ .reply ia0)

/-- A remote operation (R277, R278): the request block is read as a plain load; a release waits before it. -/
def State.serveRemop (s : State) (h : Held) (va gv : Word) : State × Served :=
  if h.rel && h.got.isEmpty && !(s.older h.unit h.id).clear then (s, h.for_ .side 0)
  else match s.serveRead h gv 128 .read false imgBytes with
  | (s, .done img) => s.serveRemopBlk h va gv (toBytes 128 img.toNat)
  | r => r

/-- A bundle fetch (R86, R106 to R109): it waits behind no side log. -/
def State.serveFetch (s : State) (h : Held) (va : Word) : State × Served :=
  let (ls, r) := s.readPart h va 16 .fetch false 0
  let s := s.demote h.unit h.ctx ls
  let at_ (o : Nat) : Word := va + BitVec.ofNat 64 o
  match r with
  | .ok bs => (s, .done (imgBytes bs))
  | .xlat c o => (s, .xlat c (memTval c 0 (at_ o)))
  | .err c o st => (s, .fail c (memTval c st (at_ o)))
  | .fault o => (s.recordFaults h.ctx h.unit ls va .fetch true 0 16, h.for_ .flush (iaAt ls o))
  | .wait o => (s, h.for_ .migration (iaAt ls o))
  | .order => (s, h.for_ .side (iaAt ls 0))
  | .remote miss => (s.sendReads h va ls miss, h.for_ .reply (iaAt ls 0))

/-- A store that a full side log held (R110): it is performed once the log has room for it. -/
def State.serveStore (s : State) (h : Held) (va : Word) (bs : List Byte) (dev rel : Bool) : State × Served :=
  let ls := s.looksOf h va bs.length .write 0
  if (s.older h.unit h.id).stuck || s.noRoom h.unit h.ctx va rel h.id ls then (s, h.for_ .side h.ia)
  else
    let r := s.writeLooks h.ctx h.unit va bs dev rel h.id ls
    (r.1.reportUnits h.unit r.2, .done 0)

/-- A PGDISC (R119): once nothing stands before it and the log has room for the pages that migrate, the pages of its parts are
discarded here, or at their module. -/
def State.serveDisc (s : State) (h : Held) (va : Word) : State × Served :=
  if !(s.older h.unit h.id).clear || 48 ≤ (s.sideOf h.unit).length then (s, h.for_ .side h.ia)
  else
    (h.parts.foldl (fun s p =>
      let va' := va + BitVec.ofNat 64 p.1
      if p.2.1 = s.part.module then s.discardFor h.unit h.ctx va' h.id p.2.2.1 p.2.2.2
      else s.sendTo ⟨h.unit, h.ctx, va', h.id, 0, none, 0, false, none⟩ p.2.1 .discard p.2.2.1 p.2.2.2 []) s, .done 0)

/-- The DONE add of a kernel (R164): a release at DEV scope, alone in its unit; a serviceable fault, or what it must wait behind,
puts it in its core's side log, whose want of an entry holds it; an access error puts the context in ERROR. -/
def State.serveDoneAdd (s : State) (h : Held) (va : Word) : State × Served :=
  let u := h.unit
  let ls := s.looksOf h va 8 .atomic 0
  let o := s.older u h.id
  let i := freeIdx (s.sideOf u)
  let error (c : Nat) : State × Served := (s.ctxError h.ctx c, .done 0)
  match ls with
  | [] => (s, .done 0)
  | b :: _ =>
    let log (quiet : Bool) (k : State → State) : State × Served :=
      if 64 ≤ (s.sideOf u).length then (s, h.for_ .side b.ia)
      else (k (s.logSide u ⟨i, h.id, h.ctx, u, va, b.module, b.ia, toBytes 8 1, b.look.kind, true, quiet, true, 0, []⟩), .done 0)
    match b.look with
    | .xlat c => error c
    | .err c _ => error c
    | .poison _ => error 0x151
    | .dev _ => error 0x083
    | .fault _ _ _ | .comp _ _ _ _ => log false fun s => s.recordFaults h.ctx u ls va .atomic false i 8
    | .zeros _ => log false fun s =>
        s.recordFaults h.ctx u (ls.map fun b => { b with look := .fault 0x084 3 b.look.kind }) va .atomic false i 8
    | .wait _ => log true id
    | .remote m ia kind =>
      if o.blocks true b then log true id
      else (s.sendTo ⟨u, h.ctx, va, h.id, kind, none, 0, true, b.own s.part.module⟩ m (.atomic 0 [1]) ia 8 [], .done 0)
    | .mem _ _ =>
      if o.blocks true b then log true id
      else
        let locs := ls.filterMap fun b => b.look.loc?
        if locs.any s.mem.bad then error 0x150
        else (s.atomicDone (s.mem.atomic 0 locs [1]).2 s.part.module u.pkt (ls.map ByteLook.ia), .done 0)

/-- Serves a request: the state after it, and its result, cause or hold. WAITE's read and the launch record's are
plain reads here; what follows them is their meaning's (R155, R261). LAUNCH is a release: it reads once nothing stands before it
(R111, R141). -/
def State.serve (s : State) (h : Held) : State × Served :=
  match h.req with
  | .load va n zx => s.serveRead h va n .read (devOk h.unit va n) fun bs => imgW (extendLoad bs zx)
  | .ldh _ va n zx _ =>
    match s.readPart h va n .read false 0 with
    | (ls, .fault _) | (ls, .err _ _ _) | (ls, .xlat _ _) => (s.demote h.unit h.ctx ls, .fail 0 0)
    | _ => s.serveRead h va n .read false fun bs => imgW (extendLoad bs zx)
  | .raw va n => s.serveRead h va n .read false imgBytes
  | .fetch va => s.serveFetch h va
  | .gather w zx lanes => s.serveGather h w zx lanes
  | .drain lanes => s.serveLanes h 32 32 lanes fun vs => .bytes (vs.flatMap id)
  | .noise lanes _ => s.serveLanes h 2 2 lanes fun vs => .bytes (vs.flatMap id)
  | .atomic op va n ops => s.serveAtomic h op va n ops
  | .remop va gv => s.serveRemop h va gv
  | .waite va => s.serveRead h va 8 .read (devOk h.unit va 8) imgBytes
  | .reply n => match h.bad with
    | (_, c, st) :: _ => (s, .fail c (memTval c st 0))
    | [] => (s, .done (imgBytes (h.got.getMany 0 0 n)))
  | .store va bs dev rel => s.serveStore h va bs dev rel
  | .disc va _ => s.serveDisc h va
  | .doneAdd va => s.serveDoneAdd h va
  | .launch va _ =>
    if !(s.older h.unit h.id).clear then (s, h.for_ .side 0) else s.serveRead h va 160 .read false imgBytes

/-- The unit of the task in focus. -/
def State.unit (s : State) : UnitId :=
  if s.inRetr then .retr (s.iss.core - 1024) s.iss.slot else .core s.iss.core s.iss.slot s.task.place.kernel

/-- A new access of the slot in focus: the state with its number taken. -/
def State.newHeld (s : State) (req : MemReq) : Held × State :=
  let (id, s) := s.freshId
  (.new id s.unit s.task.place.ctx req s.iss.pos s.iss.pc, s)

/-- Issues an access of the slot in focus: its translation errors are found here; else it is served, or held with its parts. -/
def State.issue (s : State) (h : Held) : State × Served :=
  match s.issueErr h with
  | some (c, tv) => (s, .xlat c tv)
  | none => s.serve (s.withParts h)

/-- Puts a held access in the list. -/
def State.hold (s : State) (h : Held) : State := { s with held := s.held ++ [h] }

/-- Issues a request of the slot in focus whose result goes to a destination after lam clks: a translation error is
raised precisely; a memory-side error is late; an access that cannot be served yet is held and its result awaited
(R109, R176, R221). A result of latency 2 also goes to its latch. -/
def State.request (s : State) (dest : RDest) (lam cls : Nat) (req : MemReq) (acq rel : Bool := false) : State :=
  let (h, s) := s.newHeld req
  match s.issue { h with cls := cls, lat2 := lam == 2, acq := acq, rel := rel } with
  | (s, .done img) => (if lam = 2 then s.deposit 2 img else s).issueTo dest lam (.ready img)
  | (s, .xlat c tv) => s.raise c tv
  | (s, .fail c tv) => s.issueTo dest lam (.late c tv)
  | (s, .bytes _) => s
  | (s, .hold h) => (s.issueTo dest lam (.await h.id)).hold h

/-- A store of the slot in focus (R44, R108, R110): it is performed, or logged; where the side log is full it is held, and the
core stands still from the next clk until an entry frees. -/
def State.storeVA (s : State) (va : Word) (bs : List Byte) (dev rel : Bool) : State :=
  let ctx := s.task.place.ctx
  let ls := s.looks s.unit ctx va bs.length .write
  if (s.older s.unit s.nextId).stuck || s.noRoom s.unit ctx va rel s.nextId ls then
    let (h, s) := s.newHeld (.store va bs dev rel)
    (s.issueTo .none 1 (.await h.id)).hold { s.withParts h with why := .side, ia := (ls.headD ⟨0, .wait 0, 0, 0⟩).ia, rel := rel }
  else
    let r := s.writeLooks ctx s.unit va bs dev rel s.nextId ls
    r.1.reportTo s.iss.core s.iss.slot r.2

/-! ### Hoisted-load entries (R135, R136) -/

/-- Whether an access of class cls forms a checked pair with a hoisted load (R133). -/
def Hoist.checked (h : Hoist) (cls : Nat) : Bool := h.cls == cls || h.cls == 0 || cls == 0

/-- The virtual addresses at which a context reaches an IA of a module (R86). -/
def Ctx.vasOf (c : Ctx) (own m ia : Nat) : List Nat :=
  (upFrom 0 16).filterMap fun n =>
    let v := c.range.get 0 (2 * n)
    let r := c.range.get 0 (2 * n + 1)
    let l := v.f 11 6
    let va := v.f 56 12 * 4096 / 2 ^ l * 2 ^ l + ia % 2 ^ l
    if (if r.b 11 then own else r.f 63 52) = m ∧ ia / 2 ^ l = r.f 51 12 * 4096 / 2 ^ l ∧ c.rangeOf (BitVec.ofNat 64 va) = some n then some va
    else none

/-- Whether an access to n bytes at va overlaps a hoisted load: at its addresses, or, through another range pair, at its bytes. -/
def Hoist.overlaps (h : Hoist) (c : Ctx) (own : Nat) (va : Word) (n : Nat) : Bool :=
  (h.addr.toNat < va.toNat + n && va.toNat < h.addr.toNat + h.size)
    || h.locs.any fun l => (c.vasOf own l.1 l.2).any fun a => va.toNat ≤ a && a < va.toNat + n

/-- Whether an access of the task in focus reaches an S page: its first or its last byte does. A page whose kind only
another module knows counts as S. -/
def State.reachesS (s : State) (va : Word) (n : Nat) : Bool :=
  let k (a : Word) : Bool := match s.lookU s.unit s.task.place.ctx a .read with
    | (.xlat _, _, _) => false
    | (l, _, _) => l.kind == 0
  k va || k (va + BitVec.ofNat 64 (n - 1))

/-- Whether a hoisted load of the task in focus lies in a retriever's local SRAM (R388). -/
def State.sramHoist (s : State) (h : Hoist) : Bool := s.inRetr && h.cls == 15

/-- Invalidates the hoisted loads an access to memory ends (R135): a write of a checked pair that overlaps, and, for a load of an
S page, any access to an S page. -/
def State.note (s : State) (va : Word) (n cls : Nat) (write : Bool) : State :=
  let t := s.task
  if s.iss.slotRaised || t.hoist.isEmpty then s
  else
    let toS := s.reachesS va n
    let keep (h : Hoist) : Bool := s.sramHoist h || !((write && h.checked cls && h.overlaps (s.ctxAt t.place.ctx) s.part.module va n) || (toS && h.kindS))
    s.setTask { t with hoist := t.hoist.filter fun eh => keep eh.2 }

/-- Invalidates every hoisted load of the task in focus: an acquire or a FENCE was issued (R135). -/
def State.dropHoists (s : State) : State := s.setTask { s.task with hoist := [] }

end Sys2Proof.Machine
end

