-- ==== Sys2Proof/Machine/Flags.lean ====
section
/-! DEFINITION. The conditions and predicate operations (R245 to R247, R261, R289). -/

namespace Sys2Proof.Machine

/-- The conditions of CMP by minor (R245). -/
def cmpHolds (c : Nat) (a b : Word) : Bool :=
  match c with
  | 0 => a == b
  | 1 => a != b
  | 2 => a.toInt < b.toInt
  | 3 => b.toInt ≤ a.toInt
  | 4 => a.toNat < b.toNat
  | 5 => b.toNat ≤ a.toNat
  | 6 => b.toInt < a.toInt
  | 7 => a.toInt ≤ b.toInt
  | 8 => b.toNat < a.toNat
  | 9 => a.toNat ≤ b.toNat
  | _ => a &&& b != 0

/-- The predicate operations of QOP by minor (R247). -/
def qopVal (o : Nat) (a b : Bool) : Bool :=
  match o with
  | 0 => a && b
  | 1 => a || b
  | 2 => a != b
  | 3 => a && !b
  | _ => a || !b

/-- The tests of WAITE, on unsigned values (R261). -/
def waiteHolds (t : Nat) (w c : Word) : Bool :=
  match t with
  | 0 => w == c
  | 1 => w != c
  | 2 => c.toNat ≤ w.toNat
  | _ => w.toNat < c.toNat

/-- The conditions of VCMP (R289). -/
def vcmpHolds (c : Nat) (x y : Int) : Bool :=
  match c with
  | 0 => x == y
  | 1 => x != y
  | 2 => x < y
  | _ => x ≤ y

end Sys2Proof.Machine
end

