-- ==== Sys2Proof/Machine/Control.lean ====
section
/-! DEFINITION. Control flow, loops, waits, traps and fences (R64 to R69, R250 to R264, R268). -/

namespace Sys2Proof.Machine

/-- Sets the flow action of the bundle being issued. -/
def State.setAct (s : State) (a : Act) : State := { s with iss := { s.iss with act := a } }

/-- The target of format B: PC + 16 * disp (R250), as a bundle address (R46). -/
def branchTarget (pc : Word) (disp : BitVec 21) : Word := (pc + BitVec.ofInt 64 (16 * sext disp.toNat 21)) &&& ~~~15#64

/-- A branch, taken to `tgt` or not (R64). -/
def State.branch (s : State) (taken : Bool) (tgt : Word) : State :=
  s.setAct (.branch (if taken then some ⟨tgt, 0, none⟩ else none))

/-- BR (R250). -/
def execBr (disp : BitVec 21) (s : State) : Out := .next (s.branch true (branchTarget s.iss.pc disp))

/-- BRT (R250). -/
def execBrt (q : BitVec 4) (disp : BitVec 21) (s : State) : Out :=
  .next (s.branch (s.task.qReg q.toNat) (branchTarget s.iss.pc disp))

/-- BRF (R250). -/
def execBrf (q : BitVec 4) (disp : BitVec 21) (s : State) : Out :=
  .next (s.branch (!s.task.qReg q.toNat) (branchTarget s.iss.pc disp))

/-- The link written by CALL and CALLT (R250, R252). -/
def State.link (s : State) : State := s.result (.g 63) false 1 (imgW (s.iss.pc + 32))

/-- CALL (R250). -/
def execCall (disp : BitVec 21) (s : State) : Out := .next (s.link.branch true (branchTarget s.iss.pc disp))

/-- RET (R251, R46). -/
def execRet (x : BitVec 6) (s : State) : Out := .next (s.branch true (s.task.gReg x.toNat &&& ~~~15#64))

/-- The target and label of a jump-table entry (R67). -/
def jumpEntry (img : VReg) : Flow :=
  let w : Word := img.setWidth 64
  ⟨pcBits w, 0, some ((img >>> 64).setWidth 12).toNat⟩

/-- JMPT and CALLT (R67, R252): index not below count raises 0x058 with nothing read; the 16-byte entry is read as a plain
load; its access errors are precise; while it is held or awaited, the delay bundle does not issue, and CALLT's G63 is written once
it has arrived, its latch at once. -/
def State.jumpTable (s : State) (i t : BitVec 6) (c : BitVec 8) (call : Bool) : State :=
  let idx := (s.task.gReg i.toNat).toNat
  if c.toNat + 1 ≤ idx then s.raise 0x058
  else
    let va := s.task.gReg t.toNat + BitVec.ofNat 64 (16 * idx)
    let (h, s) := s.newHeld (.raw va 16)
    match s.issue h with
    | (s, .done img) => ((if call then s.link else s).setAct (.branch (some (jumpEntry img)))).note va 16 0 false
    | (s, .xlat cz tv) => s.raise cz tv
    | (s, .fail cz tv) => s.raise cz tv
    | (s, .bytes _) => s
    | (s, .hold h) =>
      let s := if call then s.deposit 1 (imgW (s.iss.pc + 32)) else s
      (((s.issueTo (.jump call) 2 (.await h.id)).hold h).setAct .branchWait).note va 16 0 false

/-- CALLT (R252). -/
def execCallt (i t : BitVec 6) (c : BitVec 8) (s : State) : Out := .next (s.jumpTable i t c true)

/-- JMPT (R252). -/
def execJmpt (i t : BitVec 6) (c : BitVec 8) (s : State) : Out := .next (s.jumpTable i t c false)

/-- LPAD (R68): does nothing; the landing check is made when its bundle issues. -/
def execLpad (_label : BitVec 12) (s : State) : Out := .next s

/-- NOP (R69). -/
def execNop (s : State) : Out := .next s

/-- A loop instruction (R255): n iterations of the len bundles that follow. -/
def State.loop (s : State) (n len : Nat) : State :=
  let t := s.task
  let first := s.iss.pc + 16
  let last := s.iss.pc + BitVec.ofNat 64 (16 * len)
  if 2 ^ 22 - 1 < n then s.raise 0x056
  else if (match t.loops.head? with | some l => decide (l.last.toNat ≤ last.toNat) | none => false) then s.raise 0x056
  else if n = 0 then s.setAct (.next (last + 16))
  else if t.loops.length = 6 then s.raise 0x050
  else (s.setTask { t with loops := ⟨first, last, n⟩ :: t.loops }).setAct (.next first)

/-- LOOP (R254, R255). -/
def execLoop (x : BitVec 6) (len : BitVec 13) (s : State) : Out :=
  .next (s.loop (s.task.gReg x.toNat).toNat (len.toNat + 1))

/-- LOOPI (R254, R255). -/
def execLoopi (c : BitVec 12) (len : BitVec 13) (s : State) : Out := .next (s.loop c.toNat (len.toNat + 1))

/-- The loops that a task may leave: of a handler, its own (R224, log 37). -/
def Task.ownLoops (t : Task) (inTrap : Bool) : List Loop :=
  if inTrap then t.loops.take (t.loops.length - t.trap.cause.f 55 53) else t.loops

/-- LBRK (R257): leaves the n innermost loops after its delay bundle. -/
def execLbrk (q : BitVec 4) (n : BitVec 3) (s : State) : Out :=
  let t := s.task
  if t.qReg q.toNat then
    match (t.ownLoops s.iss.inTrap)[n.toNat - 1]? with
    | none => .next (s.raise 0x051)
    | some l => .next (s.setAct (.branch (some ⟨l.last + 16, n.toNat, none⟩)))
  else .next (s.branch false 0)

/-- YIELD (R258). -/
def execYield (s : State) : Out := .next (s.setAct .yield)

/-- Delivers an event to the task in focus at its own bundle, as to a task woken from a wait (R220, log 12); in a handler it
stays pending and the handler goes on (R226). -/
def State.eventHere (s : State) (r : Report) : State :=
  let t := s.task
  s.setTask { t with events := t.events ++ [r], woke := !t.inTrap, waitPc := s.iss.pc }

/-- Whether a dependency-table entry is a copy (R180). -/
def isCopyIns : Instr → Bool
  | .tld _ _ _ | .tst _ _ _ | .tstx _ _ _ | .txps _ _ _ | .tcpyMm _ _ _ | .tcpyTm _ _ _ | .tcpyMt _ _ _ | .tcpyTt _ _ _
  | .tcpyd _ _ _ | .tmskld _ _ _ => true
  | _ => false

/-- Whether an entry is of the task of a kernel in a slot: a task off its core keeps its entries while another stands in its slot
(R184). -/
def Dep.of (d : Dep) (slot kernel : Nat) : Bool := d.slot == slot && d.kernel == kernel

/-- The unretired copy of a task that a tag matches (R259, R260). -/
def CoreSt.copyOf (c : CoreSt) (slot kernel tag : Nat) : Option (Nat × Dep) :=
  c.deps.find? fun ed => ed.2.of slot kernel && ed.2.tag == tag && isCopyIns ed.2.ins

/-- Retires an entry of the dependency table; a copy's writes that are not performed yet stay its task's to wait for (R142, R164). -/
def State.retire (s : State) (core e : Nat) : State :=
  let c := s.coreAt core
  let s' := s.setCoreAt core { c with deps := c.deps.del e }
  match c.deps.get? e with
  | some d =>
    if isCopyIns d.ins && !s.unitQuiet (.copy core e d.seq) then
      s'.onTask core d.slot d.kernel fun t => { t with strays := t.strays ++ [(e, d.seq)] }
    else s'
  | none => s'

/-- WAITC (R260): goes on where the copy has completed; takes its failure or a missed promise as an event; else
sleeps. -/
def execWaitc (a : BitVec 6) (s : State) : Out :=
  let t := s.task
  if a.toNat % 2 = 1 then .next (s.raise 0x054)
  else
    let p := t.gReg a.toNat
    let tag := (t.gReg (a.toNat + 1)).toNat
    match (s.coreAt s.iss.core).copyOf s.iss.slot t.place.kernel tag with
    | none => .next s
    | some (e, d) =>
      if tag = 0 then .next s
      else match d.stat with
      | .failed c tv => .next ((s.retire s.iss.core e).eventHere ⟨c, tv⟩)
      | _ =>
        if p ≠ 0 ∧ p.toNat ≤ s.cycle.toNat then
          let s' := s.eventHere ⟨0x127, p⟩
          .next (if t.inTrap then s'.setAct (.sleep (.copy e tag 0)) else s')
        else .next (s.setAct (.sleep (.copy e tag p)))

/-- WAITE (R261): reads the word as an acquire and sleeps; the wait ends when the test holds on a read, until which the read stands
before what the bundle's other slots access (R123, R128, R131). -/
def execWaite (t : BitVec 3) (sc : BitVec 3) (a b : BitVec 6) (s : State) : Out :=
  let va := s.task.gReg a.toNat
  let cmp := s.task.gReg b.toNat
  if va.toNat % 8 ≠ 0 then .next (s.raise 0x08C (memTval 0x08C 0 va))
  else
    let (h, s) := s.newHeld (.waite va)
    let w : Wait := .reread h.id t.toNat sc.toNat va cmp false
    match s.issue { h with acq := true } with
    | (s, .xlat c tv) => .next (s.raise c tv)
    | (s, .fail c tv) => .next (s.dropHoists.issueTo .none 2 (.late c tv))
    | (s, .hold h) => .next ((s.dropHoists.hold h).setAct (.sleep w))
    | (s, .done img) => .next (if waiteHolds t.toNat (img.setWidth 64) cmp then s.dropHoists.setAct (.sleep .met)
        else (s.dropHoists.hold { s.withParts h with acq := true, why := .poll }).setAct (.sleep w))
    | (s, _) => .next s

/-- END (R142, R262): a failed copy of the task is delivered at this bundle, but for a handler's END; else the task enters
ENDING. -/
def execEndTask (s : State) : Out :=
  if s.task.inTrap then .next (s.setAct .ended)
  else match (s.coreAt s.iss.core).deps.find? fun ed => ed.2.of s.iss.slot s.task.place.kernel && isCopyIns ed.2.ins
      && match ed.2.stat with | .failed _ _ => true | _ => false with
  | some (e, d) => match d.stat with
    | .failed c tv => .next ((s.retire s.iss.core e).eventHere ⟨c, tv⟩)
    | _ => .next (s.setAct .ended)
  | none => .next (s.setAct .ended)

/-- TRAPI (R263): takes cause 0x1C0 + imm with TRAPPC at the next bundle; in a handler, or without one, it is
unrecoverable (R226). -/
def execTrapi (i : BitVec 6) (s : State) : Out :=
  let c := 0x1C0 + i.toNat
  let t := s.task
  if s.iss.inTrap || !t.hasHandler then
    .next ((s.fatal s.iss.core s.iss.slot c).setAct (.trapi c))
  else .next ((s.setTask (t.enterTrap 3 false c (s.iss.pc + 16) 0 0 0 0)).setAct (.trapi c))

/-- ERET (R225, R264): misused, it raises 0x052; else the task leaves its handler for the bundle at TRAPPC once the slots of this
bundle have committed. -/
def execEret (s : State) : Out :=
  let t := s.task
  if !s.iss.inTrap || t.loops.length ≠ t.trap.cause.f 55 53 then .next (s.raise 0x052)
  else .next (s.setAct .eret)

/-- FENCE (R132, R268): every hoisted load is invalid; later accesses of the task wait while an access before it is not complete. -/
def execFence (_sc : BitVec 3) (s : State) : Out :=
  let s := s.dropHoists
  if (s.older s.unit s.nextId).clear then .next s
  else
    let (id, s) := s.freshId
    let c := s.coreAt s.unit.logKey
    .next (s.setCoreAt s.unit.logKey { c with fences := c.fences ++ [(s.unit, id)] })

end Sys2Proof.Machine
end

