-- ==== Sys2Proof/Config.lean ====
section
/-! DEFINITION. The free values of the model: constants without a body, so that no proof can see what they are. -/

namespace Sys2Proof.Config

/-- The n-th word the physical noise source supplies (R32; log 4). Free value. -/
opaque noiseWord : Nat → BitVec 16

/-- A word the manual leaves open: the n-th free value (log 4). -/
opaque freeWord : Nat → BitVec 64

/-- Whether the hardware takes the new rather than the old of two values the manual leaves open (log 4). -/
opaque freeBool : Nat → Bool

/-- The slot in which partner m is joined to destination d, which only m's own calendar names (R375; log 4). -/
opaque relaySlot : Nat → Nat → Nat

/-- Byte i of the header of a log entry: the manual names what it gives (type, round, step, address, length) and not its
layout (R425; log 4). -/
opaque logHeader : Nat → Nat → Nat → Nat → Nat → Nat → BitVec 8

/-- Byte i of packet id of a REMOP as PKGET copies it: the retriever image defines the format (R392; log 4). -/
opaque remopByte : Nat → Nat → BitVec 8

/-- Byte i of bytes 16 to 31 of a packet's header, which hold its operation, address and length: the manual names what they give (here as a
kind, an address and a length) and not their layout (R357; log 4). -/
opaque opField : Nat → Nat → Nat → Nat → BitVec 8

/-- KIND of a REMOP packet, which the retriever image defines (R392; log 4). -/
opaque remopKind : BitVec 4

/-- Byte i of the SHA-384 measurement of admitted image k, of the three that the boot ROM loads, which stand in the module's flash
(R453, R454; log 4). -/
opaque measurement : Nat → Nat → BitVec 8

/-- Byte i of the fuse state a report holds; the manual gives its presence and not its form (R453, R454; log 4). -/
opaque fuseByte : Nat → BitVec 8

/-- Byte i of the identity key's signature of a report in scheme n: 0 RSASSA-PSS, 1 SLH-DSA (R453, R454; log 4). -/
opaque signature : Nat → List (BitVec 8) → Nat → BitVec 8

end Sys2Proof.Config
end

