-- ==== Sys2Proof/Machine/Numbers.lean ====
section
/-! DEFINITION. Saturation, rounding shifts, the census, packed elements, and the tables of the exact routines (R15 to R17,
R24, R25, R40 to R45, R306), what is made of noise words (R305, R313, R350). -/

namespace Sys2Proof.Machine

/-- The width of an element type: .N 4, .B 8, .H 16, .W 32 (R15, R53). -/
def tyWidth (t : BitVec 2) : Nat := 4 * 2 ^ t.toNat

/-- Saturation to w bits (R40). -/
def sat (x : Int) (w : Nat) : Int := max (-((2 ^ (w - 1) : Nat) : Int)) (min (((2 ^ (w - 1) : Nat) : Int) - 1) x)

/-- Shift toward zero (R41). -/
def tzShift (x : Int) (s : Nat) : Int := Int.tdiv x ((2 ^ s : Nat) : Int)

/-- Shift toward minus infinity (R31). -/
def floorShift (x : Int) (s : Nat) : Int := x / ((2 ^ s : Nat) : Int)

/-- Shift to nearest, ties to even (R41). -/
def rneShift (x : Int) (s : Nat) : Int :=
  if s = 0 then x
  else
    let q := floorShift x s
    let rem := x - q * ((2 ^ s : Nat) : Int)
    let half : Int := ((2 ^ (s - 1) : Nat) : Int)
    if half < rem ∨ rem = half ∧ q % 2 = 1 then q + 1 else q

/-- Stochastic shift with noise word n (R42). -/
def stoShift (x : Int) (s n : Nat) : Int :=
  if s = 0 then x
  else floorShift (x + ((if s ≤ 16 then n / 2 ^ (16 - s) else n * 2 ^ (s - 16) : Nat) : Int)) s

/-- Redundant sign bits of a w-bit value (R43). -/
def rsb (y : Int) (w : Nat) : Nat :=
  let x := wrap y w
  if bit x (w - 1) then w - 1 - bitLen w (2 ^ w - 1 - x) else w - 1 - bitLen w x

/-- Bits by which v overflows width w, at most 31 (R43). -/
def excess (v : Int) (w : Nat) : Nat :=
  ((upFrom 0 31).find? fun k => sat v (w + k) == v).getD 31

/-- A census register (R24) from a write's values before and after the shift and as stored, of width w (R43). -/
def censusOf (x v y : List Int) (w : Nat) : Word :=
  let head := y.foldl (fun m e => Nat.min m (rsb e w)) 31
  let ovr := v.foldl (fun m e => Nat.max m (excess e w)) 0
  let satn := ((y.zip v).filter fun p => p.1 != p.2).length
  let vann := ((y.zip x).filter fun p => p.1 == 0 && p.2 != 0).length
  BitVec.ofNat 64 (2 ^ 63 + head * 2 ^ 58 + ovr * 2 ^ 53 + satn % 2 ^ 24 * 2 ^ 24 + vann % 2 ^ 24)

/-- n unsigned elements of width w, element 0 lowest (R16). -/
def unpack (w : Nat) : Nat → Nat → List Nat
  | 0, _ => []
  | n + 1, x => x % 2 ^ w :: unpack w n (x / 2 ^ w)

/-- n signed elements of width w. -/
def unpackS (w n x : Nat) : List Int := (unpack w n x).map fun e => sext e w

/-- Elements of width w packed into a number (R16). -/
def pack (w : Nat) (xs : List Int) : Nat := xs.foldr (fun x acc => wrap x w + 2 ^ w * acc) 0

/-- Table T: 2^(i/64) in Q14 (R306). -/
def tabT : List Nat :=
  [16384, 16562, 16743, 16925, 17109, 17296, 17484, 17674, 17867, 18061, 18258, 18457, 18658, 18861, 19066, 19274,
   19484, 19696, 19911, 20127, 20347, 20568, 20792, 21019, 21247, 21479, 21713, 21949, 22188, 22430, 22674, 22921,
   23170, 23423, 23678, 23936, 24196, 24460, 24726, 24995, 25268, 25543, 25821, 26102, 26386, 26674, 26964, 27258,
   27554, 27855, 28158, 28464, 28774, 29088, 29405, 29725, 30048, 30376, 30706, 31041, 31379, 31720, 32066, 32415,
   32768]

/-- Table L: log2(1 + i/64) in Q16 (R306). -/
def tabL : List Nat :=
  [0, 1466, 2909, 4331, 5732, 7112, 8473, 9814, 11136, 12440, 13727, 14996, 16248, 17484, 18704, 19909, 21098,
   22272, 23433, 24579, 25711, 26830, 27936, 29029, 30109, 31178, 32234, 33279, 34312, 35334, 36346, 37346, 38336,
   39316, 40286, 41246, 42196, 43137, 44068, 44990, 45904, 46809, 47705, 48593, 49472, 50344, 51207, 52063, 52911,
   53751, 54584, 55410, 56229, 57040, 57845, 58643, 59434, 60219, 60997, 61769, 62534, 63294, 64047, 64794, 65536]

/-- A left shift. -/
def shl (x : Int) (n : Nat) : Int := x * ((2 ^ n : Nat) : Int)

/-- A list with elements from position i on replaced. -/
def replaceFrom (xs ys : List Int) (i : Nat) : List Int := xs.take i ++ ys ++ xs.drop (i + ys.length)

/-- The largest y with y * y * m at most 2^62 (R310). -/
def invRoot (m : Nat) : Nat := rootBelow 32 m (2 ^ 62) 0

/-! ### The optimiser (R311 to R313) -/

/-- The parameter word of the optimiser (R311). -/
structure OptPar where
  eps : Nat
  lre : Int
  b2 : Nat
  b1 : Nat
deriving DecidableEq, Repr

/-- Reads a parameter word; EPS 0 acts as 1. -/
def optPar (w : Word) : OptPar := ⟨Nat.max 1 (w.f 63 48), sext (w.f 47 40) 8, w.f 11 8, w.f 7 4⟩

/-- The alignment of R313. -/
def optAlign (x dx : Int) (n : Nat) : Int := if 0 ≤ dx then shl x dx.toNat else stoShift x (-dx).toNat n

/-- The new first moment of an element before saturation (R313). -/
def optM (p : OptPar) (em eg m g : Int) (n1 n2 : Nat) : Int := m + stoShift (optAlign g (eg - em) n1 - m) p.b1 n2

/-- The new second moment of an element before saturation (R313). -/
def optV (p : OptPar) (ev eg v g : Int) (n1 n2 : Nat) : Int :=
  v + stoShift (optAlign (g * g) (2 * eg - ev) n1 - v) p.b2 n2

/-- The new weight of an element before saturation (R313). -/
def optS (p : OptPar) (ew em ev w m v : Int) (nz : Nat) : Int :=
  let odd := ev % 2 != 0
  let vv := max (if odd then 2 * v else v) (p.eps : Int)
  let e := if odd then ev - 1 else ev
  let k := rsb vv 32 / 2 * 2
  let y := invRoot (vv.toNat * 2 ^ k)
  let sh := 31 + e / 2 + ew - em - p.lre - ((k / 2 : Nat) : Int)
  let u := if 0 ≤ sh then stoShift (m * (y : Int)) sh.toNat nz else shl (m * (y : Int)) (-sh).toNat
  w - u

/-! ### What is made of noise words (R33, R42) -/

/-- The noise words of elements, k for each. -/
def wordsOf (k : Nat) (ws : List (BitVec 16)) (i : Nat) : Nat → Nat := fun j => (ws.getD (k * i + j) 0).toNat

/-- The stochastic shift of elements with their noise words. -/
def stoAll (sh w : Nat) (xs : List Int) (ws : List (BitVec 16)) : List Int :=
  List.zipWith (fun x (n : BitVec 16) => sat (stoShift x sh n.toNat) w) xs ws

/-- The new value of lane i of a lane form (R391): the exponents of Vd, Va and V(a + 1) in bits [7:0], [15:8] and [23:16] of e. -/
def optLane (form : Nat) (par e : Word) (d a v : List Int) (ws : List (BitVec 16)) (i : Nat) : Int :=
  let p := optPar par
  let ed := sext (e.f 7 0) 8
  let ea := sext (e.f 15 8) 8
  match form with
  | 0 => sat (optM p ed ea (d.getD i 0) (a.getD i 0) (wordsOf 2 ws i 0) (wordsOf 2 ws i 1)) 16
  | 1 => sat (optV p ed ea (d.getD i 0) (a.getD i 0) (wordsOf 2 ws i 0) (wordsOf 2 ws i 1)) 16
  | _ => sat (optS p ed ea (sext (e.f 23 16) 8) (d.getD i 0) (a.getD i 0) (v.getD i 0) (wordsOf 1 ws i 0)) (if e.b 24 then 32 else 16)

/-- The image of the result that noise words give (R305, R350, R391). -/
def NoiseUse.image (u : NoiseUse) (ws : List (BitVec 16)) : VReg :=
  match u with
  | .reg => BitVec.ofNat 2048 (ofBytes (ws.flatMap fun w => toBytes 2 w.toNat))
  | .shift w sh xs old i => BitVec.ofNat 2048 (pack w (replaceFrom old (stoAll sh w xs ws) i))
  | .opt form par e d a v => BitVec.ofNat 2048 (pack 32 ((upFrom 0 d.length).map (optLane form par e d a v ws)))
  | .post _ => 0

/-- The noise words that bytes hold, low byte first (R3, R42). -/
def noiseOf : List Byte → List (BitVec 16)
  | a :: b :: rest => BitVec.ofNat 16 (a.toNat + 256 * b.toNat) :: noiseOf rest
  | _ => []

end Sys2Proof.Machine
end

