-- ==== Sys2Proof/Machine/Memops.lean ====
section
/-! DEFINITION. Loads, stores, hoisted loads, atomics and remote operations of slot 1 (R269 to R279), and the answers of
held accesses. -/

namespace Sys2Proof.Machine

/-- Invalidates every hoisted load where an acquire has been issued (R135). -/
def State.acquired (s : State) : State := if s.iss.slotRaised then s else s.dropHoists

/-! ### Local SRAM of a retriever (R388) -/

/-- Whether n bytes of the local SRAM lie in a thread's share; thread 0 has all of it (R388, R390, log 14). -/
def State.inShare (s : State) (a n : Nat) : Bool :=
  let r := s.iss.core - 1024
  if s.iss.slot = 0 then a + n ≤ 2 ^ 18
  else
    let w := (s.rts.get .zero (r * 8 + s.iss.slot)).sram
    let lo := w.f 13 8 * 4096
    let hi := Nat.min (lo + w.f 7 0 * 4096) (2 ^ 18)
    lo ≤ a && a + n ≤ hi

/-- The key of a byte of the thread's retriever's SRAM. -/
def State.sramKey (s : State) (a : Nat) : Nat := (s.iss.core - 1024) * 2 ^ 18 + a

/-- Reads n bytes of local SRAM. -/
def State.sramRead (s : State) (a n : Nat) : List Byte := s.rsram.getMany 0 (s.sramKey a) n

/-- Writes bytes of local SRAM. -/
def State.sramWrite (s : State) (a : Nat) (bs : List Byte) : State :=
  { s with rsram := s.rsram.setMany 0 (s.sramKey a) bs }

/-- TRAPVAL of an access to local SRAM that its share does not hold: the address of its first byte outside (R219). -/
def State.sramTval (s : State) (va : Word) (n : Nat) : Word :=
  memTval 0x083 0 (va + BitVec.ofNat 64 (((upFrom 0 n).find? fun i => !s.inShare (va.toNat % 2 ^ 18 + i) 1).getD 0))

/-- Whether an access goes to local SRAM: alias class 15 in a retriever (R388). -/
def State.toSram (s : State) (cls : Nat) : Bool := s.inRetr && cls == 15

/-- Invalidates the hoisted loads of local SRAM that a store to it overlaps (R135). -/
def State.noteSram (s : State) (a n : Nat) : State :=
  let t := s.task
  let hit (h : Hoist) : Bool := s.sramHoist h && h.addr.toNat % 2 ^ 18 < a + n && a < h.addr.toNat % 2 ^ 18 + h.size
  if s.iss.slotRaised || t.hoist.isEmpty then s else s.setTask { t with hoist := t.hoist.filter fun eh => !hit eh.2 }

/-! ### Loads and stores (R269, R270) -/

/-- The destination of a load: nothing for G0 (R269). -/
def loadDest (d : BitVec 6) : RDest := if d = 0 then .none else .g d.toNat

/-- A load of n bytes at va into G(d), latency lam; acq: an acquire. A class-15 access outside the thread's share of the SRAM raises
0x083 with its address (R219, R388). -/
def State.load (s : State) (d : BitVec 6) (va : Word) (n cls : Nat) (zx : Bool) (lam : Nat) (acq : Bool := false) : State :=
  if s.toSram cls then
    let a := va.toNat % 2 ^ 18
    if s.inShare a n then s.issueTo (loadDest d) lam (.ready (imgW (extendLoad (s.sramRead a n) zx)))
    else s.raise 0x083 (s.sramTval va n)
  else (s.request (loadDest d) lam cls (.load va n zx) acq).note va n cls false

/-- A store of n bytes of G(d) at va; rel: a release. Its errors are reported imprecisely (R108). -/
def State.store (s : State) (d : BitVec 6) (va : Word) (n cls : Nat) (rel : Bool) : State :=
  let bs := toBytes n (s.task.gReg d.toNat).toNat
  if s.toSram cls then
    let a := va.toNat % 2 ^ 18
    if s.inShare a n then (s.sramWrite a bs).noteSram a n else s.raise 0x083 (s.sramTval va n)
  else
    (s.storeVA va bs (devOk s.unit va n) rel).note va n cls true

/-- A plain load of format M (R269). -/
def State.loadM (s : State) (d b : BitVec 6) (k : BitVec 4) (off : BitVec 17) (n : Nat) : State :=
  s.load d (s.task.addrM b n off) n k.toNat false 32

/-- A plain store of format M (R269). -/
def State.storeM (s : State) (d b : BitVec 6) (k : BitVec 4) (off : BitVec 17) (n : Nat) : State :=
  s.store d (s.task.addrM b n off) n k.toNat false

/-- LDB (R269). -/
def execLdb (d b : BitVec 6) (k : BitVec 4) (off : BitVec 17) (s : State) : Out := .next (s.loadM d b k off 1)
/-- LDS (R269). -/
def execLds (d b : BitVec 6) (k : BitVec 4) (off : BitVec 17) (s : State) : Out := .next (s.loadM d b k off 2)
/-- LDW (R269). -/
def execLdw (d b : BitVec 6) (k : BitVec 4) (off : BitVec 17) (s : State) : Out := .next (s.loadM d b k off 4)
/-- LDD (R269). -/
def execLdd (d b : BitVec 6) (k : BitVec 4) (off : BitVec 17) (s : State) : Out := .next (s.loadM d b k off 8)
/-- STB (R269). -/
def execStb (d b : BitVec 6) (k : BitVec 4) (off : BitVec 17) (s : State) : Out := .next (s.storeM d b k off 1)
/-- STS (R269). -/
def execSts (d b : BitVec 6) (k : BitVec 4) (off : BitVec 17) (s : State) : Out := .next (s.storeM d b k off 2)
/-- STW (R269). -/
def execStw (d b : BitVec 6) (k : BitVec 4) (off : BitVec 17) (s : State) : Out := .next (s.storeM d b k off 4)
/-- STD (R269). -/
def execStd (d b : BitVec 6) (k : BitVec 4) (off : BitVec 17) (s : State) : Out := .next (s.storeM d b k off 8)

/-- LDB.ACQ to LDD.ACQ (R270): natural alignment or 0x08C; an acquire invalidates hoisted loads. -/
def execLdAcq (d b : BitVec 6) (k : BitVec 4) (_sc : BitVec 3) (z : BitVec 2) (zx : Bool) (s : State) : Out :=
  let va := s.task.gReg b.toNat
  let n := 2 ^ z.toNat
  if va.toNat % n ≠ 0 then .next (s.raise 0x08C (memTval 0x08C 0 va))
  else .next (s.load d va n k.toNat zx 32 true).acquired

/-- STB.REL to STD.REL (R270): natural alignment or 0x08C; held behind the side log and the accesses it orders
(R111, R147). -/
def execStRel (d b : BitVec 6) (k : BitVec 4) (_sc : BitVec 3) (z : BitVec 2) (s : State) : Out :=
  let va := s.task.gReg b.toNat
  let n := 2 ^ z.toNat
  if va.toNat % n ≠ 0 then .next (s.raise 0x08C (memTval 0x08C 0 va)) else .next (s.store d va n k.toNat true)

/-! ### Hoisted loads (R272, R273) -/

/-- LDH (R272, R273): performs the load and records entry e, whose value a held load still brings; where the load would fail, the
entry is invalid and G(d) := 0. A class-15 access outside the thread's share of the SRAM raises 0x083, as every other does (R388). -/
def execLdh (d b : BitVec 6) (k : BitVec 4) (e : BitVec 5) (z : BitVec 2) (zx : Bool) (s : State) : Out :=
  let va := s.task.gReg b.toNat
  let n := 2 ^ z.toNat
  let entry (locs : List (Nat × Nat)) (kindS : Bool) (w : Word) (id : Option Nat) : Hoist := ⟨va, n, zx, k.toNat, kindS, w, id, locs⟩
  let fin (s : State) (x : Option Hoist) (v : RVal) : Out :=
    let t := s.task
    let h := match x with | some x => t.hoist.put e.toNat x | none => t.hoist.del e.toNat
    .next ((s.setTask { t with hoist := h }).issueTo (loadDest d) 32 v)
  if s.toSram k.toNat then
    let a := va.toNat % 2 ^ 18
    let w := extendLoad (s.sramRead a n) zx
    if s.inShare a n then fin s (some (entry [] false w none)) (.ready (imgW w)) else .next (s.raise 0x083 (s.sramTval va n))
  else
    let locs := (s.looks s.unit s.task.place.ctx va n .read).map fun b => (b.module, b.ia)
    let (h, s) := s.newHeld (.ldh e.toNat va n zx k.toNat)
    let r := s.issue { h with cls := k.toNat }
    let s := r.1.note va n k.toNat false
    match r.2 with
    | .done img => fin s (some (entry locs (s.reachesS va n) (img.setWidth 64) none)) (.ready img)
    | .hold h => fin (s.hold h) (some (entry locs (s.reachesS va n) 0 (some h.id))) (.await h.id)
    | _ => fin s none (.ready 0)

/-- CHKH (R273): delivers the recorded value of a matching entry, else loads afresh; the entry is invalid after it. An entry whose
value has not arrived does not match (log 38). -/
def execChkh (d b : BitVec 6) (k : BitVec 4) (e : BitVec 5) (z : BitVec 2) (zx : Bool) (s : State) : Out :=
  let va := s.task.gReg b.toNat
  let n := 2 ^ z.toNat
  let drop (s : State) : State :=
    if s.iss.slotRaised then s else s.setTask { s.task with hoist := s.task.hoist.del e.toNat }
  match s.task.hoist.get? e.toNat with
  | some h =>
    if h.addr = va ∧ h.size = n ∧ h.zx = zx ∧ h.cls = k.toNat ∧ h.await = none then
      .next (drop ((s.deposit 2 (imgW h.val)).issueTo (loadDest d) 2 (.ready (imgW h.val))))
    else .next (drop (s.load d va n k.toNat zx 2))
  | none => .next (drop (s.load d va n k.toNat zx 2))

/-! ### Atomics (R274 to R276) and remote operations (R277) -/

/-- The size of an atomic in bytes (R274). -/
def atomSize (z : Bool) : Nat := if z then 8 else 4

/-- An atomic of format A: alignment or 0x08C, then the read-modify-write; an acquire ends hoisted loads. -/
def State.atom (s : State) (dest : RDest) (va : Word) (n op : Nat) (ops : List Word) (o : BitVec 2) : State :=
  if va.toNat % n ≠ 0 then s.raise 0x08C (memTval 0x08C 0 va)
  else
    let s := (s.request dest 48 0 (.atomic op va n ops) (o.toNat % 2 == 1) (o.toNat / 2 == 1)).note va n 0 true
    if o.toNat % 2 = 1 then s.acquired else s

/-- An atomic with one operand (R274). -/
def State.atom1 (s : State) (op : Nat) (d b v : BitVec 6) (o : BitVec 2) (z : Bool) : State :=
  let t := s.task
  s.atom (loadDest d) (t.gReg b.toNat) (atomSize z) op [t.gReg v.toNat, t.gReg d.toNat] o

/-- AADD (R274). -/
def execAadd (d b v : BitVec 6) (o : BitVec 2) (_sc : BitVec 3) (z : Bool) (s : State) : Out := .next (s.atom1 0 d b v o z)
/-- ASADD (R274). -/
def execAsadd (d b v : BitVec 6) (o : BitVec 2) (_sc : BitVec 3) (z : Bool) (s : State) : Out := .next (s.atom1 1 d b v o z)
/-- AMIN (R274). -/
def execAmin (d b v : BitVec 6) (o : BitVec 2) (_sc : BitVec 3) (z : Bool) (s : State) : Out := .next (s.atom1 2 d b v o z)
/-- AMAX (R274). -/
def execAmax (d b v : BitVec 6) (o : BitVec 2) (_sc : BitVec 3) (z : Bool) (s : State) : Out := .next (s.atom1 3 d b v o z)
/-- AAND (R274). -/
def execAand (d b v : BitVec 6) (o : BitVec 2) (_sc : BitVec 3) (z : Bool) (s : State) : Out := .next (s.atom1 4 d b v o z)
/-- AOR (R274). -/
def execAor (d b v : BitVec 6) (o : BitVec 2) (_sc : BitVec 3) (z : Bool) (s : State) : Out := .next (s.atom1 5 d b v o z)
/-- AXCHG (R274). -/
def execAxchg (d b v : BitVec 6) (o : BitVec 2) (_sc : BitVec 3) (z : Bool) (s : State) : Out := .next (s.atom1 6 d b v o z)
/-- ACAS (R274). -/
def execAcas (d b v : BitVec 6) (o : BitVec 2) (_sc : BitVec 3) (z : Bool) (s : State) : Out := .next (s.atom1 7 d b v o z)

/-- ACAS2 (R275): odd d or v raises 0x054. -/
def execAcas2 (d b v : BitVec 6) (o : BitVec 2) (_sc : BitVec 3) (s : State) : Out :=
  let t := s.task
  if d.toNat % 2 = 1 ∨ v.toNat % 2 = 1 then .next (s.raise 0x054)
  else .next (s.atom (.gPair d.toNat) (t.gReg b.toNat) 16 9
    [t.gReg d.toNat, t.gReg (d.toNat + 1), t.gReg v.toNat, t.gReg (v.toNat + 1)] o)

/-- The hoisted loads that a REMOP ends (R135): its block is read and its REPLY bytes written, its target and ENQ's node accessed; a
block that cannot be read yet ends all of them. -/
def State.noteRemop (s : State) (va gv : Word) : State :=
  let s := (s.note gv 128 0 false).note (gv + 96) 32 0 true
  match s.readLooks (s.looks s.unit s.task.place.ctx gv 128 .read) [] [] false with
  | .ok bs =>
    let b := remopBlk bs
    let s := s.note va b.size 0 (b.op != 3)
    if b.op = 2 then s.note b.x 8 0 true else s
  | _ => if s.iss.slotRaised then s else s.dropHoists

/-- REMOP (R277, R278): the request block is aligned to 128, or 0x08C. -/
def execRemop (d b v : BitVec 6) (o : BitVec 2) (_sc : BitVec 3) (s : State) : Out :=
  let va := s.task.gReg b.toNat
  let gv := s.task.gReg v.toNat
  if gv.toNat % 128 ≠ 0 then .next (s.raise 0x08C (memTval 0x08C 0 gv))
  else
    let s := (s.request (loadDest d) 96 0 (.remop va gv) (o.toNat % 2 == 1) (o.toNat / 2 == 1)).noteRemop va gv
    .next (if o.toNat % 2 = 1 then s.acquired else s)

/-! ### Answers (R176, R221, R228) -/

/-- Gives the first result that awaits a reply its late cause: an access of several results is one cause, and the others are not
written (R179, R221, R303). -/
def lateOnce (id : Nat) (v : RVal) : List Pend → List Pend
  | [] => []
  | p :: rest =>
    if p.val = .await id then { p with val := v } :: rest.map fun q => if q.val = .await id then { q with val := .gone } else q
    else p :: lateOnce id v rest

/-- Puts a reply where its result waits, in flight or in the shadow buffer. -/
def fillPend (id : Nat) (v : RVal) (ps : List Pend) : List Pend :=
  match v with
  | .late _ _ => lateOnce id v ps
  | _ => ps.map fun p => if p.val = .await id then { p with val := v } else p

/-- Puts the entries a VDRAIN has read where its results wait: column i in the i-th V result, the mask of the entries in the K
result (R303). -/
def fillDrain (id m : Nat) (ws : List Int) : List Pend → Nat → List Pend
  | [], _ => []
  | p :: rest, i =>
    if p.val ≠ .await id then p :: fillDrain id m ws rest i
    else match p.dest with
      | .k _ => { p with val := .ready (imgW (BitVec.ofNat 64 (2 ^ m - 1))) } :: fillDrain id m ws rest i
      | _ =>
        let col := (upFrom 0 64).map fun l => if l < m then ws.getD (8 * l + i) 0 else 0
        { p with val := .ready (BitVec.ofNat 2048 (pack 32 col)) } :: fillDrain id m ws rest (i + 1)

/-- The task with the entries a VDRAIN has read. -/
def Task.drainGot (t : Task) (id : Nat) (bs : List Byte) : Task :=
  let m := bs.length / 32
  let ws : List Int := (unpack 32 (8 * m) (ofBytes bs)).map fun (x : Nat) => (x : Int)
  { t with
    inflight := fillDrain id m ws t.inflight 0, shadow := fillDrain id m ws t.shadow 0, hshadow := fillDrain id m ws t.hshadow 0 }

/-- Whether a task awaits the access with identifier id. -/
def Task.awaits (t : Task) (id : Nat) : Bool :=
  (t.inflight ++ t.shadow ++ t.hshadow).any (fun p => p.val == .await id) || t.fetchHold == some id
    || (match t.wait with
      | .reread i _ _ _ _ _ => i == id
      | .launch i _ => i == id
      | _ => false)
    || match t.kept with
      | .sleep (.launch i _) => i == id
      | _ => false

/-- The task of a kernel in a slot, or taken off it since (R179): a kernel has one task on a core. -/
def State.taskOf (s : State) (core slot kernel : Nat) : Task :=
  let t := s.taskAt core slot
  if t.stat ≠ .free ∧ t.place.kernel = kernel then t
  else ((s.offs.find? fun o => o.core == core && o.slot == slot && o.task.place.kernel == kernel).map (·.task)).getD .empty

/-- A jump-table entry that arrives (R252): its branch is taken; an error is raised precisely at the JMPT or CALLT
bundle, whose delay bundle has not issued, once no freeze is in force (R223). -/
def Task.answerJump (t : Task) (h : Held) (call : Bool) (r : Served) : Task :=
  let t := { t with inflight := t.inflight.filter fun p => p.val ≠ .await h.id }
  match r with
  | .done img =>
    let t := if call then t.writeDest (.g 63) (imgW (h.pc + 32)) else t
    { t with delay := .taken (jumpEntry img) }
  | .xlat c tv | .fail c tv => { t with jumpErr := some (h.pc, t.jtCommit.toNat / 2 * 2, c, tv) }
  | _ => t

/-- Ends a task's wait: a sleeping task becomes ready; a task held in its slot will be when it goes on (R169). -/
def Task.endWait (t : Task) : Task := { t with stat := if t.stat = .sleeping then .ready else t.stat, wait := .none }

/-- A late cause of a wait: it is due before the task's next bundle (R221). -/
def Task.lateNow (t : Task) (slot : Nat) (pc : Word) (c : Nat) (tv : Word) : Task :=
  { t with inflight := t.inflight ++ [⟨.none, .late c tv, 1, slot, pc, false⟩] }

/-- A task whose wait issues again (R261): slot 0 of the wait's bundle, alone. -/
def Task.againWait (t : Task) : Task := { t.endWait with pc := t.waitPc, skip := 14 }

/-- The task with the reply of an access where its result waits, in flight or in the shadow buffer. A result of latency 2 that is
still in flight takes its latch, unless it replays (R56, R57, R229). -/
def Task.fill (t : Task) (h : Held) (v : RVal) : Task :=
  let latch : Latches := match v with
    | .ready img => if h.lat2 && t.inflight.any (fun p => p.val == .await h.id && !p.again)
        then { t.latch with next := t.latch.next.set h.slot (some img) } else t.latch
    | _ => t.latch
  { t with
    inflight := fillPend h.id v t.inflight, shadow := fillPend h.id v t.shadow, hshadow := fillPend h.id v t.hshadow
    latch := latch }

/-- The task with an LDH's value in its entry, where the entry still awaits it (R135, R273); none: the load failed. -/
def Task.fillHoist (t : Task) (e id : Nat) (v : Option Word) : Task :=
  match t.hoist.get? e with
  | some x => if x.await = some id then
      { t with hoist := match v with
        | some w => t.hoist.put e { x with val := w, await := none }
        | none => t.hoist.del e }
    else t
  | none => t

/-- What a read that its bundle waits for leaves to the task (R34, R109): the bytes other modules sent, or its error. -/
def Task.fetched (t : Task) (h : Held) (va : Word) (r : Served) : Task :=
  { t with
    fetchHold := none
    fetchGot := if h.got.isEmpty then t.fetchGot else t.fetchGot ++ [(va, h.got)]
    fetchErr := match r with | .xlat c tv | .fail c tv => some (va, c, tv) | _ => none }

/-- A task with the result of an access (R176): the result in flight takes it; LDH's entry; WAITE's task wakes where its test holds
or its read failed. -/
def Task.answered (t : Task) (h : Held) (r : Served) : Task :=
  match t.inflight.find? fun p => p.val = .await h.id ∧ (p.dest = .jump true ∨ p.dest = .jump false) with
  | some p => t.answerJump h (p.dest == .jump true) r
  | none =>
    if t.fetchHold = some h.id then t.fetched h (h.req.addr 0) r
    else match h.req, r with
    | _, .hold _ => t
    | .ldh e _ _ _ _, .done img => (t.fill h (.ready img)).fillHoist e h.id (some (img.setWidth 64))
    | .ldh e _ _ _ _, _ => (t.fill h (.ready 0)).fillHoist e h.id none
    | .waite _, .done img => match t.wait with
      | .reread i ts _ _ cmp _ => if i = h.id ∧ waiteHolds ts (img.setWidth 64) cmp = true then t.endWait else t
      | _ => t
    | .waite _, .xlat c tv | .waite _, .fail c tv => match t.wait with
      | .reread i _ _ _ _ later =>
        if i ≠ h.id then t else if later then t.againWait else t.endWait.lateNow h.slot h.pc c tv
      | _ => t
    | .launch _ true, .xlat c tv | .launch _ true, .fail c tv => if t.awaits h.id then t.endWait.lateNow h.slot h.pc c tv else t
    | _, .done img => t.fill h (.ready img)
    | .noise _ use, .bytes bs => t.fill h (.ready (use.image (noiseOf bs)))
    | _, .bytes bs => t.drainGot h.id bs
    | _, .xlat c tv | _, .fail c tv => t.fill h (.late c tv)

/-- The clks from the reading of a launch record to its admission (R165, log 9): 60 to the scheduler, 16 there. -/
def launchPath : Nat := 76

/-- Sends a launch record that has been read to the scheduler (R155, R165). -/
def State.sendLaunch (s : State) (core slot : Nat) (t : Task) (va : Word) (img : VReg) (park : Bool) (h : Held) : State :=
  { s with launches := s.launches ++ [⟨core, slot, t.place.kernel, h.ctx, t.place.level,
    (upFrom 0 20).map fun k => (img >>> (64 * k)).setWidth 64, va, park, h.id, h.slot, h.pc, s.cycle.toNat + launchPath, false⟩] }

/-- The noise words of a posted task that were late have come, or their read failed or was withdrawn: the task is not posted then
(R33, R221). -/
def State.noiseCame (s : State) (core slot kernel seq : Nat) (bs : Option (List Byte)) : State :=
  let c := s.coreAt core
  let mine (d : Dep) : Bool := d.slot == slot && d.kernel == kernel && d.seq == seq
  s.setCoreAt core { c with deps := match bs with
    | some bs => c.deps.map fun ed => if mine ed.2 then (ed.1, { ed.2 with noise := noiseOf bs, hold := none }) else ed
    | none => c.deps.filter fun ed => !mine ed.2 }

/-- Ends a held access of the task of a kernel with its result; a launch record that has been read goes to the scheduler. -/
def State.answerTask (s : State) (core slot kernel : Nat) (h : Held) (r : Served) : State :=
  let t := s.taskOf core slot kernel
  let s := match h.req, r with
    | .noise _ (.post seq), .bytes bs => s.noiseCame core slot kernel seq (some bs)
    | .noise _ (.post _), .hold _ => s
    | .noise _ (.post seq), _ => s.noiseCame core slot kernel seq none
    | .waite _, .done _ => s.hold { h with why := .poll, got := [], bad := [] }
    | _, _ => s
  match h.req, r with
  | .launch va park, .done img =>
    if t.awaits h.id then
      s.sendLaunch core slot t va img park h
    else s
  | _, _ => s.onTask core slot kernel fun t => t.answered h r

/-- Ends a held access: it leaves the list and its unit receives the result. -/
def State.answer (s : State) (h : Held) (r : Served) : State :=
  let s := { s with held := s.held.filter fun x => x.id ≠ h.id }
  match h.unit with
  | .core c slot k => s.answerTask c slot k h r
  | .retr rr t => s.answerTask (1024 + rr) t (s.taskAt (1024 + rr) t).place.kernel h r
  | _ => s

/-- Tries a held access again (R109, R114): it is answered, or stays held as it then stands. -/
def State.retryHeld (s : State) (h : Held) : State :=
  match s.serve h with
  | (s, .hold h') => { s with held := s.held.map fun x => if x.id = h.id then h' else x }
  | (s, r) => s.answer h r

end Sys2Proof.Machine
end

