-- ==== Sys2Proof/Machine/Noise.lean ====
section
/-! DEFINITION. The noise stream of a task: reserving words from the source or a replay log (R32 to R36). -/

namespace Sys2Proof.Machine

/-- What a reservation gives: the words; nothing, for the instruction raised a cause; a late cause, of a replay read that failed at
the memory side (R221); or the read, which is held. -/
inductive Drawn where
  | words (ws : List (BitVec 16))
  | stop
  | late (cause : Nat) (tval : Word)
  | wait (h : Held)

/-- n words of the physical source: free values (R32, log 4). -/
def State.sourceWords (s : State) (n : Nat) : List (BitVec 16) × State :=
  ((upFrom s.free n).map Config.noiseWord, { s with free := s.free + n })

/-- Advances NOISEPOS (R34). -/
def State.noiseAdvance (s : State) (n : Nat) : State :=
  let t := s.task
  s.setTask { t with csr := { t.csr with noisepos := BitVec.ofNat 64 (t.csr.noisepos.toNat + n) } }

/-- Stores noise words in a log, each by its own store of 2 bytes (R42, R110). -/
def State.logNoise (s : State) (va : Word) (ws : List (BitVec 16)) : State :=
  (ws.zip (upFrom 0 ws.length)).foldl (fun s x =>
    s.storeVA (va + BitVec.ofNat 64 (2 * x.2)) (toBytes 2 x.1.toNat) false false) s

/-- Reserves n noise words for the slot that executes and their use (R33 to R35): a free stream leaves POS; a log is written by
stores of the task, a replay log read by its loads, each of 2 bytes; past LEN nothing is drawn and 0x0C5 or 0x0C4 is raised. -/
def State.draw (s : State) (n : Nat) (use : NoiseUse) : State × Drawn :=
  let c := s.task.csr
  let pos := c.noisepos.toNat
  let va := c.noisebase + BitVec.ofNat 64 (2 * pos)
  match c.noisectl.f 1 0 with
  | 1 =>
    if c.noiselen.toNat < pos + n then (s.raise 0x0C5, .stop)
    else
      let (ws, s) := s.sourceWords n
      (((s.logNoise va ws).note va (2 * n) 0 true).noiseAdvance n, .words ws)
  | 2 =>
    if c.noiselen.toNat < pos + n then (s.raise 0x0C4, .stop)
    else
      let (h, s) := s.newHeld (.noise ((upFrom 0 n).map fun k => va + BitVec.ofNat 64 (2 * k)) use)
      let on (s : State) : State := (s.note va (2 * n) 0 false).noiseAdvance n
      match s.issue h with
      | (s, .bytes bs) => (on s, .words (noiseOf bs))
      | (s, .xlat c tv) => (s.raise c tv, .stop)
      | (s, .fail c tv) => (on s, .late c tv)
      | (s, .hold h) => (on s, .wait h)
      | (s, .done _) => (s, .stop)
  | _ =>
    let (ws, s) := s.sourceWords n
    (s, .words ws)

/-- An instruction of latency lam whose result n noise words give (R33, R34, R221): a replay log that is late leaves its result
awaited as a late load does. -/
def State.drawn (s : State) (n : Nat) (use : NoiseUse) (d : RDest) (sup : Bool) (lam : Nat) : State :=
  let d' := if sup then .none else d
  match s.draw n use with
  | (s, .words ws) => s.result d sup lam (use.image ws)
  | (s, .late c tv) => s.issueTo d' lam (.late c tv)
  | (s, .wait h) => (s.issueTo d' lam (.await h.id)).hold { h with lat2 := lam == 2 }
  | (s, .stop) => s

end Sys2Proof.Machine
end

