-- ==== Sys2Proof/Machine/Vector.lean ====
section
/-! DEFINITION. The vector instructions of slots 2 and 3 and the exact integer routines (R280 to R310), with the 512-bit
registers of a retriever (R387). -/

namespace Sys2Proof.Machine

/-! ### Shapes and checks -/

/-- The bits of a V register: 2,048, or 512 in a retriever (R16, R387). -/
def State.vbits (s : State) : Nat := if s.inRetr then 512 else 2048

/-- n(w): the elements of width w of a V register (R287, R387). -/
def State.els (s : State) (w : Nat) : Nat := s.vbits / w

/-- The lanes of a V register (R15, R387). -/
def State.lanes (s : State) : Nat := s.els 32

/-- A lane mask with its reserved bits zero (R291, R387). -/
def State.kMask (s : State) (w : Word) : Word := BitVec.ofNat 64 (w.toNat % 2 ^ s.lanes)

/-- The V register a source names, if it names one. -/
def Src.vName (a : Src) : List Nat := if a.l then [] else [a.reg.toNat]

/-- Goes on where every V register named lies in the allocation, else raises 0x049 (R280, R287). -/
def State.withV (s : State) (ns : List Nat) (k : State → State) : State :=
  if ns.all s.task.vOk then k s else s.raise 0x049

/-- The elements of width w of a vector source, signed. -/
def State.elems (s : State) (a : Src) (w : Nat) : List Int := unpackS w (s.els w) (s.task.srcV a).toNat

/-- The elements of width w of a vector source, unsigned. -/
def State.uelems (s : State) (a : Src) (w : Nat) : List Nat := unpack w (s.els w) (s.task.srcV a).toNat

/-- The elements of width w that Vd holds (R286). -/
def State.oldElems (s : State) (d : Dst) (w : Nat) : List Int :=
  unpackS w (s.els w) (s.task.vPhys (s.task.vMap d.reg.toNat)).toNat

/-- A result of elements of width w for Vd. -/
def State.retEls (s : State) (d : Dst) (lam w : Nat) (xs : List Int) : State :=
  s.retV d lam (BitVec.ofNat 2048 (pack w xs))

/-- The value x in all lanes. -/
def State.retAll (s : State) (d : Dst) (lam : Nat) (x : Int) : State := s.retEls d lam 32 (List.replicate s.lanes x)

/-- An element-wise operation on the old Vd, Va and Vb (R288 to R290). -/
def State.vMap3 (s : State) (t : BitVec 2) (d : Dst) (a b : Src) (lam : Nat) (f : Nat → Int → Int → Int → Int) : State :=
  let w := tyWidth t
  s.withV (d.reg.toNat :: Src.vName a ++ Src.vName b) fun s =>
    (s.touch [a, b]).retEls d lam w
      (List.zipWith (fun o (xy : Int × Int) => f w o xy.1 xy.2) (s.oldElems d w) ((s.elems a w).zip (s.elems b w)))

/-- An element-wise operation on Va and Vb (R288). -/
def State.vMap2 (s : State) (t : BitVec 2) (d : Dst) (a b : Src) (lam : Nat) (f : Nat → Int → Int → Int) : State :=
  s.vMap3 t d a b lam fun w _ x y => f w x y

/-- An element-wise operation on Va (R288, R304). -/
def State.vMap1 (s : State) (t : BitVec 2) (d : Dst) (a : Src) (lam : Nat) (f : Nat → Int → Int) : State :=
  let w := tyWidth t
  s.withV (d.reg.toNat :: Src.vName a) fun s => (s.touch [a]).retEls d lam w ((s.elems a w).map (f w))

/-- One value for all lanes from the elements of Va (R296, R304). -/
def State.vRed (s : State) (t : BitVec 2) (d : Dst) (a : Src) (f : Nat → List Int → Int) : State :=
  let w := tyWidth t
  s.withV (d.reg.toNat :: Src.vName a) fun s => (s.touch [a]).retAll d 4 (f w (s.elems a w))

/-! ### Element-wise arithmetic (R288) -/

/-- The shift amount of an element (R288). -/
def amtOf (w : Nat) (y : Int) : Nat := wrap y w % w

/-- VADD (R288). -/
def execVadd (t : BitVec 2) (d : Dst) (a b : Src) (s : State) : Out := .next (s.vMap2 t d a b 1 fun _ x y => x + y)
/-- VSUB (R288). -/
def execVsub (t : BitVec 2) (d : Dst) (a b : Src) (s : State) : Out := .next (s.vMap2 t d a b 1 fun _ x y => x - y)
/-- VSADD (R288). -/
def execVsadd (t : BitVec 2) (d : Dst) (a b : Src) (s : State) : Out :=
  .next (s.vMap2 t d a b 1 fun w x y => sat (x + y) w)
/-- VSSUB (R288). -/
def execVssub (t : BitVec 2) (d : Dst) (a b : Src) (s : State) : Out :=
  .next (s.vMap2 t d a b 1 fun w x y => sat (x - y) w)
/-- VMUL (R288). -/
def execVmul (t : BitVec 2) (d : Dst) (a b : Src) (s : State) : Out := .next (s.vMap2 t d a b 2 fun _ x y => x * y)
/-- VMULH (R288). -/
def execVmulh (t : BitVec 2) (d : Dst) (a b : Src) (s : State) : Out :=
  .next (s.vMap2 t d a b 2 fun w x y => floorShift (x * y) w)
/-- VMULH.Q (R288). -/
def execVmulhQ (t : BitVec 2) (d : Dst) (a b : Src) (s : State) : Out :=
  .next (s.vMap2 t d a b 2 fun w x y => sat (rneShift (x * y) (w - 1)) w)
/-- VMAC (R288). -/
def execVmac (t : BitVec 2) (d : Dst) (a b : Src) (s : State) : Out :=
  .next (s.vMap3 t d a b 2 fun w o x y => sat (o + x * y) w)
/-- VMIN (R288). -/
def execVmin (t : BitVec 2) (d : Dst) (a b : Src) (s : State) : Out :=
  .next (s.vMap2 t d a b 1 fun _ x y => if x ≤ y then x else y)
/-- VMAX (R288). -/
def execVmax (t : BitVec 2) (d : Dst) (a b : Src) (s : State) : Out :=
  .next (s.vMap2 t d a b 1 fun _ x y => if x ≤ y then y else x)
/-- VABS (R288). -/
def execVabs (t : BitVec 2) (d : Dst) (a : Src) (s : State) : Out :=
  .next (s.vMap1 t d a 1 fun w x => sat (if x < 0 then -x else x) w)
/-- VNEG (R288). -/
def execVneg (t : BitVec 2) (d : Dst) (a : Src) (s : State) : Out := .next (s.vMap1 t d a 1 fun w x => sat (-x) w)

/-- A bitwise operation on whole registers, at any type (R288). -/
def State.vBits (s : State) (d : Dst) (a b : Src) (f : VReg → VReg → VReg) : State :=
  s.withV (d.reg.toNat :: Src.vName a ++ Src.vName b) fun s =>
    (s.touch [a, b]).retV d 1 (f (s.task.srcV a) (s.task.srcV b))

/-- VAND (R288). -/
def execVand (_t : BitVec 2) (d : Dst) (a b : Src) (s : State) : Out := .next (s.vBits d a b fun x y => x &&& y)
/-- VOR (R288). -/
def execVor (_t : BitVec 2) (d : Dst) (a b : Src) (s : State) : Out := .next (s.vBits d a b fun x y => x ||| y)
/-- VXOR (R288). -/
def execVxor (_t : BitVec 2) (d : Dst) (a b : Src) (s : State) : Out := .next (s.vBits d a b fun x y => x ^^^ y)

/-- VSHL (R288). -/
def execVshl (t : BitVec 2) (d : Dst) (a b : Src) (s : State) : Out :=
  .next (s.vMap2 t d a b 1 fun w x y => shl x (amtOf w y))
/-- VSHL.S (R288). -/
def execVshlS (t : BitVec 2) (d : Dst) (a b : Src) (s : State) : Out :=
  .next (s.vMap2 t d a b 1 fun w x y => sat (shl x (amtOf w y)) w)
/-- VSHR (R288). -/
def execVshr (t : BitVec 2) (d : Dst) (a b : Src) (s : State) : Out :=
  .next (s.vMap2 t d a b 1 fun w x y => (wrap x w / 2 ^ amtOf w y : Nat))
/-- VSRA (R288). -/
def execVsra (t : BitVec 2) (d : Dst) (a b : Src) (s : State) : Out :=
  .next (s.vMap2 t d a b 1 fun w x y => floorShift x (amtOf w y))

/-- VCMP (R289). -/
def execVcmp (c t : BitVec 2) (d : Dst) (a b : Src) (s : State) : Out :=
  .next (s.vMap2 t d a b 1 fun _ x y => if vcmpHolds c.toNat x y then -1 else 0)

/-- VSEL (R290). -/
def execVsel (t : BitVec 2) (d : Dst) (a b : Src) (s : State) : Out :=
  .next (s.vMap3 t d a b 1 fun _ o x y => if o = 0 then y else x)

/-! ### Lane masks (R291) -/

/-- A logical operation on lane masks. -/
def State.kOp (s : State) (d : Dst) (a b : Src) (f : Word → Word → Word) : State :=
  (s.touch [a, b]).retK d (s.kMask (f (s.task.srcK a) (s.task.srcK b)))

/-- VKOP.AND (R291). -/
def execVkopAnd (d : Dst) (a b : Src) (s : State) : Out := .next (s.kOp d a b fun x y => x &&& y)
/-- VKOP.OR (R291). -/
def execVkopOr (d : Dst) (a b : Src) (s : State) : Out := .next (s.kOp d a b fun x y => x ||| y)
/-- VKOP.XOR (R291). -/
def execVkopXor (d : Dst) (a b : Src) (s : State) : Out := .next (s.kOp d a b fun x y => x ^^^ y)
/-- VKOP.ANDN (R291). -/
def execVkopAndn (d : Dst) (a b : Src) (s : State) : Out := .next (s.kOp d a b fun x y => x &&& ~~~y)

/-- A mask of the lanes for which p holds. -/
def maskOf (ps : List Bool) : Word := BitVec.ofNat 64 (ps.foldr (fun p acc => b2n p + 2 * acc) 0)

/-- VKOP.FROMV (R291). -/
def execVkopFromv (d : Dst) (a : Src) (s : State) : Out :=
  .next (s.withV (Src.vName a) fun s => (s.touch [a]).retK d (maskOf ((s.elems a 32).map (· != 0))))
/-- VKOP.TOV (R291). -/
def execVkopTov (d : Dst) (a : Src) (s : State) : Out :=
  .next (s.withV [d.reg.toNat] fun s =>
    (s.touch [a]).retEls d 1 32 ((upFrom 0 s.lanes).map fun l => if (s.task.srcK a).b l then -1 else 0))
/-- VKOP.FROMG (R291). -/
def execVkopFromg (d : Dst) (a : Src) (s : State) : Out := .next ((s.touch [a]).retK d (s.kMask (s.task.srcG a)))
/-- VKOP.TOG (R291). -/
def execVkopTog (d : Dst) (a : Src) (s : State) : Out := .next ((s.touch [a]).retG d 1 (s.task.srcK a))
/-- VKOP.POPC (R291). -/
def execVkopPopc (d : Dst) (a : Src) (s : State) : Out :=
  .next ((s.touch [a]).retG d 1 (BitVec.ofNat 64 (popcount 64 (s.task.srcK a).toNat)))

/-! ### Conversion, widening, packing, rearrangement (R292, R293) -/

/-- VNSHR (R292). -/
def execVnshr (t : BitVec 2) (h : Bool) (d : Dst) (a b : Src) (s : State) : Out :=
  let w := tyWidth t
  .next (s.withV (d.reg.toNat :: Src.vName a) fun s =>
    let sh := (s.task.srcG b).f 4 0
    let ys := (s.elems a (2 * w)).map fun x => sat (rneShift x sh) w
    (s.touch [a, b]).retEls d 2 w (replaceFrom (s.oldElems d w) ys (b2n h * s.els (2 * w))))

/-- VCVT (R292). -/
def execVcvt (t q : BitVec 2) (d : Dst) (a b : Src) (s : State) : Out :=
  let w := tyWidth t
  let ws := tyWidth q
  .next (s.withV (d.reg.toNat :: Src.vName a) fun s =>
    let sh := sext ((s.task.srcG b).f 5 0) 6
    let m := s.els (Nat.max w ws)
    let ys := ((s.elems a ws).take m).map fun x => sat (if 0 ≤ sh then rneShift x sh.toNat else shl x (-sh).toNat) w
    (s.touch [a, b]).retEls d 2 w (replaceFrom (s.oldElems d w) ys 0))

/-- VWIDEN (R292). -/
def execVwiden (t : BitVec 2) (h u : Bool) (d : Dst) (a : Src) (s : State) : Out :=
  let w := tyWidth t
  .next (s.withV (d.reg.toNat :: Src.vName a) fun s =>
    let m := s.els (2 * w)
    let xs : List Int := if u then (s.uelems a w).map Int.ofNat else s.elems a w
    (s.touch [a]).retEls d 2 (2 * w) ((xs.drop (b2n h * m)).take m))

/-- VPACK (R292). -/
def execVpack (t : BitVec 2) (d : Dst) (a b : Src) (s : State) : Out :=
  let w := tyWidth t
  .next (s.withV (d.reg.toNat :: Src.vName a ++ Src.vName b) fun s =>
    (s.touch [a, b]).retEls d 2 w ((s.elems a (2 * w) ++ s.elems b (2 * w)).map fun x => sat x w))

/-- Elements of two vectors in turn. -/
def interleave (xs ys : List Int) : List Int := (xs.zip ys).flatMap fun xy => [xy.1, xy.2]

/-- The elements at even places. -/
def evens : List Int → List Int
  | x :: _ :: rest => x :: evens rest
  | xs => xs

/-- VUNPK (R293). -/
def execVunpk (f t : BitVec 2) (d : Dst) (a b : Src) (s : State) : Out :=
  let w := tyWidth t
  .next (s.withV (d.reg.toNat :: Src.vName a ++ Src.vName b) fun s =>
    let m := s.els w / 2
    let x := s.elems a w
    let y := s.elems b w
    (s.touch [a, b]).retEls d 2 w (match f.toNat with
      | 0 => evens x ++ evens y
      | 1 => evens (x.drop 1) ++ evens (y.drop 1)
      | 2 => interleave (x.take m) (y.take m)
      | _ => interleave (x.drop m) (y.drop m)))

/-! ### Patterns (R294, R295) -/

/-- VSHUF (R295). -/
def execVshuf (t : BitVec 2) (d : Dst) (a : Src) (b : BitVec 6) (s : State) : Out :=
  let w := tyWidth t
  .next (s.withV (d.reg.toNat :: Src.vName a) fun s =>
    let p := s.task.tile.p.get ⟨[], false, [], false⟩ b.toNat
    if !p.actOk then s.raise 0x04B
    else
      let x := s.elems a w
      (s.touch [a]).retEls d 2 w ((upFrom 0 (s.els w)).map fun e => x.getD (p.act.getD e 0).toNat 0))

/-- VPLD (R294): suppressed, it writes nothing. A pattern is no latch value. -/
def execVpld (d : Dst) (a : Src) (s : State) : Out :=
  .next (s.withV (Src.vName a) fun s =>
    let s' := s.touch [a]
    if d.s then s' else s'.issueTo (.pLoad d.reg.toNat) 1 (.ready (s.task.srcV a)))

/-- VPSW (R294). -/
def execVpsw (d : Dst) (s : State) : Out := .next (if d.s then s else s.issueTo (.pSwap d.reg.toNat) 1 (.ready 0))

/-- VPSW.ALL (R294). -/
def execVpswAll (sup : Bool) (s : State) : Out := .next (if sup then s else s.issueTo .pSwapAll 1 (.ready 0))

/-! ### Reductions, scans, broadcast, extraction (R296, R297) -/

/-- The sum of a list. -/
def isum (xs : List Int) : Int := xs.foldl (· + ·) 0

/-- The greatest element. -/
def imax : List Int → Int
  | [] => 0
  | x :: xs => xs.foldl (fun m y => if m < y then y else m) x

/-- The least element. -/
def imin : List Int → Int
  | [] => 0
  | x :: xs => xs.foldl (fun m y => if y < m then y else m) x

/-- The prefix sums of a list, from acc on: inclusive, or exclusive. -/
def prefixSums (ex : Bool) : Int → List Int → List Int
  | _, [] => []
  | acc, x :: xs => (if ex then acc else acc + x) :: prefixSums ex (acc + x) xs

/-- VREDS (R296). -/
def execVreds (t : BitVec 2) (d : Dst) (a : Src) (s : State) : Out := .next (s.vRed t d a fun _ xs => sat (isum xs) 32)
/-- VREDS.SQ (R296). -/
def execVredsSq (t : BitVec 2) (d : Dst) (a : Src) (s : State) : Out :=
  .next (s.vRed t d a fun _ xs => sat (isum (xs.map fun x => x * x)) 32)
/-- VREDM.MAX (R296). -/
def execVredmMax (t : BitVec 2) (d : Dst) (a : Src) (s : State) : Out := .next (s.vRed t d a fun _ xs => imax xs)
/-- VREDM.MIN (R296). -/
def execVredmMin (t : BitVec 2) (d : Dst) (a : Src) (s : State) : Out := .next (s.vRed t d a fun _ xs => imin xs)
/-- VREDM.AMAX (R296). -/
def execVredmAmax (t : BitVec 2) (d : Dst) (a : Src) (s : State) : Out :=
  .next (s.vRed t d a fun _ xs => sat (imax (xs.map fun x => if x < 0 then -x else x)) 32)

/-- A prefix sum of Va, each element saturated from its exact prefix (R296). -/
def State.vScan (s : State) (t : BitVec 2) (d : Dst) (a : Src) (ex : Bool) : State :=
  let w := tyWidth t
  s.withV (d.reg.toNat :: Src.vName a) fun s =>
    (s.touch [a]).retEls d 4 w ((prefixSums ex 0 (s.elems a w)).map fun x => sat x w)

/-- VSCAN (R296). -/
def execVscan (t : BitVec 2) (d : Dst) (a : Src) (s : State) : Out := .next (s.vScan t d a false)
/-- VSCAN.EX (R296). -/
def execVscanEx (t : BitVec 2) (d : Dst) (a : Src) (s : State) : Out := .next (s.vScan t d a true)

/-- VBCAST (R297). -/
def execVbcast (t : BitVec 2) (d : Dst) (a : Src) (s : State) : Out :=
  let w := tyWidth t
  .next (s.withV [d.reg.toNat] fun s =>
    (s.touch [a]).retEls d 1 w (List.replicate (s.els w) ((s.task.srcG a).toNat : Int)))

/-- VBCAST.V (R297). -/
def execVbcastV (t : BitVec 2) (d : Dst) (a b : Src) (s : State) : Out :=
  let w := tyWidth t
  .next (s.withV (d.reg.toNat :: Src.vName a) fun s =>
    match (s.elems a w)[(s.task.srcG b).toNat]? with
    | none => s.raise 0x04F
    | some x => (s.touch [a, b]).retEls d 1 w (List.replicate (s.els w) x))

/-- VEXTR (R297). -/
def execVextr (t : BitVec 2) (d : Dst) (a b : Src) (s : State) : Out :=
  let w := tyWidth t
  .next (s.withV (Src.vName a) fun s =>
    match (s.elems a w)[(s.task.srcG b).toNat]? with
    | none => s.raise 0x04F
    | some x => (s.touch [a, b]).retG d 2 (toWord x))

/-- VMOVI (R297). -/
def execVmovi (t : BitVec 2) (d : Dst) (c : BitVec 16) (s : State) : Out :=
  let w := tyWidth t
  .next (s.withV [d.reg.toNat] fun s => s.retEls d 1 w (List.replicate (s.els w) (sext c.toNat 16)))

/-! ### Memory (R298, R299) -/

/-- The bytes a VLD or VST moves (R298, R387). -/
def State.vBytes (s : State) : Nat := s.vbits / 8

/-- The address of a VM access, the offset in units of a register's bytes (R298, R387). -/
def State.addrVM (s : State) (b : BitVec 6) (off : BitVec 16) : Word :=
  s.task.gReg b.toNat + BitVec.ofInt 64 (s.vBytes * sext off.toNat 16)

/-- VLD (R298, R388). -/
def execVld (d : BitVec 7) (b : BitVec 6) (k : BitVec 4) (off : BitVec 16) (s : State) : Out :=
  .next (s.withV [d.toNat] fun s =>
    let va := s.addrVM b off
    let n := s.vBytes
    let dst := RDest.v (s.task.vMap d.toNat)
    if s.toSram k.toNat then
      let a := va.toNat % 2 ^ 18
      if s.inShare a n then s.issueTo dst 32 (.ready (imgBytes (s.sramRead a n))) else s.raise 0x083 (s.sramTval va n)
    else (s.request dst 32 k.toNat (.raw va n)).note va n k.toNat false)

/-- VST (R298, R388). -/
def execVst (d : BitVec 7) (b : BitVec 6) (k : BitVec 4) (off : BitVec 16) (s : State) : Out :=
  .next (s.withV [d.toNat] fun s =>
    let va := s.addrVM b off
    let n := s.vBytes
    let bs := toBytes n (s.task.vPhys (s.task.vMap d.toNat)).toNat
    if s.toSram k.toNat then
      let a := va.toNat % 2 ^ 18
      if s.inShare a n then (s.sramWrite a bs).noteSram a n else s.raise 0x083 (s.sramTval va n)
    else
      (s.storeVA va bs false false).note va n k.toNat true)

/-- The addresses of a gather's or scatter's lanes (R299). -/
def State.laneAddrs (s : State) (a b : Src) : List Word :=
  (s.elems a 32).map fun o => s.task.srcG b + toWord o

/-- The first cause a lane's element meets at issue: alignment, then translation (R287, R299). -/
def State.laneErr (s : State) (n : Nat) (acc : Acc) (va : Word) : Option (Nat × Word) :=
  if va.toNat % n ≠ 0 then some (0x08C, memTval 0x08C 0 va)
  else ((s.looks s.unit s.task.place.ctx va n acc).findSome? ByteLook.xlat?).map fun co =>
    (co.1, memTval co.1 0 (va + BitVec.ofNat 64 co.2))

/-- VGATH (R299): the lowest lane that fails at issue is reported precisely; else the lanes are read, each its own
access. -/
def execVgath (u : Bool) (t : BitVec 2) (d : Dst) (a b : Src) (s : State) : Out :=
  let w := tyWidth t
  .next (s.withV (d.reg.toNat :: Src.vName a) fun s =>
    let vas := s.laneAddrs a b
    let s := s.touch [a, b]
    match vas.findSome? (s.laneErr (w / 8) .read) with
    | some (c, tv) => s.raise c tv
    | none =>
      let dst := if d.s then RDest.none else .v (s.task.vMap d.reg.toNat)
      vas.foldl (fun s va => s.note va (w / 8) 0 false) (s.request dst 48 0 (.gather w u vas)))

/-- VSCAT (R299): lanes in ascending order up to the first that fails at issue, which one imprecise report names; each
lane that fails at the memory side gives its own. -/
def execVscat (t : BitVec 2) (d : Dst) (a b : Src) (s : State) : Out :=
  let w := tyWidth t
  let n := w / 8
  .next (s.withV (d.reg.toNat :: Src.vName a) fun s =>
    let vas := s.laneAddrs a b
    let data := (s.oldElems d 32).map fun x => toBytes n (wrap x w)
    let s := s.touch [a, b]
    let good := vas.takeWhile fun va => (s.laneErr n .write va).isNone
    let s := (good.zip data).foldl (fun s vx =>
      (s.storeVA vx.1 vx.2 false false).note vx.1 n 0 true) s
    match (vas.drop good.length).head? with
    | none => s
    | some va => match s.laneErr n .write va with
      | none => s
      | some (c, tv) => s.reportTo s.iss.core s.iss.slot [⟨c, tv⟩])

/-! ### The tile-store port (R300, R316) -/

/-- The bank group of a tile-store byte (R316). -/
def bankOf (a : Nat) : Nat := a / 0x10000

/-- Whether n tile-store bytes from a lie in the store and in a task's bank groups (R300, R316). -/
def Task.ownsTile (t : Task) (a n : Nat) : Bool :=
  a + n ≤ 0x80000 && (upFrom (bankOf a) (bankOf (a + n - 1) + 1 - bankOf a)).all fun g => bit t.place.groups g

/-- What an access to 256 raw tile-store bytes raises: 0x08D with the address of its first byte outside the task's bank groups
(R219, R300). -/
def Task.tileFault (t : Task) (a : Int) : Option Word :=
  let out (i : Nat) : Bool := a + i < 0 || !t.ownsTile (a + i).toNat 1
  ((upFrom 0 256).find? out).map fun i => memTval 0x08D 0 (toWord (a + i))

/-- Whether tile tasks that a task posted before number seq are not complete (R182). -/
def CoreSt.rawBusy (c : CoreSt) (slot kernel seq : Nat) : Bool :=
  c.deps.any fun ed => ed.2.slot == slot && ed.2.kernel == kernel && decide (ed.2.seq < seq)
    && match ed.2.stat with | .failed _ _ => false | _ => true

/-- Writes raw bytes of the tile store; a write of a whole 64-byte line clears its poison (R452). -/
def CoreSt.putRaw (c : CoreSt) (a : Nat) (bs : List Byte) : CoreSt :=
  { c with
    tileMem := c.tileMem.setMany 0 a bs
    poisonTile := c.poisonTile.filter fun l => !(a ≤ l && l + 64 ≤ a + bs.length) }

/-- Makes the raw writes of the tile store whose task's earlier tile tasks are complete (R182). -/
def State.flushRaw (s : State) (core : Nat) : State :=
  let c := s.coreAt core
  let due (r : RawSt) : Bool := !c.rawBusy r.slot r.kernel r.seq
  let c' := (c.rawSt.filter due).foldl (fun c r => c.putRaw r.addr r.bytes) c
  s.setCoreAt core { c' with rawSt := c.rawSt.filter fun r => !due r }

/-- 256 raw bytes of the tile store as the task in focus reads them: its own writes that wait included (R182, R301). -/
def State.rawRead (s : State) (a : Nat) : List Byte :=
  let c := s.coreAt s.iss.core
  let mine := c.rawSt.filter fun r => r.slot == s.iss.slot && r.kernel == s.task.place.kernel
  (mine.foldl (fun (m : Tab Byte) r => m.setMany 0 r.addr r.bytes) c.tileMem).getMany 0 a 256

/-- VTLD (R300). -/
def execVtld (d : BitVec 7) (b : BitVec 6) (off : BitVec 16) (s : State) : Out :=
  .next (s.withV [d.toNat] fun s =>
    let a := s.task.tileAddr b off
    match s.task.tileFault a with
    | some tv => s.raise 0x08D tv
    | none => s.issueTo (.v (s.task.vMap d.toNat)) 8 (.ready (imgBytes (s.rawRead a.toNat))))

/-- VTST (R300, R182): a tile task of the task posted before it does not read what it writes: it waits for that. -/
def execVtst (d : BitVec 7) (b : BitVec 6) (off : BitVec 16) (s : State) : Out :=
  .next (s.withV [d.toNat] fun s =>
    let a := s.task.tileAddr b off
    match s.task.tileFault a with
    | some tv => s.raise 0x08D tv
    | none =>
      let c := s.coreAt s.iss.core
      let bs := toBytes 256 (s.task.vPhys (s.task.vMap d.toNat)).toNat
      let k := s.task.place.kernel
      let waits := c.rawBusy s.iss.slot k c.depSeq
      s.setCoreAt s.iss.core (if waits then { c with rawSt := c.rawSt ++ [⟨s.iss.slot, k, c.depSeq, a.toNat, bs⟩] }
        else c.putRaw a.toNat bs))

/-! ### Physical registers (R283) -/

/-- VLDR (R283). -/
def execVldr (d : Dst) (a : Src) (s : State) : Out :=
  .next (s.withV [d.reg.toNat] fun s =>
    let i := (s.task.srcG a).toNat
    if s.task.place.vregs ≤ i then s.raise 0x04A else (s.touch [a]).retV d 2 (s.task.vPhys i))

/-- Takes from the lower slots of the bundle in focus their writes of a physical V register, which this slot also writes (R62). -/
def State.overrule (s : State) (i : Nat) : State :=
  let t := s.task
  let n := s.iss.infl
  s.setTask { t with inflight := t.inflight.take n ++ (t.inflight.drop n).map fun p =>
    if (p.dest == .v i) = true then { p with dest := .none } else p }

/-- VSTR (R283): of two writes of one bundle to a physical register, the higher-numbered slot's stays (R62). -/
def execVstr (sup : Bool) (a b : Src) (s : State) : Out :=
  .next (s.withV (Src.vName b) fun s =>
    let i := (s.task.srcG a).toNat
    if s.task.place.vregs ≤ i then s.raise 0x04A
    else ((if sup then s.touch [a, b] else (s.touch [a, b]).overrule i)).result (.v i) sup 1 (s.task.srcV b))

/-! ### Kennels (R185 to R187, R302, R303) -/

/-- The count of kennel q (R186). -/
def TaskCsr.kcount (c : TaskCsr) (q : Nat) : Nat := c.kencnt.f (11 * q + 10) (11 * q)

/-- Sets the count of kennel q. -/
def State.setKcount (s : State) (q n : Nat) : State :=
  let t := s.task
  s.setTask { t with csr := { t.csr with kencnt := t.csr.kencnt.setF (11 * q + 10) (11 * q) n } }

/-- The address of an entry of a kennel (R185). -/
def State.kentry (s : State) (q j : Nat) : Word := s.task.csr.kenbase + BitVec.ofNat 64 (32768 * q + 32 * j)

/-- The registers V(a) to V(a + n - 1), by number. -/
def vRange (a : BitVec 7) (n : Nat) : List Nat := upFrom a.toNat n

/-- Whether a register range ends past V127 or leaves the allocation (R302). -/
def Task.rangeOk (t : Task) (ns : List Nat) : Bool := ns.all fun n => n < 128 && t.vOk n

/-- VDEFER (R302, R303). -/
def execVdefer (c : BitVec 3) (q : BitVec 2) (_s : Bool) (a b : Src) (s : State) : Out :=
  let t := s.task
  let ns := if a.l then [] else vRange a.reg c.toNat
  if !t.rangeOk ns then .next (s.raise 0x049)
  else
    let cnt := t.csr.kcount q.toNat
    let k := t.srcK b
    let p := popcount 64 k.toNat
    if 1024 < cnt + p then .next (s.raise 0x122)
    else
      let s := s.touch [a, b]
      let vs : List (List Nat) := if a.l then [unpack 32 64 (t.srcV a).toNat]
        else ns.map fun n => unpack 32 64 (t.vPhys (t.vMap n)).toNat
      let lanes := (upFrom 0 64).filter k.b
      let s := (lanes.zip (upFrom cnt lanes.length)).foldl (fun s lj =>
        let ws := lj.1 :: vs.map fun v => v.getD lj.1 0
        let bs := (ws ++ List.replicate (8 - ws.length) 0).flatMap (toBytes 4)
        let va := s.kentry q.toNat lj.2
        (s.storeVA va bs false false).note va 32 0 true) s
      .next (s.setKcount q.toNat (cnt + p))

/-- VDRAIN (R302, R303): the count drops at issue, and the entries are read as loads, each its own access; a read that fails at
the memory side is a late cause. -/
def execVdrain (c : BitVec 3) (q : BitVec 2) (d : Dst) (k : BitVec 3) (s : State) : Out :=
  let t := s.task
  let ns := vRange d.reg (c.toNat + 1)
  if !t.rangeOk ns then .next (s.raise 0x049)
  else
    let cnt := t.csr.kcount q.toNat
    let m := Nat.min 64 cnt
    let lanes := (upFrom (cnt - m) m).map (s.kentry q.toNat)
    let dests := (if d.s then [] else ns.map fun n => RDest.v (t.vMap n)) ++ [.k k.toNat]
    let results (s : State) (v : RVal) : State :=
      dests.foldl (fun s x => s.issueTo x 32 v) ((lanes.foldl (fun s va => s.note va 32 0 false) s).setKcount q.toNat (cnt - m))
    let (h, s) := s.newHeld (.drain lanes)
    match s.issue h with
    | (s, .bytes bs) =>
      let s := results s (.await h.id)
      .next (s.setTask (s.task.drainGot h.id bs))
    | (s, .xlat cz tv) => .next (s.raise cz tv)
    | (s, .fail cz tv) => .next ((results s .gone).issueTo .none 32 (.late cz tv))
    | (s, .hold h) => .next ((results s (.await h.id)).hold h)
    | (s, .done _) => .next s

/-! ### Headroom and stochastic shift (R304, R305) -/

/-- VCLS (R304). -/
def execVcls (t : BitVec 2) (d : Dst) (a : Src) (s : State) : Out :=
  .next (s.vMap1 t d a 2 fun w x => (rsb x w : Int))
/-- VCLS.MIN (R304). -/
def execVclsMin (t : BitVec 2) (d : Dst) (a : Src) (s : State) : Out :=
  .next (s.vRed t d a fun w xs => imin (xs.map fun x => (rsb x w : Int)))

/-- VRNDS (R305). -/
def execVrnds (t : BitVec 2) (d : Dst) (a b : Src) (s : State) : Out :=
  let w := tyWidth t
  .next (s.withV (d.reg.toNat :: Src.vName a) fun s =>
    (s.touch [a, b]).drawn (s.els w) (.shift w ((s.task.srcG b).f 4 0) (s.elems a w) [] 0) (.v (s.task.vMap d.reg.toNat)) d.s 2)

/-- VRNDS.NAR (R305). -/
def execVrndsNar (t : BitVec 2) (h : Bool) (d : Dst) (a b : Src) (s : State) : Out :=
  let w := tyWidth t
  .next (s.withV (d.reg.toNat :: Src.vName a) fun s =>
    let m := s.els (2 * w)
    (s.touch [a, b]).drawn m (.shift w ((s.task.srcG b).f 4 0) (s.elems a (2 * w)) (s.oldElems d w) (b2n h * m))
      (.v (s.task.vMap d.reg.toNat)) d.s 2)

/-! ### Exact integer routines (R306 to R310) -/

/-- The exponent and the Q14 mantissa of 2^(x / 2^f) (R308). -/
def exp2Parts (x : Int) (f : Nat) : Int × Nat :=
  let nn := floorShift x f
  let fr := (x - shl nn f).toNat
  let r := f - 6
  let i := if 6 ≤ f then fr / 2 ^ r else fr * 2 ^ (6 - f)
  let rem := if 6 ≤ f then fr - i * 2 ^ r else 0
  (nn, tabT.getD i 0 + (tabT.getD (i + 1) 0 - tabT.getD i 0) * rem / 2 ^ r)

/-- The packed form of VEXP2 (R308). -/
def exp2Packed (x : Int) (f : Nat) : Int :=
  let p := exp2Parts x f
  sext (wrap (sat p.1 16) 16 * 2 ^ 16 + p.2 % 2 ^ 16) 32

/-- The .Q form of VEXP2 (R308): beyond 40 places a left shift saturates in any case. -/
def exp2Q (x : Int) (f : Nat) : Int :=
  let p := exp2Parts x f
  if 0 ≤ p.1 then sat (shl p.2 (Nat.min p.1.toNat 40)) 32 else rneShift p.2 (Nat.min (-p.1).toNat 40)

/-- VLOG2 of one lane (R309); f is already at most 16. -/
def log2Lane (x : Int) (f : Nat) : Int :=
  if x ≤ 0 then -(2 ^ 31 : Nat)
  else
    let p := 30 - rsb x 32
    let u := if 15 ≤ p then x.toNat / 2 ^ (p - 15) else x.toNat * 2 ^ (15 - p)
    let i := (u - 2 ^ 15) / 512
    let rem := (u - 2 ^ 15) - i * 512
    let fr := tabL.getD i 0 + (tabL.getD (i + 1) 0 - tabL.getD i 0) * rem / 512
    rneShift ((p * 2 ^ 16 + fr : Nat) : Int) (16 - f)

/-- VRCP of one lane (R310). -/
def rcpLane (x : Int) : Int :=
  if x ≤ 0 then 0 else Nat.min (2 ^ 61 / (x.toNat * 2 ^ rsb x 32)) (2 ^ 31 - 1)

/-- VRSQ of one lane (R310). -/
def rsqLane (x : Int) : Int :=
  if x ≤ 0 then 0
  else
    let k := rsb x 32 / 2 * 2
    invRoot (x.toNat * 2 ^ k)

/-- VDIVQ of one lane (R310). -/
def divqLane (a b : Int) : Int :=
  if b = 0 then (if 0 ≤ a then 2 ^ 31 - 1 else -(2 ^ 31 : Nat)) else sat (Int.fdiv (shl a 15) b) 32

/-- A routine of one vector and a scalar (R307). -/
def State.vRoutine (s : State) (d : Dst) (a b : Src) (lam : Nat) (f : Int → Nat → Int) : State :=
  s.withV (d.reg.toNat :: Src.vName a) fun s =>
    (s.touch [a, b]).retEls d lam 32 ((s.elems a 32).map fun x => f x ((s.task.srcG b).f 4 0))

/-- VEXP2 (R308). -/
def execVexp2 (d : Dst) (a b : Src) (s : State) : Out := .next (s.vRoutine d a b 4 exp2Packed)
/-- VEXP2.Q (R308). -/
def execVexp2Q (d : Dst) (a b : Src) (s : State) : Out := .next (s.vRoutine d a b 4 exp2Q)
/-- VLOG2 (R309). -/
def execVlog2 (d : Dst) (a b : Src) (s : State) : Out :=
  .next (s.vRoutine d a b 4 fun x f => log2Lane x (Nat.min f 16))
/-- VRCP (R310). -/
def execVrcp (d : Dst) (a : Src) (s : State) : Out := .next (s.vMap1 3 d a 6 fun _ x => rcpLane x)
/-- VRSQ (R310). -/
def execVrsq (d : Dst) (a : Src) (s : State) : Out := .next (s.vMap1 3 d a 6 fun _ x => rsqLane x)
/-- VDIVQ (R310). -/
def execVdivq (d : Dst) (a b : Src) (s : State) : Out := .next (s.vMap2 3 d a b 8 fun _ x y => divqLane x y)

end Sys2Proof.Machine
end

