-- ==== Sys2Proof/Machine/Tile.lean ====
section
/-! DEFINITION. Tile descriptors, the tile, mask and accumulator stores, the census, the dependency table, and the
posting of tile tasks (R18 to R30, R180 to R184, R316 to R326, R349, R350). -/

namespace Sys2Proof.Machine

/-! ### Descriptors (R316 to R320) -/

/-- A tile descriptor (R318). -/
structure TDesc where
  valid : Bool
  rows : Nat
  cols : Nat
  ty : Nat
  algd : Nat
  layout : Bool
  pitch : Nat
  base : Nat
  omask : Nat
  oen : Bool
  men : Bool
  mptr : Nat
  side : Nat
  rsv : Bool
deriving DecidableEq, Repr

/-- Reads words 0 and 1 of a descriptor; rows and cols already count from 1. -/
def tdesc (w0 w1 : Word) : TDesc where
  valid := w0.b 63
  rows := w0.f 62 51 + 1
  cols := w0.f 50 39 + 1
  ty := w0.f 38 37
  algd := w0.f 36 35
  layout := w0.b 34
  pitch := w0.f 33 20
  base := w0.f 18 0
  omask := w1.f 63 32
  oen := w1.b 31
  men := w1.b 30
  mptr := w1.f 29 20
  side := w1.f 5 0
  rsv := w0.b 19 || w1.f 19 6 != 0

/-- The algebra dimension d. -/
def TDesc.d (t : TDesc) : Nat := 2 ^ t.algd
/-- The element width. -/
def TDesc.w (t : TDesc) : Nat := 4 * 2 ^ t.ty
/-- Stored columns, c * d (R18). -/
def TDesc.sc (t : TDesc) : Nat := t.cols * t.d
/-- Stored elements. -/
def TDesc.n (t : TDesc) : Nat := t.rows * t.sc
/-- Stored rows (R319). -/
def TDesc.srows (t : TDesc) : Nat := if t.layout then t.sc else t.rows
/-- The elements of a stored row. -/
def TDesc.slen (t : TDesc) : Nat := if t.layout then t.rows else t.sc
/-- The row length rb in bytes (R319). -/
def TDesc.rb (t : TDesc) : Nat := t.slen * t.w / 8
/-- The address of stored row n (R319). -/
def TDesc.rowAddr (t : TDesc) (n : Nat) : Nat := t.base + 32 * t.pitch * n
/-- The byte ranges the tile covers: start and length of each stored row. -/
def TDesc.ranges (t : TDesc) : List (Nat × Nat) := (upFrom 0 t.srows).map fun n => (t.rowAddr n, t.rb)
/-- The bank groups of the tile (R320). -/
def TDesc.banks (t : TDesc) : List Nat :=
  (t.ranges.flatMap fun r => upFrom (bankOf r.1) (bankOf (r.1 + r.2 - 1) + 1 - bankOf r.1)).eraseDups
/-- The bitmap's bytes in the mask store: start and length (R320). -/
def TDesc.bitmap (t : TDesc) : Nat × Nat := (t.mptr * 32, (t.n + 7) / 8)

/-- The descriptor of Tn. -/
def Task.tdesc (t : Task) (n : Nat) : TDesc := Machine.tdesc (t.tile.t0.get 0 n) (t.tile.t1.get 0 n)

/-- Whether mask-store bytes lie in the task's part (R316). -/
def Task.ownsMask (t : Task) (a n : Nat) : Bool :=
  a + n ≤ 0x8000 && (upFrom (a / 0x1000) ((a + n - 1) / 0x1000 + 1 - a / 0x1000)).all fun g => bit t.place.groups g

/-- Whether Zn exists: n < 4 * TILE (R316). -/
def Task.zOk (t : Task) (n : Nat) : Bool := n < 4 * popcount 8 t.place.groups

/-- TRAPVAL of the tile causes (R219). -/
def tileTval (z : Bool) (n : Nat) : Word := BitVec.ofNat 64 (n + 64 * b2n z)

/-! ### Scale and census registers (R19 to R24) -/

/-- EXP of a scale register. -/
def expOf (w : Word) : Int := sext (w.f 7 0) 8
/-- ROWV. -/
def rowv (w : Word) : Bool := w.b 62
/-- COLV. -/
def colv (w : Word) : Bool := w.b 63
/-- AUTO of En, EMPTY of ZEn. -/
def autoBit (w : Word) : Bool := w.b 61

/-- The bits of a scale register that name its row offsets, ROWV and ROWPTR. -/
def rowMask : Nat := maskF 62 62 + maskF 39 24
/-- The bits that name its column offsets, COLV and COLPTR. -/
def colMask : Nat := maskF 63 63 + maskF 55 40
/-- EMPTY alone, as TZERO leaves ZEn (R333). -/
def zeEmpty : Word := BitVec.ofNat 64 (2 ^ 61)

/-- A scale register with EXP set. -/
def withExp (w : Word) (e : Int) : Word := w.setF 7 0 (wrap e 8)

/-- Whether an exponent fits its field (R23). -/
def expFits (e : Int) : Bool := -128 ≤ e && e ≤ 127

/-- Whether two scale registers agree in the bits of a mask. -/
def sameBits (a b : Word) (mask : Nat) : Bool := a &&& BitVec.ofNat 64 mask == b &&& BitVec.ofNat 64 mask

/-- The bytes of an offset vector's end beyond the tile store (R21): the pointer's address and n entries. -/
def offsetBeyond (ptr n : Nat) : Bool := 0x80000 < ptr * 8 + (n + 1) / 2

/-- Whether an operand's present offset vectors reach beyond the tile store (R21). -/
def TDesc.offBad (t : TDesc) (e : Word) : Bool :=
  (rowv e && offsetBeyond (e.f 39 24) t.rows) || (colv e && offsetBeyond (e.f 55 40) t.cols)

/-- The shift of a shifted write through Tn (R27). -/
def shiftOf (e c : Word) : Nat :=
  if autoBit e && c.b 63 then
    (max 0 (min 31 ((e.f 20 16 : Int) + 1 + c.f 57 53 - c.f 62 58))).toNat
  else e.f 20 16

/-- The scale trap of a write of n elements (R28). -/
def satTrap (satlim census : Word) (n : Nat) (tval : Word) : List Report :=
  if satlim.b 15 && decide (satlim.f 9 0 * n < census.f 47 24 * 1024) then [⟨0x0C1, tval⟩] else []

/-! ### The stores of a core (R17, R316) -/

/-- Columns of a list of rows, n of them. -/
def transposeN (n : Nat) (rows : List (List Int)) : List (List Int) :=
  (upFrom 0 n).map fun i => rows.map fun r => r.getD i 0

/-- The tile's rows of stored columns, read from the tile store (R319). -/
def CoreSt.tileRows (c : CoreSt) (t : TDesc) : List (List Int) :=
  let st := t.ranges.map fun r => unpackS t.w t.slen (ofBytes (c.tileMem.getMany 0 r.1 r.2))
  if t.layout then transposeN t.rows st else st

/-- Writes bytes of the tile store in ranges; a 64-byte line they cover whole is no longer poisoned (R452). -/
def CoreSt.putTile (c : CoreSt) (rs : List (Nat × List Byte)) : CoreSt :=
  { c with
    tileMem := rs.foldl (fun m r => m.setMany 0 r.1 r.2) c.tileMem
    poisonTile := c.poisonTile.filter fun l =>
      !((upFrom l 64).all fun a => rs.any fun r => r.1 ≤ a && a < r.1 + r.2.length) }

/-- Writes a tile's rows of stored columns (R319). -/
def CoreSt.setTileRows (c : CoreSt) (t : TDesc) (rows : List (List Int)) : CoreSt :=
  let st := if t.layout then transposeN t.sc rows else rows
  c.putTile ((t.ranges.zip st).map fun rx => (rx.1.1, toBytes t.rb (pack t.w rx.2)))

/-- The first poisoned byte of a tile's ranges: the start of its poisoned line (R452). -/
def CoreSt.tilePoison (c : CoreSt) (t : TDesc) : Option Nat :=
  c.poisonTile.find? fun l => t.ranges.any fun r => r.1 < l + 64 && l < r.1 + r.2

/-- The bits of a bitmap, row by row (R320). -/
def CoreSt.maskBits (c : CoreSt) (t : TDesc) : List (List Bool) :=
  let bs := c.maskMem.getMany 0 t.bitmap.1 t.bitmap.2
  (upFrom 0 t.rows).map fun i => (upFrom 0 t.sc).map fun q =>
    let k := i * t.sc + q
    (bs.getD (k / 8) 0).getLsbD (k % 8)

/-- The rows of accumulator Zn (R18). -/
def Task.zRows (t : Task) (n : Nat) : List (List Int) :=
  (upFrom 0 32).map fun i => (t.tile.z.getMany 0 (1024 * n + 32 * i) 32).map fun x => x.toInt

/-- Sets accumulator Zn with its exponent and census registers. -/
def Task.setZ (t : Task) (n : Nat) (rows : List (List Int)) (ze zc : Word) : Task :=
  { t with tile := { t.tile with
      z := t.tile.z.setMany 0 (1024 * n) (rows.flatMap fun r => r.map fun x => BitVec.ofInt 32 x)
      ze := t.tile.ze.set 0 n ze
      zc := t.tile.zc.set 0 n zc } }

/-- Sets the scale and census registers of Tn. -/
def Task.setEC (t : Task) (n : Nat) (e c : Word) : Task :=
  { t with tile := { t.tile with e := t.tile.e.set 0 n e, c := t.tile.c.set 0 n c } }

/-- Clears an accumulator to EMPTY (R333). -/
def Task.zeroZ (t : Task) (n : Nat) : Task := t.setZ n (List.replicate 32 (List.replicate 32 0)) zeEmpty 0

/-- The census of a write given as rows: before the shift, after it, and as stored. -/
def censusRows (x v y : List (List Int)) (w : Nat) : Word := censusOf x.flatten v.flatten y.flatten w

/-! ### Tracked resources (R180, R181) -/

/-- A tile register, an accumulator, an algebra slot, the mask store and a copy descriptor as resource numbers. -/
abbrev resZ (n : Nat) : Nat := 64 + n
abbrev resA (n : Nat) : Nat := 96 + n
abbrev resMask : Nat := 100
abbrev resD (n : Nat) : Nat := 128 + n

/-- The resources of an optimiser task: a suppressed destination is read only (R55). -/
def optRes (sup : Bool) (d : Nat) (as : List Nat) : List Nat × List Nat := if sup then (d :: as, []) else (as, [d])

/-- The resources a posted instruction reads, and those it writes. -/
def tileRes (t : Task) : Instr → List Nat × List Nat
  | .tmma x y z => ([y.toNat, z.toNat], [resZ x.toNat])
  | .tmmas x y z => ([y.toNat, z.toNat, resMask], [resZ x.toNat])
  | .tmmao x y z => ([y.toNat, z.toNat, (t.tdesc z.toNat).side], [resZ x.toNat])
  | .algld x y => ([y.toNat], [resA x.toNat])
  | .tmmaa x y z n => ([y.toNat, z.toNat, resA n.toNat], [resZ x.toNat])
  | .tmmaaSw x y z n => ([y.toNat, z.toNat, resA n.toNat], [resZ x.toNat])
  | .tconj x y n => ([y.toNat, resA n.toNat], [x.toNat])
  | .tnorm x y n => ([y.toNat, resA n.toNat], [resZ x.toNat])
  | .tacc x y => ([y.toNat], [resZ x.toNat])
  | .taccZ x y => ([resZ y.toNat], [resZ x.toNat])
  | .tzero x => ([], [resZ x.toNat])
  | .tdrain x y => ([resZ y.toNat], [x.toNat])
  | .tdrainZ x y => ([], [x.toNat, resZ y.toNat])
  | .tresc x y _ => ([y.toNat], [x.toNat])
  | .trescZ x y _ => ([resZ y.toNat], [x.toNat])
  | .txps x y _ => ([y.toNat], [x.toNat])
  | .tld x _ _ => ([], [x.toNat])
  | .tst x _ _ => ([x.toNat], [])
  | .tstx x _ _ => ([x.toNat], [])
  | .tcpyMm x _ _ => ([resD x.toNat], [])
  | .tcpyTm x _ _ => ([resD x.toNat], [])
  | .tcpyMt x _ _ => ([resD x.toNat], [])
  | .tcpyTt x _ _ => ([resD x.toNat], [])
  | .tcpyd x _ _ => ([], [x.toNat])
  | .tmskld _ _ _ => ([], [resMask])
  | .voptm sup d a _ => optRes sup d.toNat [a.toNat]
  | .voptv sup d a _ => optRes sup d.toNat [a.toNat]
  | .vopts sup d a _ => optRes sup d.toNat [a.toNat, a.toNat + 1]
  | _ => ([], [])

/-- Whether two accesses to tracked resources depend on each other: the older first (R181). -/
def resConflict (old new : List Nat × List Nat) : Bool :=
  new.1.any (fun r => old.2.contains r) || new.2.any (fun r => old.1.contains r || old.2.contains r)

/-- Whether an entry has failed; a failed copy counts no more under R181 (R343). -/
def Dep.isFailed (d : Dep) : Bool := match d.stat with | .failed _ _ => true | _ => false

/-- Whether a resource access of a task conflicts with one of its entries older than seq. -/
def CoreSt.blocked (c : CoreSt) (t : Task) (slot seq : Nat) (rw : List Nat × List Nat) : Bool :=
  c.deps.any fun ed => ed.2.of slot t.place.kernel && decide (ed.2.seq < seq) && !ed.2.isFailed && resConflict (tileRes t ed.2.ins) rw

/-- Holds a non-task instruction at issue while an entry of its task posted before its bundle conflicts with it (R181). -/
def State.whenFree (s : State) (rw : List Nat × List Nat) (k : State → State) : State :=
  let c := s.coreAt s.iss.core
  if c.blocked s.task s.iss.slot s.iss.seq0 rw then { s with iss := { s.iss with stall := true } } else k s

/-! ### Posting (R180, R259, R325) -/

/-- The first failing check of a posting, with its cause and TRAPVAL (R325). -/
def firstFail (checks : List (Bool × Nat × Word)) : Option (Nat × Word) :=
  (checks.find? fun c => c.1).map fun c => c.2

/-- The post counter after a post: modulo 2^16, skipping 0 (R259). -/
def nextPost (n : Nat) : Nat := if n + 1 = 2 ^ 16 then 1 else n + 1

/-- The lowest free entry of a dependency table (R180). -/
def freeEntry (ds : Tab Dep) : Option Nat := (upFrom 0 64).find? fun e => (ds.get? e).isNone

/-- Posts a tile task that passed its checks, reserving `words` noise words (R33, R180): where the table is full the bundle
waits. Words of a replay log that are late freeze the core as a load of λ 1 does, and the task starts with them (log 61). k goes on
with the entry and the tag. -/
def State.post (s : State) (ins : Instr) (ops desc : List Word) (words total : Nat) (promise : Word)
    (k : State → Nat → Nat → State) : State :=
  let c := s.coreAt s.iss.core
  match freeEntry c.deps with
  | none => { s with iss := { s.iss with stall := true } }
  | some e =>
    let go (s : State) (ws : List (BitVec 16)) (hold : Option Nat) : State :=
      let t := s.task
      let posts := nextPost t.posts
      let tag := posts * 2 ^ 16 + e
      let d : Dep := ⟨s.iss.slot, t.place.ctx, t.place.kernel, c.depSeq, s.nextId, ins, ops, desc, ws, promise, tag, .waiting, 0, 0,
        total, [], [], hold⟩
      let s := (s.setTask { t with posts := posts }).setCoreAt s.iss.core
        { (s.coreAt s.iss.core) with deps := c.deps.put e d, depSeq := c.depSeq + 1 }
      k s e tag
    match if words = 0 then (s, Drawn.words []) else s.draw words (.post c.depSeq) with
    | (s, .stop) => s
    | (s, .late cz tv) => s.issueTo .none 1 (.late cz tv)
    | (s, .words ws) => go s ws none
    | (s, .wait h) => go ((s.issueTo .none 1 (.await h.id)).hold h) [] (some h.id)

/-- Posts an instruction of the matrix or vector long-operation engine after its checks. -/
def State.postTile (s : State) (checks : List (Bool × Nat × Word)) (ins : Instr) (ops : List Word) (words : Nat) : State :=
  match firstFail checks with
  | some (c, tv) => s.raise c tv
  | none => s.post ins ops [] words 0 0 fun s _ _ => s

/-- The check that a tile operand has a descriptor (R325). -/
def Task.noDesc (t : Task) (n : Nat) : Bool × Nat × Word := (!(t.tdesc n).valid, 0x044, tileTval false n)

/-- The check that an accumulator operand exists (R316, R325). -/
def Task.noZ (t : Task) (n : Nat) : Bool × Nat × Word := (!t.zOk n, 0x045, tileTval true n)

/-- The check that an operand's offset vectors lie in the tile store (R21). -/
def Task.offBad (t : Task) (n : Nat) : Bool × Nat × Word := ((t.tdesc n).offBad (t.tile.e.get 0 n), 0x04C, tileTval false n)

/-- Whether the offset vectors of an accumulator that is read as a tile of 32 rows and some algebra columns reach beyond the tile
store (R21); without a tile to name its dimension it counts 32 columns (log 39). -/
def Task.offBadZ (t : Task) (n cols : Nat) : Bool :=
  let e := t.tile.ze.get 0 n
  (rowv e && offsetBeyond (e.f 39 24) 32) || (colv e && offsetBeyond (e.f 55 40) cols)

/-- The check of an accumulator's offset vectors (R21, R325). -/
def Task.zOff (t : Task) (n cols : Nat) : Bool × Nat × Word := (t.offBadZ n cols, 0x04C, tileTval true n)

/-- A failing check of Tn under a cause. -/
def tFail (bad : Bool) (cause n : Nat) : Bool × Nat × Word := (bad, cause, tileTval false n)

/-- Whether two tiles share a bank group (R325). -/
def sharesBank (a b : TDesc) : Bool := a.banks.any b.banks.contains

/-- The slice depth S of a type (R326). -/
def sliceDepth (ty : Nat) : Nat := 256 / (match ty with | 0 => 1 | 1 => 2 | _ => 8)

/-- The checks of a dense or sparse product (R327, R328). -/
def Task.mmaChecks (t : Task) (x y z : Nat) (sparse : Bool) : List (Bool × Nat × Word) :=
  let a := t.tdesc y
  let b := t.tdesc z
  let ea := t.tile.e.get 0 y
  let eb := t.tile.e.get 0 z
  [t.noDesc y, t.noDesc z, t.noZ x,
   tFail (a.d != 1) 0x046 y, tFail (b.d != 1) 0x046 z,
   tFail (a.rows != 32 || a.cols % sliceDepth a.ty != 0 || decide (4096 < a.cols)) 0x042 y,
   tFail (b.rows != a.cols || b.cols != 32) 0x042 z,
   tFail (decide (2 < a.ty)) 0x043 y, tFail (b.ty != a.ty) 0x043 z,
   tFail (sharesBank a b) 0x041 y,
   tFail a.oen 0x047 y,
   t.offBad y, t.offBad z,
   tFail (colv ea) 0x04D y, tFail (rowv eb) 0x04D z]
  ++ (if sparse then [tFail (a.men && !t.ownsMask a.bitmap.1 a.bitmap.2) 0x198 y,
        tFail (b.men && !t.ownsMask b.bitmap.1 b.bitmap.2) 0x198 z] else [])

/-- TMMA (R327). -/
def execTmma (x : BitVec 5) (y z : BitVec 6) (s : State) : Out :=
  .next (s.postTile (s.task.mmaChecks x.toNat y.toNat z.toNat false) (.tmma x y z) [] 0)

/-- TMMAS (R328). -/
def execTmmas (x : BitVec 5) (y z : BitVec 6) (s : State) : Out :=
  .next (s.postTile (s.task.mmaChecks x.toNat y.toNat z.toNat true) (.tmmas x y z) [] 0)

/-- The outlier columns of a mask, ascending (R38). -/
def maskCols (m : Nat) : List Nat := (upFrom 0 32).filter (bit m)

/-- TMMAO (R330). -/
def execTmmao (x : BitVec 5) (y z : BitVec 6) (s : State) : Out :=
  let t := s.task
  let a := t.tdesc y.toNat
  let o := t.tdesc z.toNat
  let sd := t.tdesc o.side
  let cols := (maskCols o.omask).length
  let es := t.tile.e.get 0 o.side
  .next (s.postTile
    [t.noDesc y.toNat, t.noDesc z.toNat, (o.oen && !sd.valid, 0x044, tileTval false o.side), t.noZ x.toNat,
     tFail (a.d != 1) 0x046 y.toNat, tFail (o.oen && sd.d != 1) 0x046 o.side,
     tFail (a.rows != 32) 0x042 y.toNat, tFail (o.oen && (sd.rows != a.cols || sd.cols != cols)) 0x042 o.side,
     tFail (decide (2 < a.ty)) 0x043 y.toNat, tFail (o.oen && sd.ty != 2) 0x043 o.side,
     tFail (o.oen && sharesBank a sd) 0x041 y.toNat,
     tFail (!o.oen) 0x047 z.toNat,
     t.offBad y.toNat, t.offBad o.side,
     tFail (colv (t.tile.e.get 0 y.toNat)) 0x04D y.toNat, tFail (rowv es || colv es) 0x04D o.side]
    (.tmmao x y z) [] (1024 + 32 * cols))

/-- The dimension of an algebra slot's table; a slot whose latest ALGLD has not completed passes (R325). -/
inductive SlotDim where
  | empty
  | pending
  | dim (d : Nat)
deriving DecidableEq, Repr

/-- The state of an algebra slot for a task's posting (R325). -/
def State.slotDim (s : State) (n : Nat) : SlotDim :=
  if (s.coreAt s.iss.core).deps.any fun ed => ed.2.of s.iss.slot s.task.place.kernel && match ed.2.ins with
      | .algld x _ => x.toNat == n
      | _ => false then .pending
  else match s.task.tile.a.get? n with
    | some a => .dim (a.bytes.getD 0 0).toNat
    | none => .empty

/-- Whether a slot's dimension disagrees with d. -/
def SlotDim.differs (x : SlotDim) (d : Nat) : Bool := match x with | .dim e => e != d | _ => false

/-- ALGLD (R337): its 128 bytes at the tile's base lie in the allocation. -/
def execAlgld (x : BitVec 2) (y : BitVec 6) (s : State) : Out :=
  let t := s.task
  .next (s.postTile [t.noDesc y.toNat, tFail (!t.ownsTile (t.tdesc y.toNat).base 128) 0x045 y.toNat] (.algld x y) [] 0)

/-- The checks of an algebra product (R338). -/
def State.mmaaChecks (s : State) (x y z n : Nat) : List (Bool × Nat × Word) :=
  let t := s.task
  let a := t.tdesc y
  let b := t.tdesc z
  let sl := s.slotDim n
  [t.noDesc y, t.noDesc z, t.noZ x,
   tFail (decide (a.d < 2) || sl.differs a.d) 0x046 y, tFail (b.d != a.d) 0x046 z,
   tFail (a.rows != 32 || decide (4096 < a.cols * a.d)) 0x042 y, tFail (b.rows != a.cols || b.sc != 32) 0x042 z,
   tFail (decide (2 < a.ty)) 0x043 y, tFail (b.ty != a.ty) 0x043 z,
   tFail (sharesBank a b) 0x041 y,
   tFail a.oen 0x047 y, tFail b.oen 0x047 z,
   (sl == .empty, 0x048, tileTval true x),
   t.offBad y, t.offBad z,
   tFail (colv (t.tile.e.get 0 y)) 0x04D y, tFail (rowv (t.tile.e.get 0 z)) 0x04D z]

/-- TMMAA (R338). -/
def execTmmaa (x : BitVec 5) (y z : BitVec 6) (n : BitVec 2) (s : State) : Out :=
  .next (s.postTile (s.mmaaChecks x.toNat y.toNat z.toNat n.toNat) (.tmmaa x y z n) [] 0)

/-- TMMAA.SW (R338). -/
def execTmmaaSw (x : BitVec 5) (y z : BitVec 6) (n : BitVec 2) (s : State) : Out :=
  .next (s.postTile (s.mmaaChecks x.toNat y.toNat z.toNat n.toNat) (.tmmaaSw x y z n) [] 0)

/-- TCONJ (R339). -/
def execTconj (x y : BitVec 6) (n : BitVec 2) (s : State) : Out :=
  let t := s.task
  let a := t.tdesc x.toNat
  let b := t.tdesc y.toNat
  let sl := s.slotDim n.toNat
  .next (s.postTile
    [t.noDesc x.toNat, t.noDesc y.toNat,
     tFail (a.d != b.d || sl.differs a.d) 0x046 x.toNat,
     tFail (a.rows != b.rows || a.cols != b.cols) 0x042 x.toNat,
     tFail (a.ty != b.ty) 0x043 x.toNat, tFail (sl == .empty) 0x048 x.toNat, t.offBad y.toNat]
    (.tconj x y n) [] 0)

/-- TNORM (R340). -/
def execTnorm (x : BitVec 5) (y : BitVec 6) (n : BitVec 2) (s : State) : Out :=
  let t := s.task
  let a := t.tdesc y.toNat
  let e := t.tile.e.get 0 y.toNat
  let sl := s.slotDim n.toNat
  .next (s.postTile
    [t.noDesc y.toNat, t.noZ x.toNat, tFail (sl.differs a.d) 0x046 y.toNat,
     tFail (a.rows != 32 || a.sc != 32) 0x042 y.toNat, tFail (decide (2 < a.ty)) 0x043 y.toNat,
     (sl == .empty, 0x048, tileTval true x.toNat), t.offBad y.toNat, tFail (rowv e || colv e) 0x04D y.toNat]
    (.tnorm x y n) [] 0)

/-- TACC (R332). -/
def execTacc (x : BitVec 5) (y : BitVec 6) (s : State) : Out :=
  let t := s.task
  let a := t.tdesc y.toNat
  .next (s.postTile [t.noDesc y.toNat, t.noZ x.toNat, tFail (a.rows != 32 || a.sc != 32) 0x042 y.toNat, t.offBad y.toNat]
    (.tacc x y) [] 2048)

/-- TACC.Z (R332). -/
def execTaccZ (x y : BitVec 5) (s : State) : Out :=
  let t := s.task
  .next (s.postTile [t.noZ x.toNat, t.noZ y.toNat, t.zOff y.toNat 32] (.taccZ x y) [] 2048)

/-- TZERO (R333). -/
def execTzero (x : BitVec 5) (s : State) : Out := .next (s.postTile [s.task.noZ x.toNat] (.tzero x) [] 0)

/-- The checks of a drain or rescale from an accumulator (R334, R335). -/
def Task.drainChecks (t : Task) (x y : Nat) : List (Bool × Nat × Word) :=
  let a := t.tdesc x
  [t.noDesc x, t.noZ y, tFail (a.rows != 32 || a.sc != 32) 0x042 x, t.zOff y a.cols]

/-- TDRAIN (R334). -/
def execTdrain (x : BitVec 6) (y : BitVec 5) (s : State) : Out :=
  .next (s.postTile (s.task.drainChecks x.toNat y.toNat) (.tdrain x y) [] 0)

/-- TDRAIN.Z (R334). -/
def execTdrainZ (x : BitVec 6) (y : BitVec 5) (s : State) : Out :=
  .next (s.postTile (s.task.drainChecks x.toNat y.toNat) (.tdrainZ x y) [] 0)

/-- TRESC (R335). -/
def execTresc (x y adj : BitVec 6) (s : State) : Out :=
  let t := s.task
  let a := t.tdesc x.toNat
  let b := t.tdesc y.toNat
  .next (s.postTile [t.noDesc x.toNat, t.noDesc y.toNat, tFail (a.rows != b.rows || a.sc != b.sc) 0x042 x.toNat,
    t.offBad y.toNat] (.tresc x y adj) [] 0)

/-- TRESC.Z (R335). -/
def execTrescZ (x : BitVec 6) (y : BitVec 5) (adj : BitVec 6) (s : State) : Out :=
  .next (s.postTile (s.task.drainChecks x.toNat y.toNat) (.trescZ x y adj) [] 0)

/-! ### Instructions that post nothing (R321 to R323, R349, R350) -/

/-- The first failing check of TDSET's image (R321). -/
def Task.tdsetFail (t : Task) (x : Nat) (w0 w1 : Word) : Option Nat :=
  let a := Machine.tdesc w0 w1
  let tall := decide (1 < a.srows) && decide (32 * a.pitch < a.rb)
  if a.rsv || (a.ty == 3 && a.algd != 0) || a.base % 32 != 0 || a.sc * a.w % 8 != 0 || a.rows * a.w % 8 != 0 || tall then
    some 0x040
  else if !t.ownsTile a.base (32 * a.pitch * (a.srows - 1) + a.rb) then some 0x045
  else if a.oen && (a.algd != 0 || a.side == x || a.omask == 0) then some 0x047
  else if a.men && !t.ownsMask a.bitmap.1 a.bitmap.2 then some 0x198
  else none

/-- TDSET (R321): the census is cleared with the descriptor's write. It, TSCL and DSET leave zero in their slot's latch: they have
no result for it (R56, log 54). -/
def execTdset (x y : BitVec 6) (s : State) : Out :=
  let n := x.toNat
  .next (s.whenFree ([], [n]) fun s =>
    let t := s.task
    let w0 := t.gReg y.toNat
    if !w0.b 63 then s.issueTo (.t n) 1 (.ready 0)
    else if y.toNat % 2 = 1 then s.raise 0x054
    else
      let w1 := t.gReg (y.toNat + 1)
      match t.tdsetFail n w0 w1 with
        | some c => s.raise c (if c = 0x198 then 0 else tileTval false n)
        | none => s.issueTo (.t n) 1 (.ready (imgPair w0 w1)))

/-- The writable fields of En (R20). -/
def eMask : Nat := maskF 63 61 + maskF 55 24 + maskF 20 16 + maskF 7 0
/-- The fields of ZEn that TSCL.Z writes (R22, R322). -/
def zeMask : Nat := maskF 63 62 + maskF 55 24 + maskF 7 0

/-- TSCL (R322). -/
def execTscl (x y : BitVec 6) (s : State) : Out :=
  let n := x.toNat
  .next (s.whenFree ([], [n]) fun s =>
    let t := s.task
    s.issueTo (.e n) 1 (.ready (imgW (Word.merge (t.tile.e.get 0 n) (t.gReg y.toNat) eMask))))

/-- TSCL.Z (R322). -/
def execTsclZ (x : BitVec 5) (y : BitVec 6) (s : State) : Out :=
  let n := x.toNat
  .next (if !s.task.zOk n then s.raise 0x045 (tileTval true n)
    else s.whenFree ([], [resZ n]) fun s =>
      let t := s.task
      s.issueTo (.ze n) 1 (.ready (imgW (Word.merge (t.tile.ze.get 0 n) (t.gReg y.toNat) zeMask))))

/-- TCENS (R323). -/
def execTcens (c : BitVec 2) (x y : BitVec 6) (s : State) : Out :=
  let n := y.toNat
  let z := decide (2 ≤ c.toNat)
  .next (if z && !s.task.zOk n then s.raise 0x045 (tileTval true n)
    else s.whenFree ([if z then resZ n else n], []) fun s =>
      let t := s.task.tile
      let v := match c.toNat with
        | 0 => t.c.get 0 n
        | 1 => t.e.get 0 n
        | 2 => t.zc.get 0 n
        | _ => t.ze.get 0 n
      s.result (.g x.toNat) (x == 0) 1 (imgW v))

/-- DSET (R341). -/
def execDset (x y : BitVec 6) (k : BitVec 3) (s : State) : Out :=
  .next (s.whenFree ([], [resD x.toNat]) fun s =>
    s.issueTo (.d (8 * x.toNat + k.toNat)) 1 (.ready (imgW (s.task.gReg y.toNat))))

/-- NOISE (R350). -/
def execNoise (x : BitVec 6) (n : BitVec 2) (s : State) : Out := .next (s.drawn (n.toNat + 1) .reg (.g x.toNat) (x == 0) 2)

/-- Whether an entry is one a TWAIT names (R349). -/
def waitNames (t : Task) (zs all : Bool) (reg : Nat) (d : Dep) : Bool :=
  all || (tileRes t d.ins).2.contains (if zs then resZ reg else reg)

/-- The entries of a task posted before a posting number that a TWAIT waits for: W is fixed when it issues (R349). -/
def CoreSt.waitSet (c : CoreSt) (t : Task) (slot : Nat) (zs all : Bool) (reg before : Nat) : List (Nat × Dep) :=
  c.deps.filter fun ed => ed.2.of slot t.place.kernel && ed.2.seq < before && waitNames t zs all reg ed.2

/-- The failed copy among entries, if any: the oldest (R343). -/
def failedOf (ds : List (Nat × Dep)) : Option (Nat × Report) :=
  (ds.filterMap fun ed => match ed.2.stat with | .failed c tv => some (ed.1, ed.2.seq, (⟨c, tv⟩ : Report)) | _ => none).foldl
    (fun best x => match best with
      | some b => if x.2.1 < b.2.1 then some x else some b
      | none => some x) none |>.map fun x => (x.1, x.2.2)

/-- A TWAIT (R349): a failure held among the entries is delivered; it goes on where every entry has retired; a passed
deadline is an event; else the task sleeps. -/
def State.twait (s : State) (zs all : Bool) (reg : Nat) (y : BitVec 6) : State :=
  let t := s.task
  let p := t.gReg y.toNat
  let w := (s.coreAt s.iss.core).waitSet t s.iss.slot zs all reg s.iss.seq0
  match failedOf w with
  | some (e, r) => (s.retire s.iss.core e).eventHere r
  | none =>
    if w.isEmpty then s
    else if p ≠ 0 ∧ p.toNat ≤ s.cycle.toNat then
      let s' := s.eventHere ⟨0x127, p⟩
      if t.inTrap then s'.setAct (.sleep (.tiles zs all reg 0 s.iss.seq0)) else s'
    else s.setAct (.sleep (.tiles zs all reg p s.iss.seq0))

/-- TWAIT.ALL (R349). -/
def execTwaitAll (y : BitVec 6) (s : State) : Out := .next (s.twait false true 0 y)
/-- TWAIT (R349). -/
def execTwait (x y : BitVec 6) (s : State) : Out := .next (s.twait false false x.toNat y)
/-- TWAIT.Z (R316, R349). -/
def execTwaitZ (x : BitVec 5) (y : BitVec 6) (s : State) : Out :=
  .next (if s.task.zOk x.toNat then s.twait true false x.toNat y else s.raise 0x045 (tileTval true x.toNat))

end Sys2Proof.Machine
end

