-- ==== Sys2Proof/Machine/Engine.lean ====
section
/-! DEFINITION. What the matrix and the vector long-operation engine do with a tile task: its checks at start, its effect,
its completion (R22 to R28, R37, R181 to R183, R311 to R314, R325 to R340), the optimiser instructions and their lane
forms (R391). -/

namespace Sys2Proof.Machine

/-- What a tile task gives: the task and the core's stores after it, with the scale trap it raises; an event with nothing
written; or nothing at all, where its algebra slot's ALGLD failed (R325). -/
inductive TileRes where
  | ok (t : Task) (c : CoreSt) (trap : List Report)
  | event (r : Report)
  | nothing
deriving DecidableEq, Repr

/-! ### Products (R22, R327 to R330, R336 to R340) -/

/-- The scale register of an accumulator after a product of exponent ep with row fields from a and column fields from b,
or the cause that stops it (R22). A product into an accumulator that is not EMPTY whose exponent is out of range as well raises
0x04E, not 0x0C2 (log 41). -/
def productScale (ze a b : Word) (ep : Int) : Except Nat Word :=
  let fresh := withExp ((a &&& BitVec.ofNat 64 rowMask) ||| (b &&& BitVec.ofNat 64 colMask)) ep
  if autoBit ze then if expFits ep then .ok fresh else .error 0x0C2
  else if ep ≠ expOf ze ∨ sameBits ze a rowMask = false ∨ sameBits ze b colMask = false then .error 0x04E
  else .ok ze

/-- A dot product over lists. -/
def dot (xs ys : List Int) : Int := isum (List.zipWith (· * ·) xs ys)

/-- Writes sums into an accumulator, saturated once, with its census and its scale trap (R24, R28, R327). -/
def accWrite (t : Task) (c : CoreSt) (satlim : Word) (x : Nat) (v : List (List Int)) (ze : Word) : TileRes :=
  let y := v.map fun r => r.map fun e => sat e 32
  let zc := censusRows v v y 32
  .ok (t.setZ x y ze zc) c (satTrap satlim zc 1024 (tileTval true x))

/-- A matrix of elements with the elements of zero mask bits as zero (R328). -/
def maskRows (rows : List (List Int)) (ms : List (List Bool)) : List (List Int) :=
  List.zipWith (fun r m => List.zipWith (fun e b => if b then e else 0) r m) rows ms

/-- The first event a task meets when it starts: each check as a failing condition with its report. -/
def startFail (checks : List (Bool × Report)) : Option Report := (checks.find? fun c => c.1).map (·.2)

/-- The checks an operand Tn meets at start: its offset vectors in the tile store (R325), its lines not poisoned
(R452). -/
def operandChecks (t : Task) (c : CoreSt) (n : Nat) : List (Bool × Report) :=
  [((t.tdesc n).offBad (t.tile.e.get 0 n), ⟨0x04C, tileTval false n⟩),
   ((c.tilePoison (t.tdesc n)).isSome, ⟨0x150, BitVec.ofNat 64 ((c.tilePoison (t.tdesc n)).getD 0)⟩)]

/-- The check at start of a bitmap that is read: no line of the mask store poisoned (R451, log 70). -/
def maskChecks (t : Task) (c : CoreSt) (n : Nat) : List (Bool × Report) :=
  let b := (t.tdesc n).bitmap
  let l := if (t.tdesc n).men then c.poisonMask.find? fun l => b.1 < l + 64 && l < b.1 + b.2 else none
  [(l.isSome, ⟨0x150, BitVec.ofNat 64 (l.getD 0)⟩)]

/-- The check at start of an accumulator that is read as a tile (R21, R325). -/
def zStart (t : Task) (n cols : Nat) : List (Bool × Report) := [(t.offBadZ n cols, ⟨0x04C, tileTval true n⟩)]

/-- Goes on where no check of the start fails. -/
def ifStarts (checks : List (Bool × Report)) (k : TileRes) : TileRes :=
  match startFail checks with
  | some r => .event r
  | none => k

/-- TMMA and TMMAS (R327, R328). -/
def runMma (satlim : Word) (t : Task) (c : CoreSt) (x y z : Nat) (sparse : Bool) : TileRes :=
  let a := t.tdesc y
  let b := t.tdesc z
  let ea := t.tile.e.get 0 y
  let eb := t.tile.e.get 0 z
  ifStarts (operandChecks t c y ++ operandChecks t c z
      ++ (if sparse then maskChecks t c y ++ maskChecks t c z else [])
      ++ [(colv ea, ⟨0x04D, tileTval false y⟩), (rowv eb, ⟨0x04D, tileTval false z⟩)])
    (match productScale (t.tile.ze.get 0 x) ea eb (expOf ea + expOf eb) with
    | .error cz => .event ⟨cz, tileTval true x⟩
    | .ok ze =>
      let ra := c.tileRows a
      let rb := c.tileRows b
      let ra := if sparse && a.men then maskRows ra (c.maskBits a) else ra
      let rb := if sparse && b.men then maskRows rb (c.maskBits b) else rb
      let cb := transposeN 32 rb
      let prod := ra.map fun r => (cb.zip (upFrom 0 32)).map fun kj =>
        if b.oen && bit b.omask kj.2 then 0 else dot r kj.1
      accWrite t c satlim x (List.zipWith (List.zipWith (· + ·)) (t.zRows x) prod) ze)

/-- Joins noise words to the covered elements of a contribution, in order. -/
def withWords : List (Option Int) → List (BitVec 16) → List (Option (Int × Nat))
  | [], _ => []
  | none :: ps, ws => none :: withWords ps ws
  | some p :: ps, ws => some (p, (ws.headD 0).toNat) :: withWords ps ws.tail

/-- Aligned accumulation (R331): a contribution p of exponent ep into Zx; `take` is the scale register an EMPTY Zx takes
its offset fields from. -/
def accumAlign (satlim : Word) (t : Task) (c : CoreSt) (x : Nat) (p : List (List (Option Int))) (ep : Int) (take : Word)
    (ws : List (BitVec 16)) : TileRes :=
  let ze := t.tile.ze.get 0 x
  let zc := t.tile.zc.get 0 x
  let empty := autoBit ze
  let ez0 := if empty then ep else expOf ze
  let h : Nat := if !empty && zc.b 63 then zc.f 62 58 else 31
  let ez := max (ez0 + (2 - h : Nat)) ep
  if 127 < ez ∨ ez < -128 ∨ ep - ez < -127 then .event ⟨0x0C2, tileTval true x⟩
  else
    let z := t.zRows x
    let zs := List.zipWith (fun e (n : BitVec 16) => stoShift e (ez - ez0).toNat n.toNat) z.flatten (ws.take 1024)
    let ps := withWords p.flatten (ws.drop 1024)
    let v := List.zipWith (fun e (q : Option (Int × Nat)) => match q with
      | some (a, n) => e + stoShift a (ez - ep).toNat n
      | none => e) zs ps
    let x0 := List.zipWith (fun e (q : Option Int) => e + q.getD 0) z.flatten p.flatten
    let y := v.map fun e => sat e 32
    let zc' := censusOf x0 v y 32
    let base := if empty then (take &&& BitVec.ofNat 64 (rowMask + colMask)) else ze &&& ~~~zeEmpty
    let rows := (upFrom 0 32).map fun i => (y.drop (32 * i)).take 32
    .ok (t.setZ x rows (withExp base ez) zc') c (satTrap satlim zc' 1024 (tileTval true x))

/-- TMMAO (R330). -/
def runMmao (satlim : Word) (t : Task) (c : CoreSt) (x y z : Nat) (ws : List (BitVec 16)) : TileRes :=
  let a := t.tdesc y
  let o := t.tdesc z
  let sd := t.tdesc o.side
  let ea := t.tile.e.get 0 y
  let es := t.tile.e.get 0 o.side
  let ze := t.tile.ze.get 0 x
  ifStarts (operandChecks t c y ++ operandChecks t c o.side
      ++ [(colv ea, ⟨0x04D, tileTval false y⟩), (rowv es || colv es, ⟨0x04D, tileTval false o.side⟩),
          (!autoBit ze && (colv ze || !sameBits ze ea rowMask), ⟨0x04E, tileTval true x⟩)])
    (let cs := transposeN sd.cols (c.tileRows sd)
     let cols := (maskCols o.omask).zip cs
     let p := (c.tileRows a).map fun r => (upFrom 0 32).map fun j => (cols.find? fun jc => jc.1 == j).map fun jc => dot r jc.2
     accumAlign satlim t c x p (expOf ea + expOf es) (ea &&& BitVec.ofNat 64 rowMask) ws)

/-- TACC of a tile or an accumulator's rows (R332). -/
def runAcc (satlim : Word) (t : Task) (c : CoreSt) (x : Nat) (rows : List (List Int)) (e : Word) (ws : List (BitVec 16)) :
    TileRes :=
  let ze := t.tile.ze.get 0 x
  if !autoBit ze && !sameBits ze e (rowMask + colMask) then .event ⟨0x04E, tileTval true x⟩
  else accumAlign satlim t c x (rows.map fun r => r.map some) (expOf e) e ws

/-! ### Drain and rescale (R334, R335) -/

/-- A shifted write into Tx from rows of exponent and offsets in `e` by shift s (R334). `clear` names an accumulator left as
TZERO would. -/
def runShift (satlim : Word) (t : Task) (c : CoreSt) (x : Nat) (rows : List (List Int)) (e : Word) (s : Nat)
    (clear : Option Nat) : TileRes :=
  let a := t.tdesc x
  let ex := t.tile.e.get 0 x
  if !expFits (expOf e + s) then .event ⟨0x0C2, tileTval false x⟩
  else
    let v := rows.map fun r => r.map fun q => tzShift q s
    let y := v.map fun r => r.map fun q => sat q a.w
    let cx := censusRows rows v y a.w
    let ex' := withExp ((Word.merge ex e (rowMask + colMask)).setF 20 16 s) (expOf e + s)
    let t' := t.setEC x ex' cx
    let t' := match clear with | some z => t'.zeroZ z | none => t'
    .ok t' (c.setTileRows a y) (satTrap satlim cx a.n (tileTval false x))

/-- The adjusted shift of TRESC (R335). -/
def adjShift (s : Nat) (adj : BitVec 6) : Nat := (max 0 (min 31 ((s : Int) + sext adj.toNat 6))).toNat

/-! ### Algebra (R336 to R340) -/

/-- Whether a table image is malformed (R336). -/
def algBad (bs : List Byte) : Bool :=
  let g (i : Nat) : Nat := (bs.getD i 0).toNat
  let d := g 0
  let sign (i : Nat) := g i / 64
  !(d == 1 || d == 2 || d == 4 || d == 8)
    || ((upFrom 1 7).any fun i => g i != 0)
    || ((upFrom 0 64).any fun i =>
        let b := 8 + i
        let p := i / 8
        let q := i % 8
        if d ≤ p || d ≤ q then g b != 0
        else sign b == 2 || g b / 8 % 8 != 0 || d ≤ g b % 8 || (sign b == 0 && g b % 8 != 0))
    || ((upFrom 0 8).any fun k => if d ≤ k then g (72 + k) != 0 else !(g (72 + k) == 1 || g (72 + k) == 0xFF))
    || ((upFrom 0 8).any fun k => if d ≤ k then g (80 + k) != 0 else !(g (80 + k) == 1 || g (80 + k) == 0 || g (80 + k) == 0xFF))
    || ((upFrom 88 40).any fun i => g i != 0)

/-- A signed sign byte or field: 0x01 +1, 0xFF −1, else 0. -/
def signByte (b : Byte) : Int := if b = 1 then 1 else if b = 0xFF then -1 else 0

/-- The dimension of a table. -/
def algDim (bs : List Byte) : Nat := (bs.getD 0 0).toNat

/-- The sign and the index of entry (p, q). -/
def algEntry (bs : List Byte) (p q : Nat) : Int × Nat :=
  let b := (bs.getD (8 + 8 * p + q) 0).toNat
  (match b / 64 with | 1 => 1 | 3 => -1 | _ => 0, b % 8)

/-- The product of algebra elements under a table (R336). -/
def algMul (bs : List Byte) (x y : List Int) : List Int :=
  let d := algDim bs
  (upFrom 0 d).map fun k =>
    isum ((upFrom 0 d).flatMap fun p => (upFrom 0 d).map fun q =>
      let e := algEntry bs p q
      if e.1 ≠ 0 ∧ e.2 = k then e.1 * x.getD p 0 * y.getD q 0 else 0)

/-- The algebra elements of a row: its components d at a time. -/
def components (d n : Nat) (r : List Int) : List (List Int) := (upFrom 0 n).map fun j => (r.drop (d * j)).take d

/-- The table of a slot, where it is loaded. -/
def Task.algTable (t : Task) (n : Nat) : Option (List Byte) := (t.tile.a.get? n).map (·.bytes)

/-- TMMAA and TMMAA.SW (R338). -/
def runMmaa (satlim : Word) (t : Task) (c : CoreSt) (x y z n : Nat) (sw : Bool) : TileRes :=
  match t.algTable n with
  | none => .nothing
  | some bs =>
    let a := t.tdesc y
    let b := t.tdesc z
    let d := a.d
    let ea := t.tile.e.get 0 y
    let eb := t.tile.e.get 0 z
    ifStarts ([(algDim bs != d, ⟨0x046, tileTval false y⟩)] ++ operandChecks t c y ++ operandChecks t c z
        ++ [(colv ea, ⟨0x04D, tileTval false y⟩), (rowv eb, ⟨0x04D, tileTval false z⟩)])
      (match productScale (t.tile.ze.get 0 x) ea eb (expOf ea + expOf eb) with
      | .error cz => .event ⟨cz, tileTval true x⟩
      | .ok ze =>
        let ra := (c.tileRows a).map (components d a.cols)
        let rb := (c.tileRows b).map (components d b.cols)
        let prod := ra.map fun ar => (upFrom 0 b.cols).flatMap fun j =>
          (List.zipWith (fun ak (br : List (List Int)) =>
            let bk := br.getD j []
            if sw then algMul bs bk ak else algMul bs ak bk) ar rb).foldl (List.zipWith (· + ·)) (List.replicate d 0)
        accWrite t c satlim x (List.zipWith (List.zipWith (· + ·)) (t.zRows x) prod) ze)

/-- TCONJ (R339). -/
def runConj (satlim : Word) (t : Task) (c : CoreSt) (x y n : Nat) : TileRes :=
  match t.algTable n with
  | none => .nothing
  | some bs =>
    let a := t.tdesc x
    let b := t.tdesc y
    let ey := t.tile.e.get 0 y
    ifStarts ((algDim bs != b.d, ⟨0x046, tileTval false y⟩) :: operandChecks t c y)
      (let rows := c.tileRows b
       let v := rows.map fun r => (r.zip (upFrom 0 b.sc)).map fun eq => signByte (bs.getD (72 + eq.2 % b.d) 0) * eq.1
       let w := v.map fun r => r.map fun e => sat e a.w
       let cx := censusRows rows v w a.w
       .ok (t.setEC x (withExp (Word.merge (t.tile.e.get 0 x) ey (rowMask + colMask)) (expOf ey)) cx)
         (c.setTileRows a w) (satTrap satlim cx a.n (tileTval false x)))

/-- TNORM (R340). -/
def runNorm (satlim : Word) (t : Task) (c : CoreSt) (x y n : Nat) : TileRes :=
  match t.algTable n with
  | none => .nothing
  | some bs =>
    let a := t.tdesc y
    let d := a.d
    let e := t.tile.e.get 0 y
    let ep := 2 * expOf e
    ifStarts ([(algDim bs != d, ⟨0x046, tileTval false y⟩)] ++ operandChecks t c y
        ++ [(rowv e || colv e, ⟨0x04D, tileTval false y⟩), (!expFits ep, ⟨0x0C2, tileTval true x⟩)])
      (let v := (c.tileRows a).map fun r => (components d a.cols r).flatMap fun el =>
         isum ((el.zip (upFrom 0 d)).map fun yc => signByte (bs.getD (80 + yc.2) 0) * yc.1 * yc.1) :: List.replicate (d - 1) 0
       accWrite t c satlim x v (withExp 0 ep))

/-- ALGLD (R337): a malformed image empties the slot and is an event that names the entry. -/
def runAlgld (t : Task) (c : CoreSt) (e x y : Nat) : TileRes :=
  let bs := c.tileMem.getMany 0 (t.tdesc y).base 128
  let bad := c.poisonTile.find? fun l => l < (t.tdesc y).base + 128 && (t.tdesc y).base < l + 64
  match bad with
  | some l => .event ⟨0x150, BitVec.ofNat 64 l⟩
  | none =>
    if algBad bs then .ok { t with tile := { t.tile with a := t.tile.a.del x } } c [⟨0x190, BitVec.ofNat 64 e⟩]
    else .ok { t with tile := { t.tile with a := t.tile.a.put x ⟨bs⟩ } } c []

/-! ### The optimiser (R311 to R314, R391) -/

/-- The checks of an optimiser post (R312): the destination, the other operands, those that must be INT16. -/
def Task.optChecks (t : Task) (d : Nat) (ops wide : List Nat) (odd : Bool) : List (Bool × Nat × Word) :=
  let all := d :: ops
  let ds := t.tdesc d
  [(odd, 0x054, 0)] ++ all.map t.noDesc
    ++ all.map (fun n => tFail (!((t.tdesc n).ranges.all fun r => t.ownsTile r.1 r.2)) 0x045 n)
    ++ all.map (fun n => tFail ((t.tdesc n).d != 1) 0x046 n)
    ++ ops.map (fun n => tFail ((t.tdesc n).rows != ds.rows || (t.tdesc n).cols != ds.cols) 0x042 n)
    ++ all.map (fun n => tFail (if wide.contains n then (t.tdesc n).ty != 2
        else !((t.tdesc n).ty == 1 || (t.tdesc n).ty == 2)) 0x043 n)
    ++ all.map (fun n => tFail (rowv (t.tile.e.get 0 n) || colv (t.tile.e.get 0 n)) 0x04D n)

/-- VOPTM (R311 to R313). -/
def execVoptm (sup : Bool) (d a : BitVec 6) (b : Src) (s : State) : Out :=
  let t := s.task
  .next ((s.touch [b]).postTile (t.optChecks d.toNat [a.toNat] [d.toNat] false) (.voptm sup d a b) [t.srcG b]
    (2 * (t.tdesc d.toNat).n))

/-- VOPTV (R311 to R313). -/
def execVoptv (sup : Bool) (d a : BitVec 6) (b : Src) (s : State) : Out :=
  let t := s.task
  .next ((s.touch [b]).postTile (t.optChecks d.toNat [a.toNat] [d.toNat] false) (.voptv sup d a b) [t.srcG b]
    (2 * (t.tdesc d.toNat).n))

/-- VOPTS (R311 to R313). -/
def execVopts (sup : Bool) (d a : BitVec 6) (b : Src) (s : State) : Out :=
  let t := s.task
  let m := a.toNat
  .next ((s.touch [b]).postTile (t.optChecks d.toNat [m, m + 1] [m, m + 1] (m % 2 == 1)) (.vopts sup d a b) [t.srcG b]
    ((t.tdesc d.toNat).n))

/-- The effect of an optimiser task on its destination's elements (R313): new values before saturation in row-major
order. Its operands have no offset vectors (R312). A suppressed destination takes nothing (R55). -/
def runOpt (satlim : Word) (t : Task) (c : CoreSt) (sup : Bool) (d : Nat) (ops : List Nat) (vals : List Int) : TileRes :=
  let a := t.tdesc d
  ifStarts ((d :: ops).map (fun n => (rowv (t.tile.e.get 0 n) || colv (t.tile.e.get 0 n), ⟨0x04D, tileTval false n⟩))
      ++ (d :: ops).flatMap fun n => (operandChecks t c n).drop 1)
    (if sup then .ok t c [] else
     let y := vals.map fun v => sat v a.w
     let cx := censusOf vals vals y a.w
     let rows := (upFrom 0 a.rows).map fun i => (y.drop (a.sc * i)).take a.sc
     .ok (t.setEC d (t.tile.e.get 0 d) cx) (c.setTileRows a rows) (satTrap satlim cx a.n (tileTval false d)))

/-- The elements of Tn in row-major order. -/
def flatTile (t : Task) (c : CoreSt) (n : Nat) : List Int := (c.tileRows (t.tdesc n)).flatten

/-- The exponent of Tn. -/
def expT (t : Task) (n : Nat) : Int := expOf (t.tile.e.get 0 n)

/-- The G pair of a lane form: parameter word and exponents; a latch gives both its low words (R391). -/
def Task.optPair (t : Task) (b : Src) : Word × Word :=
  if b.l then ((t.latch.get (Src.latch b)).setWidth 64, ((t.latch.get (Src.latch b)) >>> 64).setWidth 64)
  else (t.gReg b.reg.toNat, t.gReg (b.reg.toNat + 1))

/-- The signed lanes of a register by number. -/
def State.lanesOf (s : State) (n : Nat) : List Int := unpackS 32 s.lanes (s.task.vPhys (s.task.vMap n)).toNat

/-- A lane form (R391): k words for each lane; a and v name its operands. -/
def State.laneOpt (s : State) (form : Nat) (a : Nat) (vs : List Nat) (d : Dst) (b : Src) (k : Nat) : State :=
  s.withV (d.reg.toNat :: a :: vs) fun s =>
    if !b.l && b.reg.toNat % 2 == 1 then s.raise 0x054
    else
      let pe := s.task.optPair b
      (s.touch [b]).drawn (k * s.lanes) (.opt form pe.1 pe.2 (s.oldElems d 32) (s.lanesOf a) (s.lanesOf (vs.headD a)))
        (.v (s.task.vMap d.reg.toNat)) d.s 8

/-- VOPTM.L (R391). -/
def execVoptmL (d : Dst) (a : BitVec 7) (b : Src) (s : State) : Out := .next (s.laneOpt 0 a.toNat [] d b 2)

/-- VOPTV.L (R391). -/
def execVoptvL (d : Dst) (a : BitVec 7) (b : Src) (s : State) : Out := .next (s.laneOpt 1 a.toNat [] d b 2)

/-- VOPTS.L (R391): the second moments stand in V(a + 1). -/
def execVoptsL (d : Dst) (a : BitVec 7) (b : Src) (s : State) : Out := .next (s.laneOpt 2 a.toNat [a.toNat + 1] d b 1)

/-! ### Running a tile task -/

/-- The shift a shifted write of an instruction uses if it starts now (R27, R335). -/
def startShift (t : Task) : Instr → Nat
  | .tdrain x _ => sh x
  | .tdrainZ x _ => sh x
  | .tresc x _ adj => adjShift (sh x) adj
  | .trescZ x _ adj => adjShift (sh x) adj
  | _ => 0
where
  /-- The shift of R27. -/
  sh (x : BitVec 6) : Nat := shiftOf (t.tile.e.get 0 x.toNat) (t.tile.c.get 0 x.toNat)

/-- The effect of entry e of the matrix or the vector long-operation engine with shift sh. -/
def runTile (satlim : Word) (t : Task) (c : CoreSt) (e : Nat) (d : Dep) (sh : Nat) : TileRes :=
  let ws := d.noise
  match d.ins with
  | .tmma x y z => runMma satlim t c x.toNat y.toNat z.toNat false
  | .tmmas x y z => runMma satlim t c x.toNat y.toNat z.toNat true
  | .tmmao x y z => runMmao satlim t c x.toNat y.toNat z.toNat ws
  | .algld x y => runAlgld t c e x.toNat y.toNat
  | .tmmaa x y z n => runMmaa satlim t c x.toNat y.toNat z.toNat n.toNat false
  | .tmmaaSw x y z n => runMmaa satlim t c x.toNat y.toNat z.toNat n.toNat true
  | .tconj x y n => runConj satlim t c x.toNat y.toNat n.toNat
  | .tnorm x y n => runNorm satlim t c x.toNat y.toNat n.toNat
  | .tacc x y =>
    ifStarts (operandChecks t c y.toNat) (runAcc satlim t c x.toNat (c.tileRows (t.tdesc y.toNat)) (t.tile.e.get 0 y.toNat) ws)
  | .taccZ x y =>
    ifStarts (zStart t y.toNat 32) (runAcc satlim t c x.toNat (t.zRows y.toNat) (t.tile.ze.get 0 y.toNat) ws)
  | .tzero x => .ok (t.zeroZ x.toNat) c []
  | .tdrain x y =>
    ifStarts (zStart t y.toNat (t.tdesc x.toNat).cols)
      (runShift satlim t c x.toNat (t.zRows y.toNat) (t.tile.ze.get 0 y.toNat) sh none)
  | .tdrainZ x y =>
    ifStarts (zStart t y.toNat (t.tdesc x.toNat).cols)
      (runShift satlim t c x.toNat (t.zRows y.toNat) (t.tile.ze.get 0 y.toNat) sh (some y.toNat))
  | .tresc x y _ =>
    ifStarts (operandChecks t c y.toNat)
      (runShift satlim t c x.toNat (c.tileRows (t.tdesc y.toNat)) (t.tile.e.get 0 y.toNat) sh none)
  | .trescZ x y _ =>
    ifStarts (zStart t y.toNat (t.tdesc x.toNat).cols)
      (runShift satlim t c x.toNat (t.zRows y.toNat) (t.tile.ze.get 0 y.toNat) sh none)
  | .voptm sup dd a _ =>
    let m := flatTile t c dd.toNat
    let g := flatTile t c a.toNat
    let p := optPar (d.ops.headD 0)
    runOpt satlim t c sup dd.toNat [a.toNat] ((m.zip (g.zip (upFrom 0 m.length))).map fun x =>
      optM p (expT t dd.toNat) (expT t a.toNat) x.1 x.2.1 (wordsOf 2 ws x.2.2 0) (wordsOf 2 ws x.2.2 1))
  | .voptv sup dd a _ =>
    let v := flatTile t c dd.toNat
    let g := flatTile t c a.toNat
    let p := optPar (d.ops.headD 0)
    runOpt satlim t c sup dd.toNat [a.toNat] ((v.zip (g.zip (upFrom 0 v.length))).map fun x =>
      optV p (expT t dd.toNat) (expT t a.toNat) x.1 x.2.1 (wordsOf 2 ws x.2.2 0) (wordsOf 2 ws x.2.2 1))
  | .vopts sup dd a _ =>
    let w := flatTile t c dd.toNat
    let m := flatTile t c a.toNat
    let v := flatTile t c (a.toNat + 1)
    let p := optPar (d.ops.headD 0)
    runOpt satlim t c sup dd.toNat [a.toNat, a.toNat + 1] ((w.zip (m.zip (v.zip (upFrom 0 w.length)))).map fun x =>
      optS p (expT t dd.toNat) (expT t a.toNat) (expT t (a.toNat + 1)) x.1 x.2.1 x.2.2.1 (wordsOf 1 ws x.2.2.2 0))
  | _ => .nothing

/-- The time of TMMAS (R329): each slice takes the clks of its fullest cell. -/
def sparseClks (t : Task) (c : CoreSt) (y z : Nat) : Nat :=
  let a := t.tdesc y
  let b := t.tdesc z
  let bits (d : TDesc) : List (List Bool) := if d.men then c.maskBits d else List.replicate d.rows (List.replicate d.sc true)
  let ma := bits a
  let mb := bits b
  let depth := sliceDepth a.ty
  let per := if a.w = 4 then 8 else if a.w = 8 then 4 else 1
  let slice (k0 : Nat) : Nat :=
    let cols := ((upFrom 0 32).filter fun j => !(b.oen && bit b.omask j)).map fun j =>
      (upFrom k0 depth).map fun k => (mb.getD k []).getD j false
    let rows := ma.map fun r => (r.drop k0).take depth
    rows.foldl (fun m r => cols.foldl (fun m col =>
      Nat.max m (((List.zipWith (· && ·) r col).countP id + per - 1) / per)) m) 1
  ((upFrom 0 (a.cols / depth)).map fun i => slice (depth * i)).foldl (· + ·) 12

/-- The clks a tile task takes from its start to the release of its destination (R314, R326, R329). -/
def tileClks (t : Task) (c : CoreSt) (i : Instr) : Nat :=
  match i with
  | .tmma _ y _ =>
    let a := t.tdesc y.toNat
    32 * a.cols / sliceDepth a.ty + 12
  | .tmmas _ y z => sparseClks t c y.toNat z.toNat
  | .tmmao _ y _ => (t.tdesc y.toNat).cols + 44
  | .tmmaa _ y _ _ | .tmmaaSw _ y _ _ =>
    let a := t.tdesc y.toNat
    (if a.w = 16 then 4 else 1) * ((a.cols * (a.d * a.d) + 3) / 4) + 12
  | .tconj _ y _ | .tnorm _ y _ => ((t.tdesc y.toNat).n + 255) / 256 + 8
  | .tzero _ => 4
  | .algld _ _ => 16
  | .voptm _ dd _ _ | .voptv _ dd _ _ | .vopts _ dd _ _ => ((t.tdesc dd.toNat).n + 63) / 64 + 24
  | _ => 44

/-- The engines of a core (R180). -/
inductive EngineId where
  | matrix
  | copy
  | vector
deriving DecidableEq, Repr

/-- The engine an instruction goes to (R180). -/
def engineOf (i : Instr) : EngineId :=
  if isCopyIns i then .copy
  else match i with
    | .voptm _ _ _ _ | .voptv _ _ _ _ | .vopts _ _ _ _ => .vector
    | _ => .matrix

/-- How many tile tasks an engine holds (R314, R326). -/
def EngineId.cap : EngineId → Nat
  | .copy => 8
  | _ => 1

/-- Whether an entry runs on its engine. -/
def Dep.isRunning (d : Dep) : Bool := d.stat == .running

/-- Whether an entry waits. -/
def Dep.isWaiting (d : Dep) : Bool := d.stat == .waiting

/-- Whether an entry of a core is ready (R181). -/
def State.depReady (s : State) (core : Nat) (d : Dep) : Bool :=
  let t := s.taskAt core d.slot
  d.isWaiting && !(s.coreAt core).blocked t d.slot d.seq (tileRes t d.ins)
    && (if isCopyIns d.ins then (s.older (.core core d.slot d.kernel) d.after).clear else d.hold.isNone)

/-- The entry an engine takes next: the oldest ready one, where the engine can accept work (R183). -/
def State.nextDep (s : State) (core : Nat) (en : EngineId) : Option (Nat × Dep) :=
  let mine := (s.coreAt core).deps.filter fun ed => engineOf ed.2.ins == en
  if en.cap ≤ (mine.filter fun ed => ed.2.isRunning).length then none
  else (mine.filter fun ed => s.depReady core ed.2).foldl (fun best x => match best with
    | some b => if x.2.seq < b.2.seq then some x else some b
    | none => some x) none

/-- Replaces an entry. -/
def State.setDep (s : State) (core e : Nat) (d : Dep) : State :=
  let c := s.coreAt core
  s.setCoreAt core { c with deps := c.deps.put e d }

/-- Wakes the tasks of a core whose WAITC or TWAIT is over: what they wait for has retired, or a failure is delivered to
them (R260, R343, R349). -/
def State.settleWaits (s : State) (core : Nat) : State :=
  (upFrom 0 16).foldl (fun s slot =>
    let t := s.taskAt core slot
    let c := s.coreAt core
    let go : State := s.setTaskAt core slot { t with stat := .ready, wait := .none }
    let settle (w : List (Nat × Dep)) : State := match failedOf w with
      | some (e, r) => let s := s.retire core e; s.setTaskAt core slot ((s.taskAt core slot).wakeWith r)
      | none => if w.isEmpty then go else s
    match t.stat, t.wait with
    | .sleeping, .copy e tag _ => settle (c.deps.filter fun ed => ed.1 == e && ed.2.of slot t.place.kernel && ed.2.tag == tag)
    | .sleeping, .tiles zs all reg _ n => settle (c.waitSet t slot zs all reg n)
    | _, _ => s) s

/-- An entry retires and its waiters are settled (R183). -/
def State.retireDep (s : State) (core e : Nat) : State := (s.retire core e).settleWaits core

/-- An event for the task that posted an entry. -/
def State.eventTask (s : State) (core slot : Nat) (r : Report) : State :=
  s.setTaskAt core slot ((s.taskAt core slot).eventTo r)

/-- The checks of a copy's start (R21, R325): the offset vectors of the tile it reads. -/
def copyStart (t : Task) (i : Instr) : List (Bool × Report) :=
  match i with
  | .tst x _ _ | .tstx x _ _ => [((t.tdesc x.toNat).offBad (t.tile.e.get 0 x.toNat), ⟨0x04C, tileTval false x.toNat⟩)]
  | .txps _ y _ => [((t.tdesc y.toNat).offBad (t.tile.e.get 0 y.toNat), ⟨0x04C, tileTval false y.toNat⟩)]
  | _ => []

/-- TILE_TASK_START (R183, R325): entry e starts if it is the one its engine takes next; a check of its start that fails is
an event and the entry retires; the shift of a shifted write is fixed (R27), and the clks it takes (R326). A copy starts once the
accesses that its task issued before its posting are complete (R137). -/
def execTileTaskStart (core e : Nat) (s : State) : Out :=
  match (s.coreAt core).deps.get? e with
  | none => .next s
  | some d =>
    match s.nextDep core (engineOf d.ins) with
    | some (e', _) =>
      if e' ≠ e then .next s
      else
        let t := s.taskAt core d.slot
        let sh := startShift t d.ins
        let run := s.setDep core e { d with stat := .running, shift := sh, done := 0, total := tileClks t (s.coreAt core) d.ins }
        if isCopyIns d.ins then match startFail (copyStart t d.ins) with
          | some r => .next ((s.eventTask core d.slot r).retireDep core e)
          | none => .next (s.setDep core e { d with stat := .running })
        else match runTile (s.ctxAt d.ctx).satlim t (s.coreAt core) e d sh with
          | .ok _ _ _ => .next run
          | .event r => .next ((s.eventTask core d.slot r).retireDep core e)
          | .nothing => .next (s.retireDep core e)
    | none => .next s

/-- TILE_TASK_COMPLETE (R26, R28, R183, R326): once a task has run its clks, the effect, the census and the scale register
appear together, the entry retires, and a scale trap goes to the posting task. -/
def execTileTaskComplete (core e : Nat) (s : State) : Out :=
  match (s.coreAt core).deps.get? e with
  | none => .next s
  | some d =>
    if !d.isRunning || isCopyIns d.ins || d.done < d.total then .next s
    else
      let t := s.taskAt core d.slot
      match runTile (s.ctxAt d.ctx).satlim t (s.coreAt core) e d d.shift with
      | .ok t' c' tr =>
        let s := (s.setTaskAt core d.slot t').setCoreAt core c'
        .next ((tr.foldl (fun s r => s.eventTask core d.slot r) s).retireDep core e)
      | .event r => .next ((s.eventTask core d.slot r).retireDep core e)
      | .nothing => .next (s.retireDep core e)

end Sys2Proof.Machine
end

