-- ==== Sys2Proof/Machine/Copy.lean ====
section
/-! DEFINITION. The copy engine: posting, promises, bursts, entropy-coded streams (R117, R137 to R140, R259, R341 to
R348). -/

namespace Sys2Proof.Machine

/-! ### Entropy-coded streams (R346, R347) -/

/-- The code lengths of a 128-byte table (R346). -/
def codeLens (bs : List Byte) : List Nat := bs.flatMap fun b => [b.toNat % 16, b.toNat / 16]

/-- The number of symbols of length l. -/
def lenCount (lens : List Nat) (l : Nat) : Nat := (lens.filter fun x => x == l).length

/-- The first code of length l (R346). -/
def codeStart (lens : List Nat) : Nat → Nat
  | 0 => 0
  | l + 1 => (codeStart lens l + (if l = 0 then 0 else lenCount lens l)) * 2

/-- The symbols of length l, ascending. -/
def symsOf (lens : List Nat) (l : Nat) : List Nat := ((lens.zip (upFrom 0 256)).filter fun x => x.1 == l).map (·.2)

/-- Whether a code table is malformed (R346). -/
def tableBad (lens : List Nat) : Bool :=
  let used := lens.filter (· != 0)
  used.isEmpty || decide (2 ^ 15 < (used.map fun l => 2 ^ (15 - l)).foldl (· + ·) 0)

/-- The decoder's tables by length 1 to 15: the first code and the symbols. -/
def decTable (lens : List Nat) : List (Nat × List Nat) := (upFrom 1 15).map fun l => (codeStart lens l, symsOf lens l)

/-- One code: a symbol and its length, no match, or too few bits. -/
inductive CodeRes where
  | sym (s len : Nat)
  | bad
  | short
deriving DecidableEq, Repr

/-- Matches one code from a bit position (R346). -/
def matchCode (stream : List Byte) (nbits pos : Nat) : List (Nat × List Nat) → Nat → Nat → CodeRes
  | [], _, _ => .bad
  | (start, syms) :: rest, len, code =>
    let p := pos + len
    if nbits ≤ p then .short
    else
      let b := (stream.getD (p / 8) 0).getLsbD (7 - p % 8)
      let code' := 2 * code + b2n b
      match if start ≤ code' then syms[code' - start]? else none with
      | some s => .sym s (len + 1)
      | none => matchCode stream nbits pos rest (len + 1) code'

/-- What decoding n symbols gives: the symbols and the bits used, or the cause with the position of the failing code. -/
inductive DecRes where
  | ok (syms : List Byte) (used : Nat)
  | fail (cause pos : Nat)
deriving DecidableEq, Repr

/-- Decodes n symbols from a bit position (R347). -/
def decodeSyms (tab : List (Nat × List Nat)) (stream : List Byte) (nbits : Nat) : Nat → Nat → List Byte → DecRes
  | 0, pos, acc => .ok acc.reverse pos
  | n + 1, pos, acc => match matchCode stream nbits pos tab 0 0 with
    | .sym s len => decodeSyms tab stream nbits n (pos + len) (BitVec.ofNat 8 s :: acc)
    | .bad => .fail 0x182 pos
    | .short => .fail 0x183 pos

/-- The symbols decoded before a code that fails. -/
def decodedPrefix (tab : List (Nat × List Nat)) (stream : List Byte) (nbits : Nat) : Nat → Nat → List Byte
  | 0, _ => []
  | n + 1, pos => match matchCode stream nbits pos tab 0 0 with
    | .sym s len => BitVec.ofNat 8 s :: decodedPrefix tab stream nbits n (pos + len)
    | _ => []

/-- Bytes of a COMPRESSED page (R117), whose image stands at `out`. -/
def Mem.decodedBytes (m : Mem) (out : Loc) (off n : Nat) : DecRes :=
  let rd (a k : Nat) : List Byte := (upFrom a k).map fun x => m.rd (out.plus x)
  let lens := codeLens (rd 0 128)
  if tableBad lens then .fail 0x181 0
  else
    let nbits := ofBytes (rd 128 4)
    match decodeSyms (decTable lens) (rd 132 ((Nat.min nbits (15 * (off + n)) + 7) / 8)) nbits (off + n) 0 [] with
    | .ok syms used => .ok (syms.drop off) used
    | r => r

/-- The first of n bytes from a place on whose line is poisoned. -/
def Mem.badFrom (m : Mem) (out : Loc) (n : Nat) : Option Nat := (upFrom 0 n).find? fun k => m.bad (out.plus k)

/-- The offsets of the poisoned bytes (R451). -/
def badOffs (bs : List (Byte × Bool)) : List Nat := ((upFrom 0 bs.length).zip bs).filterMap fun x => if x.2.2 then some x.1 else none

/-! ### Promises and posting (R259, R341, R342) -/

/-- The term of a copy of n bytes in a promise (R342). -/
def copyTerm (i : Instr) (n : Nat) : Nat :=
  match i with
  | .tcpyd _ _ _ => (n + 15) / 16
  | _ => (n + 63) / 64

/-- L of a promise (R342): by the first memory byte a copy addresses. -/
def State.copyLat (s : State) (first : Option (Word × Nat)) : Nat :=
  match first with
  | none => 64
  | some (va, need) => match s.translate s.task.place.ctx va need with
    | .error _ => 2800
    | .ok (m, ia) => if m ≠ s.part.module then 2800 else if ia < 0x10000000 then 64 else 448

/-- Posts a copy after its checks: the promise to G(z) and the tag to G(z + 1), latency 2 (R259, R342). -/
def State.postCopy (s : State) (checks : List (Bool × Nat × Word)) (ins : Instr) (ops desc : List Word) (n z : Nat)
    (first : Option (Word × Nat)) : State :=
  match firstFail checks with
  | some (c, tv) => s.raise c tv
  | none =>
    let b := ((s.coreAt s.iss.core).deps.map fun ed =>
      if isCopyIns ed.2.ins then copyTerm ed.2.ins ed.2.total else 0).foldl (· + ·) 0
    let p := s.cycle + BitVec.ofNat 64 (b + copyTerm ins n + s.copyLat first)
    s.post ins ops desc 0 n p fun s _ tag =>
      (s.deposit 2 (imgW p)).issueTo (.gPair z) 2 (.ready (imgPair p (BitVec.ofNat 64 tag)))

/-- The check that a G pair field is even (R325). -/
def oddPair (n : Nat) : Bool × Nat × Word := (n % 2 == 1, 0x054, 0)

/-- The G pair at an even register. -/
def Task.gPair (t : Task) (n : Nat) : List Word := [t.gReg n, t.gReg (n + 1)]

/-- TLD (R344). -/
def execTld (x y z : BitVec 6) (s : State) : Out :=
  let t := s.task
  let d := t.tdesc x.toNat
  .next (s.postCopy [oddPair y.toNat, oddPair z.toNat, t.noDesc x.toNat] (.tld x y z) (t.gPair y.toNat) []
    (d.srows * d.rb) z.toNat (some (t.gReg y.toNat, permR)))

/-- TST (R344). -/
def execTst (x y z : BitVec 6) (s : State) : Out :=
  let t := s.task
  let d := t.tdesc x.toNat
  .next (s.postCopy [oddPair y.toNat, oddPair z.toNat, t.noDesc x.toNat, t.offBad x.toNat] (.tst x y z) (t.gPair y.toNat) []
    (d.srows * d.rb) z.toNat (some (t.gReg y.toNat, permW)))

/-- TSTX (R342, R344): both images count. -/
def execTstx (x y z : BitVec 6) (s : State) : Out :=
  let t := s.task
  let d := t.tdesc x.toNat
  .next (s.postCopy [oddPair y.toNat, oddPair z.toNat, t.noDesc x.toNat, t.offBad x.toNat] (.tstx x y z) (t.gPair y.toNat) []
    (2 * (d.srows * d.rb)) z.toNat (some (t.gReg y.toNat, permW)))

/-- TXPS (R344). -/
def execTxps (x y z : BitVec 6) (s : State) : Out :=
  let t := s.task
  let a := t.tdesc x.toNat
  let b := t.tdesc y.toNat
  .next (s.postCopy [oddPair z.toNat, t.noDesc x.toNat, t.noDesc y.toNat, tFail (a.d != b.d) 0x046 x.toNat,
    tFail (a.rows != b.cols || a.cols != b.rows) 0x042 x.toNat, tFail (a.ty != b.ty) 0x043 x.toNat, t.offBad y.toNat]
    (.txps x y z) [] [] (b.srows * b.rb) z.toNat none)

/-- A copy descriptor read from its words (R341): lengths n0 to n5, source and destination strides 1 to 5. -/
structure CDesc where
  n : List Nat
  s : List Int
  t : List Int
  rsv : Bool
deriving DecidableEq, Repr

/-- Reads the eight words of a copy descriptor. -/
def cdesc (w : List Word) : CDesc :=
  let g (k : Nat) : Word := w.getD k 0
  let st (k : Nat) (hi : Bool) : Int := if hi then sext ((g k).f 63 32) 32 else sext ((g k).f 31 0) 32
  { n := [(g 0).f 15 0 + 1, (g 0).f 31 16 + 1, (g 0).f 47 32 + 1, (g 0).f 63 48 + 1, (g 1).f 15 0 + 1, (g 1).f 31 16 + 1]
    s := [st 2 false, st 2 true, st 3 false, st 3 true, st 4 false]
    t := [st 4 true, st 5 false, st 5 true, st 6 false, st 6 true]
    rsv := (g 1).f 63 32 != 0 || g 7 != 0 }

/-- The bytes a nest moves. -/
def CDesc.total (c : CDesc) : Nat := c.n.foldl (· * ·) 1

/-- The offset of row r of a nest, along the given strides: r counts i1 fastest. -/
def nestOff : List Nat → List Int → Nat → Int
  | n :: ns, s :: ss, r => ((r % n : Nat) : Int) * s + nestOff ns ss (r / n)
  | _, _, _ => 0

/-- The start of row r of a nest at an end: the address and the stride offset (R341). -/
def CDesc.rowAt (c : CDesc) (strides : List Int) (base : Word) (r : Nat) : Int := base.toNat + nestOff (c.n.drop 1) strides r

/-- The rows of a nest. -/
def CDesc.rows (c : CDesc) : Nat := c.total / c.n.headD 1

/-- The first tile-store byte a nest addresses at an end that lies outside the task's allocation (R219, R345). -/
def Task.nestOut (t : Task) (c : CDesc) (strides : List Int) (base : Word) : Option Int :=
  (upFrom 0 c.rows).findSome? fun r =>
    let a := c.rowAt strides base r
    let n := c.n.headD 1
    if 0 ≤ a ∧ t.ownsTile a.toNat n = true then none
    else ((upFrom 0 n).find? fun i => a + i < 0 || !t.ownsTile (a + i).toNat 1).map fun i => a + i

/-- TCPY in its four forms (R345). -/
def State.tcpy (s : State) (ins : Instr) (x y z : BitVec 6) (st dt : Bool) : State :=
  let t := s.task
  let w := (upFrom 0 8).map fun k => t.tile.d.get 0 (8 * x.toNat + k)
  let c := cdesc w
  let a := t.gReg y.toNat
  let b := t.gReg (y.toNat + 1)
  let bad := c.rsv || decide (2 ^ 32 - 1 < c.total)
  let out := if bad then none else ((if st then t.nestOut c c.s a else none).orElse fun _ => if dt then t.nestOut c c.t b else none)
  s.postCopy [oddPair y.toNat, oddPair z.toNat, (bad, 0x188, 0),
      (out.isSome, 0x08D, memTval 0x08D 0 (toWord (out.getD 0)))]
    ins [a, b] w c.total z.toNat (if st && dt then none else if st then some (b, permW) else some (a, permR))

/-- TCPY.MM (R345). -/
def execTcpyMm (x y z : BitVec 6) (s : State) : Out := .next (s.tcpy (.tcpyMm x y z) x y z false false)
/-- TCPY.TM (R345). -/
def execTcpyTm (x y z : BitVec 6) (s : State) : Out := .next (s.tcpy (.tcpyTm x y z) x y z true false)
/-- TCPY.MT (R345). -/
def execTcpyMt (x y z : BitVec 6) (s : State) : Out := .next (s.tcpy (.tcpyMt x y z) x y z false true)
/-- TCPY.TT (R345). -/
def execTcpyTt (x y z : BitVec 6) (s : State) : Out := .next (s.tcpy (.tcpyTt x y z) x y z true true)

/-- TCPYD (R347). -/
def execTcpyd (x y z : BitVec 6) (s : State) : Out :=
  let t := s.task
  let d := t.tdesc x.toNat
  .next (s.postCopy [oddPair y.toNat, oddPair z.toNat, (!s.part.hasDecoder, 0x180, 0), t.noDesc x.toNat,
    tFail (d.ty != 1) 0x043 x.toNat] (.tcpyd x y z) (t.gPair y.toNat) [] d.n z.toNat (some (t.gReg y.toNat, permR)))

/-- TMSKLD (R348): the descriptor is taken at posting. -/
def execTmskld (x y z : BitVec 6) (s : State) : Out :=
  let t := s.task
  let d := t.tdesc x.toNat
  .next (s.postCopy [oddPair z.toNat, t.noDesc x.toNat,
      (!d.men || !t.ownsMask d.bitmap.1 d.bitmap.2, 0x198, 0)]
    (.tmskld x y z) [t.gReg y.toNat] [t.tile.t0.get 0 x.toNat, t.tile.t1.get 0 x.toNat] d.bitmap.2 z.toNat
    (some (t.gReg y.toNat, permR)))

/-! ### Bursts (R343) -/

/-- One end of a copy: a virtual address, a tile-store byte, a mask-store byte, or bytes the engine has formed. -/
inductive CEnd where
  | mem (va : Word)
  | tile (a : Nat)
  | mask (a : Nat)
  | formed (bs : List Byte)
deriving DecidableEq, Repr

/-- A piece of a copy: its ends and how many bytes run on from them at both. -/
structure Piece where
  src : CEnd
  dst : CEnd
  run : Nat
deriving DecidableEq, Repr

/-- The transposed image of a tile (R344): element (j, i) of the image is element (i, j), components adjacent. -/
def transImage (c : CoreSt) (d : TDesc) : List Byte :=
  let rows := c.tileRows d
  (upFrom 0 d.cols).flatMap fun j =>
    let row := rows.flatMap fun r => (r.drop (d.d * j)).take d.d
    toBytes (d.rows * d.d * d.w / 8) (pack d.w row)

/-- The memory row stride of a tile copy: 0 means rb (R344). -/
def memStride (d : TDesc) (w : Word) : Word := if w = 0 then BitVec.ofNat 64 d.rb else w

/-- Whether a TSTX forms its transposed image from poisoned bytes (R451). -/
def CoreSt.formedBad (c : CoreSt) (t : Task) (d : Dep) : Bool :=
  match d.ins with
  | .tstx x _ _ => (c.tilePoison (t.tdesc x.toNat)).isSome
  | _ => false

/-- The piece of a copy at byte k of its total. -/
def copyPiece (t : Task) (c : CoreSt) (d : Dep) (k : Nat) : Piece :=
  let o (i : Nat) : Word := d.ops.getD i 0
  let tileRow (x : BitVec 6) (mem : Word) (stride : Word) (load : Bool) : Piece :=
    let td := t.tdesc x.toNat
    let n := k / td.rb
    let i := k % td.rb
    let m := CEnd.mem (mem + stride * BitVec.ofNat 64 n + BitVec.ofNat 64 i)
    let b := CEnd.tile (td.rowAddr n + i)
    if load then ⟨m, b, td.rb - i⟩ else ⟨b, m, td.rb - i⟩
  let nest (st dt : Bool) : Piece :=
    let cd := cdesc d.desc
    let n0 := cd.n.headD 1
    let r := k / n0
    let i := k % n0
    let e (tile : Bool) (a : Int) : CEnd := if tile then .tile (a.toNat + i) else .mem (BitVec.ofInt 64 (a + i))
    ⟨e st (cd.rowAt cd.s (o 0) r), e dt (cd.rowAt cd.t (o 1) r), n0 - i⟩
  match d.ins with
  | .tld x _ _ => tileRow x (o 0) (memStride (t.tdesc x.toNat) (o 1)) true
  | .tst x _ _ => tileRow x (o 0) (memStride (t.tdesc x.toNat) (o 1)) false
  | .tstx x _ _ =>
    let td := t.tdesc x.toNat
    let n := td.srows * td.rb
    if k < n then tileRow x (o 0) (BitVec.ofNat 64 td.rb) false
    else ⟨.formed ((transImage c td).drop (k - n)), .mem (o 1 + BitVec.ofNat 64 (k - n)), 2 * n - k⟩
  | .tcpyMm _ _ _ => nest false false
  | .tcpyTm _ _ _ => nest true false
  | .tcpyMt _ _ _ => nest false true
  | .tcpyTt _ _ _ => nest true true
  | .tmskld _ _ _ => ⟨.mem (o 0 + BitVec.ofNat 64 k), .mask ((tdesc (d.desc.getD 0 0) (d.desc.getD 1 0)).bitmap.1 + k), d.total - k⟩
  | _ => ⟨.formed [], .formed [], 0⟩

/-- The bytes to the next 256-byte boundary of a memory end (R343). -/
def CEnd.room : CEnd → Nat
  | .mem va => 256 - va.toNat % 256
  | _ => 2 ^ 32

/-- What a copy's read of one burst gives: bytes, each with whether it is poisoned; an access error; a failure of the copy;
or nothing yet. -/
inductive BurstRes where
  | ok (bs : List (Byte × Bool))
  | err (cause : Nat) (tval : Word)
  | fail (cause : Nat) (tval : Word)
  | wait
deriving DecidableEq, Repr

/-- TRAPVAL of class 6: the entry, and the byte offset of the first failing access (R219, R347). -/
def copyTval (e off : Nat) : Word := BitVec.ofNat 64 (e + off % 2 ^ 32 * 2 ^ 32)

/-- How many bytes from byte k of a copy on run on in memory at an end, at most to the next 256-byte boundary of that end: rows
that follow each other are one run (R126, R343). -/
def copyRun (side : Piece → CEnd) (t : Task) (c : CoreSt) (d : Dep) : Nat → Nat → Nat
  | 0, _ => 0
  | fuel + 1, k =>
    let p := copyPiece t c d k
    let n := Nat.min p.run (side p).room
    let next := match side p with
      | .mem va => decide (k + n < d.total) && (va.toNat + n) % 256 != 0
          && (match side (copyPiece t c d (k + n)) with | .mem vb => vb == va + BitVec.ofNat 64 n | _ => false)
      | _ => false
    if next then n + copyRun side t c d fuel (k + n) else n

/-- The unit of a copy. -/
def Dep.unit (d : Dep) (core e : Nat) : UnitId := .copy core e d.seq

/-- A copy's read of a burst, with the parts it was translated to where it is tried again (R91). -/
def Dep.access (d : Dep) (core e id : Nat) (va : Word) (n : Nat) : Held :=
  { Held.new id (d.unit core e) d.ctx (.raw va n) d.slot 0 with parts := d.parts }

/-- Holds a copy's read (R109): the burst waits in the list of held accesses. -/
def State.holdCopy (s : State) (core e : Nat) (d : Dep) (va : Word) (n : Nat) (why : HoldWhy) (ia : Nat) : Held × State :=
  let (id, s) := s.freshId
  let h := d.access core e id va n
  let h : Held := { (if h.parts.isEmpty then s.withParts h else h) with why := why, ia := ia }
  (h, (s.setDep core e { d with hold := some id }).hold h)

/-- A burst's read from memory (R106, R117, R343): poison travels with the bytes (R451); dec: the bytes land in the tile
store, and a COMPRESSED page is decoded. -/
def State.burstRead (s : State) (core e : Nat) (d : Dep) (va : Word) (n : Nat) (dec : Bool) : State × BurstRes :=
  let u := d.unit core e
  let ls := s.looksOf (d.access core e 0 va n) va n (if dec then .decoded else .read) 0
  let bad (b : ByteLook) : Bool := match b.look with
    | .poison _ => true
    | .mem l _ => s.mem.bad l
    | _ => false
  let one (b : ByteLook) : Option (Nat × Nat) := match b.look with
    | .comp out _ off _ => match s.mem.decodedBytes out off 1 with
      | .fail c p => some (c, p)
      | _ => none
    | _ => none
  let hold (s : State) (why : HoldWhy) (ia : Nat) : State × BurstRes := ((s.holdCopy core e d va n why ia).2, .wait)
  match if dec then ls.findSome? one else none with
  | some (c, _) => (s, .fail c (copyTval e d.done))
  | none =>
    let plain := ls.map fun b => match b.look with
      | .poison k => { b with look := .zeros k }
      | .comp _ _ _ k => if dec then { b with look := .zeros k } else b
      | _ => b
    if (s.older u s.nextId).blocksAny false ls then hold s .side 0
    else match { s with mem := { s.mem with poison := [] } }.readLooks plain [] [] false with
    | .ok bs => (s, .ok ((bs.zip ls).map fun x => match x.2.look with
        | .comp out _ off _ => match s.mem.decodedBytes out off 1 with
          | .ok ys used => (ys.headD 0, (s.mem.badFrom out (132 + (used + 7) / 8)).isSome)
          | _ => (0, false)
        | _ => (x.1, bad x.2)))
    | .xlat c o => (s, .err c (memTval c 0 (va + BitVec.ofNat 64 o)))
    | .err c o st => (s, .err c (memTval c st (va + BitVec.ofNat 64 o)))
    | .fault o => hold (s.recordFaults d.ctx u ls va .read true 0 n) .flush (iaAt ls o)
    | .wait o => hold s .migration (iaAt ls o)
    | .order => (s, .wait)
    | .remote miss =>
      let (h, s) := s.holdCopy core e d va n .reply (iaAt ls 0)
      (s.sendReads h va ls miss, .wait)

/-- Writes a burst to its destination, with the reports of the parts that fail. -/
def State.burstWrite (s : State) (core e : Nat) (d : Dep) (dst : CEnd) (bs : List (Byte × Bool)) : State × List Report :=
  let data := bs.map (·.1)
  match dst with
  | .mem va =>
    s.writeVA d.ctx (d.unit core e) va data false false (badOffs bs)
  | .tile a =>
    let c := (s.coreAt core).putTile [(a, data)]
    let bad := ((upFrom a data.length).zip bs).filterMap fun x => if x.2.2 then some (x.1 / 64 * 64) else none
    (s.setCoreAt core { c with poisonTile := (c.poisonTile ++ bad).eraseDups }, [])
  | .mask a =>
    let c := s.coreAt core
    let bad := ((upFrom a data.length).zip bs).filterMap fun x => if x.2.2 then some (x.1 / 64 * 64) else none
    let old := c.poisonMask.filter fun l => !(a ≤ l && l + 64 ≤ a + data.length)
    (s.setCoreAt core { c with maskMem := c.maskMem.setMany 0 a data, poisonMask := (old ++ bad).eraseDups }, [])
  | .formed _ => (s, [])

/-- Clears the census of a tile that a stopped copy has written in part: no reader sees new data with the old census (R26, R347,
log 40). -/
def State.dropCensus (s : State) (core : Nat) (d : Dep) (decoded : Bool) : State :=
  let clear (x : BitVec 6) : State :=
    let t := s.taskAt core d.slot
    s.setTaskAt core d.slot { t with tile := { t.tile with c := t.tile.c.set 0 x.toNat 0 } }
  match d.ins with
  | .tld x _ _ => if d.done = 0 then s else clear x
  | .tcpyd x _ _ => if decoded then clear x else s
  | _ => s

/-- A copy that fails (R115, R343): it stops and keeps its entry until its failure is delivered; a wait that awaits it
receives it at once. -/
def State.failCopy (s : State) (core e : Nat) (cause : Nat) (tv : Word) : State :=
  match (s.coreAt core).deps.get? e with
  | none => s
  | some d =>
    let s := s.setDep core e { d with stat := .failed cause tv, hold := none, buf := [], parts := [] }
    (s.dropCensus core d (decide (0x180 ≤ cause ∧ cause < 0x1C0))).settleWaits core

/-- A copy that meets an access error (R343): 0x148 fails it; any other cause is reported imprecisely and the entry
retires. -/
def State.stopCopy (s : State) (core e : Nat) (d : Dep) (cause : Nat) (tv : Word) : State :=
  if cause = 0x148 then s.failCopy core e cause tv
  else ((s.dropCensus core d false).reportTask core d.slot d.kernel ⟨cause, tv⟩).retireDep core e

/-- The end of a copy (R25, R344): the census of a tile it wrote, its scale trap, and the entry retires. -/
def State.endCopy (s : State) (core e : Nat) (d : Dep) : State :=
  let t := s.taskAt core d.slot
  let c := s.coreAt core
  let wrote (x : BitVec 6) : State :=
    let td := t.tdesc x.toNat
    let v := c.tileRows td
    let cx := censusRows v v v td.w
    let s := s.setTaskAt core d.slot { t with tile := { t.tile with c := t.tile.c.set 0 x.toNat cx } }
    (satTrap (s.ctxAt d.ctx).satlim cx td.n (tileTval false x.toNat)).foldl (fun s r => s.eventTask core d.slot r) s
  (match d.ins with
  | .tld x _ _ => wrote x
  | .tcpyd x _ _ => wrote x
  | _ => s).retireDep core e

/-- TXPS (R344): the whole transpose at once. -/
def State.runTxps (s : State) (core e : Nat) (d : Dep) (x y : Nat) : State :=
  let t := s.taskAt core d.slot
  let c := s.coreAt core
  let a := t.tdesc x
  let b := t.tdesc y
  match c.tilePoison b with
  | some l => (s.eventTask core d.slot ⟨0x150, BitVec.ofNat 64 l⟩).retireDep core e
  | none =>
    let rows := (c.tileRows b).map (components b.d b.cols)
    let v := (upFrom 0 b.cols).map fun j => rows.flatMap fun r => r.getD j []
    let cx := censusRows v v v a.w
    let ex := t.tile.e.get 0 x
    let ey := t.tile.e.get 0 y
    let rowF := ey.f 39 24
    let colF := ey.f 55 40
    let ex' := withExp ((((ex.setF 62 62 (b2n (colv ey))).setF 63 63 (b2n (rowv ey))).setF 39 24 colF).setF 55 40 rowF) (expOf ey)
    let s := (s.setTaskAt core d.slot (t.setEC x ex' cx)).setCoreAt core (c.setTileRows a v)
    ((satTrap (s.ctxAt d.ctx).satlim cx a.n (tileTval false x)).foldl (fun s r => s.eventTask core d.slot r) s).retireDep core e

/-- The next bytes a TCPYD reads: the table, the count, then no more of the stream than n symbols can take (R347). -/
def tcpydNext (d : Dep) (n : Nat) : Option (Word × Nat) :=
  let got := d.buf.length
  let tab := d.ops.getD 1 0
  let str := d.ops.getD 0 0
  if got < 128 then some (tab + BitVec.ofNat 64 got, 128 - got)
  else if got < 132 then some (str + BitVec.ofNat 64 (got - 128), 132 - got)
  else
    let bits := ofBytes (((d.buf.drop 128).take 4).map (·.1))
    let need := 132 + (Nat.min bits (15 * n) + 7) / 8
    if got < need then some (str + BitVec.ofNat 64 (got - 128), need - got) else none

/-- Writes decoded elements of a tile that fails to decode: each holds its old or its decoded value (R347), which is a free
choice (log 4). -/
def State.partTile (s : State) (core : Nat) (td : TDesc) (syms : List Byte) : State :=
  let c := s.coreAt core
  let place (i : Nat) : Nat := td.rowAddr (i / td.rb) + i % td.rb
  let ws := (syms.zip (upFrom 0 syms.length)).filterMap fun x =>
    if Config.freeBool (s.free + x.2) then some (place x.2, [x.1]) else none
  { s.setCoreAt core (c.putTile ws) with free := s.free + syms.length }

/-- A TCPYD with all it needs (R347): decodes into the tile, or fails; what it decodes from poisoned bytes is poisoned (R451). -/
def State.runTcpyd (s : State) (core e : Nat) (d : Dep) (x : Nat) : State :=
  let t := s.taskAt core d.slot
  let td := t.tdesc x
  let buf := d.buf.map (·.1)
  let lens := codeLens (buf.take 128)
  let bits := ofBytes ((buf.drop 128).take 4)
  if tableBad lens then s.failCopy core e 0x181 (copyTval e 0)
  else match decodeSyms (decTable lens) (buf.drop 132) bits td.n 0 [] with
  | .fail c p =>
    (s.partTile core td (decodedPrefix (decTable lens) (buf.drop 132) bits td.n 0)).failCopy core e c (copyTval e (4 + p / 8))
  | .ok syms used =>
    if used < bits then (s.partTile core td syms).failCopy core e 0x183 (copyTval e (4 + used / 8))
    else
      let rs := (upFrom 0 td.srows).map fun n => (td.rowAddr n, (syms.drop (n * td.rb)).take td.rb)
      let c := (s.coreAt core).putTile rs
      let bad := if d.buf.any (·.2) then td.ranges.flatMap fun r => (upFrom (r.1 / 64) ((r.1 + r.2 + 63) / 64 - r.1 / 64)).map (64 * ·) else []
      (s.setCoreAt core { c with poisonTile := (c.poisonTile ++ bad).eraseDups }).endCopy core e d

/-- Whether a copy is still to take time: one that nothing delays completes in the last clk before its promise (R342, log 9). -/
def Dep.early (d : Dep) (s : State) : Bool := s.cycle.toNat + 1 < d.promise.toNat

/-- A copy goes on after a read of its engine: the bytes join those read, or the copy stops, fails or waits. -/
def State.burstGot (core e : Nat) (d : Dep) : State × BurstRes → State
  | (s, .ok bs) => s.setDep core e { d with buf := d.buf ++ bs, parts := [] }
  | (s, .err c tv) => s.stopCopy core e d c tv
  | (s, .fail c tv) => s.failCopy core e c tv
  | (s, .wait) => s

/-- One action of a copy that moves bytes (R126, R343): the writing of a burst whose bytes it has read, or the reading of the next
source burst; a full side log holds the writing (R110). No burst crosses a 256-byte boundary of its end. -/
def State.moveCopy (s : State) (core e : Nat) (d : Dep) : State :=
  let t := s.taskAt core d.slot
  let c := s.coreAt core
  let have_ := d.buf.length
  let n := copyRun Piece.dst t c d 256 d.done
  let p := copyPiece t c d d.done
  let toMem := match p.dst with | .mem _ => true | _ => false
  if n ≤ have_ then
    if toMem && 64 ≤ (s.sideOf (d.unit core e)).length then s
    else match s.burstWrite core e d p.dst (d.buf.take n) with
      | (s, []) =>
        let d' := { d with done := d.done + n, buf := d.buf.drop n }
        let s := s.setDep core e d'
        if decide (d'.total ≤ d'.done) && s.unitQuiet (d.unit core e) && !d'.early s then s.endCopy core e d' else s
      | (s, x :: _) => s.stopCopy core e d x.cause x.tval
  else
    let q := copyPiece t c d (d.done + have_)
    let k := Nat.min q.run (n - have_)
    State.burstGot core e d (match q.src with
      | .mem va => s.burstRead core e d va (copyRun Piece.src t c d 256 (d.done + have_)) (match p.dst with | .tile _ => true | _ => false)
      | .tile a => (s, .ok ((upFrom a k).map fun x => (c.tileMem.get 0 x, c.poisonTile.contains (x / 64 * 64))))
      | .mask a => (s, .ok ((upFrom a k).map fun x => (c.maskMem.get 0 x, c.poisonMask.contains (x / 64 * 64))))
      | .formed bs => (s, .ok ((bs.take k).map fun b => (b, c.formedBad t d))))

/-- COPY_BURST_REPLY (R343): a running copy reads its next burst or writes one; a read that cannot be served stops this copy
only. -/
def execCopyBurstReply (core e : Nat) (s : State) : Out :=
  match (s.coreAt core).deps.get? e with
  | none => .next s
  | some d =>
    if !d.isRunning || d.hold.isSome || !isCopyIns d.ins then .next s
    else
      let t := s.taskAt core d.slot
      match d.ins with
      | .txps x y _ => .next (if d.early s then s else s.runTxps core e d x.toNat y.toNat)
      | .tcpyd x _ _ =>
        if d.buf.length == 128 && tableBad (codeLens (d.buf.map (·.1))) then .next (s.failCopy core e 0x181 (copyTval e 0))
        else match tcpydNext d (t.tdesc x.toNat).n with
        | none => .next (if d.early s then s else s.runTcpyd core e d x.toNat)
        | some (va, n) => .next (State.burstGot core e d (s.burstRead core e d va (Nat.min n (CEnd.room (.mem va))) false))
      | _ =>
        if d.total ≤ d.done then .next (if s.unitQuiet (d.unit core e) && !d.early s then s.endCopy core e d else s)
        else .next (s.moveCopy core e d)

/-- Ends the wait of a copy's held read: what other modules have refused stops it; the bytes they have sent join those read; else
the burst is tried again as it was translated (R91, R109). -/
def State.releaseCopy (s : State) (h : Held) : State :=
  match h.unit with
  | .copy core e seq =>
    let s := { s with held := s.held.filter fun x => x.id ≠ h.id }
    match (s.coreAt core).deps.get? e with
    | some d =>
      if d.seq ≠ seq ∨ d.hold ≠ some h.id then s
      else match h.bad with
        | (o, c, st) :: _ => s.stopCopy core e { d with hold := none } c (memTval c st (h.req.addr o))
        | [] =>
          let data := h.got.map fun x => (x.2, h.taint.contains x.1)
          s.setDep core e { d with hold := none, buf := d.buf ++ data, parts := if data.isEmpty then h.parts else [] }
    | none => s
  | _ => s

/-- MISSED_PROMISE (R140, R260, R349): CYCLE has reached the deadline of a task's wait for copies that are not complete:
0x127; in a handler it stays pending and the wait goes on. -/
def execMissedPromise (core slot : Nat) (s : State) : Out :=
  let t := s.taskAt core slot
  let miss (p : Word) (w : Wait) : State :=
    if p = 0 ∨ s.cycle.toNat < p.toNat then s
    else if t.inTrap then s.setTaskAt core slot { t with wait := w, events := t.events ++ [⟨0x127, p⟩] }
    else s.setTaskAt core slot (t.wakeWith ⟨0x127, p⟩)
  .next (match t.stat, t.wait with
  | .sleeping, .copy e tag p => miss p (.copy e tag 0)
  | .sleeping, .tiles zs all reg p n => miss p (.tiles zs all reg 0 n)
  | _, _ => s)

end Sys2Proof.Machine
end

