-- ==== Sys2Proof/Machine/Launch.lean ====
section
/-! DEFINITION. Launch records, the pending-launch pool, placement and the end of a kernel (R88, R151 to R164). -/

namespace Sys2Proof.Machine

/-! ### Quotas (R88) -/

/-- CTXQUOTA.POOL. -/
def Ctx.pool (c : Ctx) : Nat := Nat.min 256 (c.quota.f 40 32)
/-- CTXQUOTA.TASKS. -/
def Ctx.tasks (c : Ctx) : Nat := Nat.min 16 (c.quota.f 26 22)
/-- CTXQUOTA.TILE. -/
def Ctx.tile (c : Ctx) : Nat := Nat.min 8 (c.quota.f 21 18)
/-- CTXQUOTA.VREG. -/
def Ctx.vreg (c : Ctx) : Nat := Nat.min 16 (c.quota.f 17 13)
/-- CTXQUOTA.HERD. -/
def Ctx.herd (c : Ctx) : Nat := Nat.min 16 (c.quota.f 12 8)

/-! ### The launch record (R151, R152) -/

/-- Word k of a record. -/
def LaunchRec.word (r : LaunchRec) (k : Nat) : Word := List.getD r k 0

/-- Bytes 8 to 15 of a record: depth, quotas, rectangle. -/
def LaunchRec.geom (r : LaunchRec) : Word := r.word 1

/-- TILE of a geometry word. -/
def geomTile (g : Word) : Nat := g.f 56 52
/-- VREG of a geometry word. -/
def geomVreg (g : Word) : Nat := g.f 51 47
/-- The origin and the size of a geometry word's rectangle. -/
def geomX (g : Word) : Nat := g.f 43 39
def geomY (g : Word) : Nat := g.f 38 35
def geomW (g : Word) : Nat := 2 ^ g.f 34 32
def geomH (g : Word) : Nat := 2 ^ g.f 31 29

/-- The cores of a rectangle with their coordinates, by rank (R166). -/
def geomCores (g : Word) : List Nat :=
  (upFrom (geomY g) (geomH g)).flatMap fun y => (upFrom (geomX g) (geomW g)).map fun x => x + 32 * y

/-- The rank of a core in a rectangle (R166). -/
def geomRank (g : Word) (core : Nat) : Nat := (core % 32 - geomX g) + geomW g * (core / 32 - geomY g)

/-- The first failing check of a record (R152): addr is the record's address, depth the level it must name. -/
def checkRec (part : Part) (c : Ctx) (r : LaunchRec) (addr : Nat) (depth : Nat) : Option Nat :=
  let e := r.word 0
  let g := r.geom
  let d := r.word 2
  if e.f 63 57 ≠ 0 ∨ e.f 3 0 ≠ 0 ∨ g.f 61 57 ≠ 0 ∨ g.f 46 44 ≠ 0 ∨ g.f 28 0 ≠ 0 ∨ d.f 63 57 ≠ 0 ∨ r.word 3 ≠ 0
      ∨ r.word 19 ≠ 0 ∨ 8 < geomTile g ∨ 16 < geomVreg g ∨ 5 < g.f 34 32 ∨ d.f 2 0 ≠ 0 ∨ addr % 32 ≠ 0 then
    some 0x113
  else if part.meshX < geomX g + geomW g ∨ 16 < geomY g + geomH g then some 0x110
  else if geomX g % geomW g ≠ 0 ∨ geomY g % geomH g ≠ 0 then some 0x112
  else if g.f 63 62 ≠ depth then some 0x114
  else if c.tile < geomTile g ∨ c.vreg < geomVreg g ∨ c.tasks = 0 then some 0x111
  else none

/-! ### The pending-launch pool (R157, R158) -/

/-- The level of a kernel. -/
def Kernel.level (k : Kernel) : Nat := (LaunchRec.geom k.rec_).f 63 62

/-- Whether a level's pool and a context's share of it have an entry free (R158). -/
def State.poolFree (s : State) (ctx level : Nat) : Bool :=
  let mine := s.kernels.filter fun k => k.2.stat == .posted && k.2.level == level
  mine.length < 256 && (mine.filter fun k => k.2.ctx == ctx).length < (s.ctxAt ctx).pool

/-- Whether a record of a context is parked at a level. -/
def State.hasParked (s : State) (ctx level : Nat) : Bool := s.parked.any fun p => p.ctx == ctx && p.level + 1 == level

/-- The clks from the posting of a kernel to its placement where it is placeable (R165, log 9). -/
def placePath : Nat := 48

/-- The clks of a reply of the launch scheduler (R165's example, log 9). -/
def replyPath : Nat := 19

/-- Posts a kernel: it takes its pool entry; kernels stand in posting order. -/
def State.postKernel (s : State) (ctx : Nat) (r : LaunchRec) (node : Option (Nat × Nat)) : State :=
  let (id, s) := s.freshId
  let k : Kernel := ⟨ctx, r, .posted, (geomCores (LaunchRec.geom r)).length, 0, node, s.cycle.toNat + placePath⟩
  { s with kernels := s.kernels.put id k }

/-- The predicate of a LAUNCH.W whose wait ends (R157): it is written at once, or after the restore where the task is off its core. -/
def Task.launchQ (t : Task) (q : Nat) : Task :=
  if t.stat = .offcore then { t with fix := t.fix ++ [(.q q, 1)] } else t.writeDest (.q q) 1

/-- The predicate of a LAUNCH.W of main that was posted while its task's handler runs: it replays with the results of main (R228,
log 8). -/
def Task.launchKept (t : Task) (l : LaunchReq) (q : Nat) : Task :=
  { t with kept := .none, shadow := t.shadow ++ [⟨.q q, .ready 1, 1, l.pos, l.pc, true⟩] }

/-- The reply of a launch: plain LAUNCH's result takes it; LAUNCH.W writes its Q register and its wait ends (R155,
R157). -/
def State.replyLaunch (s : State) (l : LaunchReq) (posted : Bool) : State :=
  s.onTask l.core l.slot l.kernel fun t => match t.wait, t.kept with
    | .launch i q, _ => if i = l.id then (t.launchQ q).endWait else t
    | _, .sleep (.launch i q) => if i = l.id then t.launchKept l q else t
    | _, _ => { t with
        inflight := fillPend l.id (.ready (imgB posted)) t.inflight
        shadow := fillPend l.id (.ready (imgB posted)) t.shadow
        hshadow := fillPend l.id (.ready (imgB posted)) t.hshadow }

/-- A refused record: its cause is late (R155, R221). -/
def State.refuseLaunch (s : State) (l : LaunchReq) (cause : Nat) : State :=
  s.onTask l.core l.slot l.kernel fun t => match t.wait, t.kept with
    | .launch i _, _ => if i = l.id then t.endWait.lateNow l.pos l.pc cause 0 else t
    | _, .sleep (.launch i _) =>
      if i = l.id then { t with kept := .none, shadow := t.shadow ++ [⟨.none, .late cause 0, 1, l.pos, l.pc, false⟩] } else t
    | _, _ => { t with
        inflight := fillPend l.id (.late cause 0) t.inflight
        shadow := fillPend l.id (.late cause 0) t.shadow
        hshadow := fillPend l.id (.late cause 0) t.hshadow }

/-- Posts the record of a launch: plain LAUNCH's result takes the reply, which is on its way; LAUNCH.W's task waits for it. -/
def State.postLaunch (s : State) (l : LaunchReq) : State :=
  let s := s.postKernel l.ctx l.rec_ none
  if l.park then { s with launches := s.launches ++ [{ l with posted := true, at_ := s.cycle.toNat + replyPath }] }
  else s.replyLaunch l true

/-- Gives a freed entry of a level to the oldest parked record that may take it (R157). -/
def State.unparkOne (s : State) (level : Nat) : State :=
  match s.parked.find? fun p => p.level + 1 == level && (s.ctxAt p.ctx).stat == .active && s.poolFree p.ctx level with
  | some p => { s with parked := s.parked.filter fun x => x.id ≠ p.id }.postLaunch p
  | none => s

/-- Gives free entries of a level to parked records, n of them at most. -/
def State.unpark (s : State) (level : Nat) : Nat → State
  | 0 => s
  | n + 1 => (s.unparkOne level).unpark level n

/-- Gives free entries of every level to parked records. -/
def State.unparkAll (s : State) : State := [1, 2, 3].foldl (fun s n => s.unpark n 256) s

/-- Whether a launch is due: its reply, or its admission, where its context is ACTIVE (R83, R165); that of a LAUNCH.W whose bundle
trapped waits while its task's handler is off the core (log 8). -/
def State.launchDue (s : State) (l : LaunchReq) : Bool :=
  let away (o : OffTask) : Bool := match o.task.kept with
    | .sleep (.launch i _) => i == l.id
    | _ => false
  l.at_ ≤ s.cycle.toNat && (l.posted || (s.ctxAt l.ctx).stat == .active) && !s.offs.any away

/-- LAUNCH_RECORD_ARRIVAL (R152, R155, R157, R158, R165): the oldest record whose stage 1 is over and whose context is ACTIVE is
checked, and posted, refused as FULL, or parked; or the reply of a posted LAUNCH.W arrives. -/
def execLaunchRecordArrival (s : State) : Out :=
  match s.launches.find? s.launchDue with
  | none => .next s
  | some l =>
    let s := { s with launches := s.launches.filter fun x => x.id ≠ l.id }
    if l.posted then .next (s.replyLaunch l true)
    else match checkRec s.part (s.ctxAt l.ctx) l.rec_ l.addr.toNat (l.level + 1) with
    | some c => .next (s.refuseLaunch l c)
    | none =>
      if s.poolFree l.ctx (l.level + 1) && !s.hasParked l.ctx (l.level + 1) then .next (s.postLaunch l)
      else if l.park then .next { s with parked := s.parked ++ [l] }
      else .next (s.replyLaunch l false)

/-- LAUNCH and LAUNCH.W (R141, R155 to R157): the record is read once everything before it is complete, faults as a load, and goes to
the scheduler. -/
def State.launch (s : State) (a : BitVec 6) (d : BitVec 4) (w : Bool) : State :=
  let t := s.task
  if t.place.level = 3 then s.raise 0x115
  else
    let va := t.gReg a.toNat
    let (h, s) := s.newHeld (.launch va w)
    let go (s : State) : State :=
      (if w then s.setAct (.sleep (.launch h.id d.toNat)) else s.issueTo (.q d.toNat) 96 (.await h.id)).note va 160 0 false
    match s.issue { h with rel := true } with
    | (s, .xlat c tv) => s.raise c tv
    | (s, .fail c tv) => (s.issueTo .none (if w then 1 else 96) (.late c tv)).note va 160 0 false
    | (s, .hold h) => go (s.hold h)
    | (s, .done img) => go (s.sendLaunch s.iss.core s.iss.slot t va img w h)
    | (s, _) => s

/-- LAUNCH (R154, R155). -/
def execLaunch (a : BitVec 6) (d : BitVec 4) (s : State) : Out := .next (s.launch a d false)

/-- LAUNCH.W (R154, R157). -/
def execLaunchW (a : BitVec 6) (d : BitVec 4) (s : State) : Out := .next (s.launch a d true)

/-! ### Resources of a core (R159, R160, R236, R317) -/

/-- The tasks of a core with their slots. -/
def State.tasksOn (s : State) (core : Nat) : List (Nat × Task) :=
  (s.tasks.filter fun kt => kt.1 / 16 == core && kt.2.stat != .free).map fun kt => (kt.1 % 16, kt.2)

/-- The n lowest set bits of a mask, searching from bit b for k bits; none where there are fewer. -/
def lowestBits : Nat → Nat → Nat → Nat → Option Nat
  | _, _, 0, _ => some 0
  | 0, _, _, _ => none
  | k + 1, b, n + 1, m => if bit m b then (lowestBits k (b + 1) n m).map (· + 2 ^ b) else lowestBits k (b + 1) (n + 1) m

/-- What a task takes of a core: its slot, whether the slot is a shared one, its bank groups and its V units. -/
structure Claim where
  slot : Nat
  shared : Bool
  groups : Nat
  vunits : Nat
deriving DecidableEq, Repr

/-- The resources a task of a kernel would take of a core, where it has them (R88, R159, R160): the lowest-numbered
free slot, bank groups and V units. A shared slot that the quota withholds counts as not free. -/
def State.claimOn (s : State) (core ctx level tile vreg : Nat) : Option Claim :=
  let ts := (s.tasksOn core).map (·.2)
  let c := s.ctxAt ctx
  let mine := ts.filter fun t => t.place.ctx == ctx
  let sum (f : Task → Nat) (l : List Task) : Nat := (l.map f).foldl (· + ·) 0
  let tileOf (t : Task) : Nat := geomTile t.place.geom
  let vregOf (t : Task) : Nat := geomVreg t.place.geom
  let shared := (ts.filter fun t => t.place.shared).length < 8
    && (mine.filter fun t => t.place.shared).length < c.tasks
  let reserved := (ts.filter fun t => !t.place.shared && t.place.level == level).length < 2
  let usedG := ts.foldl (fun m t => m ||| t.place.groups) 0
  let usedV := ts.foldl (fun m t => m ||| t.place.vunits) 0
  if c.tile < sum tileOf mine + tile || c.vreg < sum vregOf mine + vreg then none
  else
    match (upFrom 0 16).find? fun i => !((s.tasksOn core).any fun x => x.1 == i),
        lowestBits 8 0 tile (0xFF - usedG % 256), lowestBits 16 0 vreg (0xFFFF - usedV % 65536) with
    | some slot, some g, some v =>
      if shared then some ⟨slot, true, g, v⟩ else if reserved then some ⟨slot, false, g, v⟩ else none
    | _, _, _ => none

/-- Whether a core and a quota have room for the slot, the tile store and the V registers of a task that has a place (R88, R159):
others are the core's tasks. -/
def State.roomFor (s : State) (others : List Task) (p : Place) : Bool :=
  let c := s.ctxAt p.ctx
  let mine := others.filter fun t => t.place.ctx == p.ctx
  let sum (f : Task → Nat) (l : List Task) : Nat := (l.map f).foldl (· + ·) 0
  sum (fun t => geomTile t.place.geom) mine + geomTile p.geom ≤ c.tile
    && sum (fun t => geomVreg t.place.geom) mine + geomVreg p.geom ≤ c.vreg
    && if p.shared then (others.filter fun t => t.place.shared).length < 8 && (mine.filter fun t => t.place.shared).length < c.tasks
      else (others.filter fun t => !t.place.shared && t.place.level == p.level).length < 2

/-- Whether every entry of a shadow buffer holds its value (R229). -/
def shadowFull (ps : List Pend) : Bool := !ps.any fun e => match e.val with | .await _ => true | _ => false

/-- Whether a task off its core can be resumed now (R157, R159, R229, R236): its context is ACTIVE, its slot, bank groups and V
units are free and no quota withholds them, every shadow entry holds its value, and it waits for no record to be posted. -/
def State.canResume (s : State) (o : OffTask) : Bool :=
  let p := o.task.place
  o.task.stat == .offcore && (s.ctxAt p.ctx).stat == .active
    && (s.tasksOn o.core).all (fun x => x.1 != o.slot && x.2.place.groups &&& p.groups == 0 && x.2.place.vunits &&& p.vunits == 0)
    && s.roomFor ((s.tasksOn o.core).map (·.2)) p
    && shadowFull o.task.shadow && shadowFull o.task.hshadow && o.task.unsaved.isEmpty
    && match o.task.wait with | .launch _ _ => false | _ => true

/-- Whether every core of a kernel's rectangle has what its task needs, and no task off the core comes first (R160,
R236). -/
def State.placeable (s : State) (k : Kernel) : Bool :=
  let g := LaunchRec.geom k.rec_
  (geomCores g).all fun c => (s.claimOn c k.ctx k.level (geomTile g) (geomVreg g)).isSome
    && !s.offs.any fun o => o.core == c && s.canResume o

/-- Whether two rectangles overlap. -/
def overlapRect (a b : Word) : Bool :=
  geomX a < geomX b + geomW b && geomX b < geomX a + geomW a && geomY a < geomY b + geomH b && geomY b < geomY a + geomH a

/-- The first kernel of a level's list that can be placed, behind the ones that block: those passed over 64 times (R161, R165). -/
def State.firstPlaceable (s : State) : List (Nat × Kernel) → List Word → Option Nat
  | [], _ => none
  | (id, k) :: rest, blocks =>
    let g := LaunchRec.geom k.rec_
    if !blocks.any (overlapRect g) && k.at_ ≤ s.cycle.toNat && s.placeable k then some id
    else s.firstPlaceable rest (if 64 ≤ k.passed then g :: blocks else blocks)

/-- The posted kernels of a level whose contexts are ACTIVE, in posting order. -/
def State.waitingAt (s : State) (level : Nat) : List (Nat × Kernel) :=
  s.kernels.filter fun k => k.2.stat == .posted && k.2.level == level && (s.ctxAt k.2.ctx).stat == .active

/-- The kernel the launch scheduler places next (R161): deepest level first. -/
def State.nextKernel (s : State) : Option Nat :=
  [3, 2, 1, 0].findSome? fun n => s.firstPlaceable (s.waitingAt n) []

/-- A new task (R153): its G registers, its accumulators as TZERO leaves them, its level, its place. -/
def newTask (ctx kernel core : Nat) (r : LaunchRec) (c : Claim) : Task :=
  let g := LaunchRec.geom r
  { Task.empty with
    place := ⟨ctx, kernel, g.f 63 62, geomRank g core, g, c.groups, c.vunits, 64 * geomVreg g, c.shared⟩
    stat := .ready
    pc := r.word 0
    regs := { Regs.zero with g := (Tab.setMany 0 ([] : Tab Word) 1 ((upFrom 4 15).map r.word)) }
    tile := { TileRegs.zero with ze := (upFrom 0 32).map fun n => (n, zeEmpty) } }

/-- KERNEL_PLACEMENT (R160, R161, R163): the kernel the scheduler takes next is placed on all its cores at once; each
earlier kernel of its level that waits is passed over once; its pool entry frees. -/
def execKernelPlacement (k : Nat) (s : State) : Out :=
  if s.nextKernel ≠ some k then .next s
  else match s.kernels.get? k with
  | none => .next s
  | some kn =>
    let g := LaunchRec.geom kn.rec_
    let ks := s.kernels.map fun x =>
      if x.1 = k then (x.1, { x.2 with stat := KStat.placed })
      else if x.1 < k ∧ x.2.stat = .posted ∧ x.2.level = kn.level ∧ (s.ctxAt x.2.ctx).stat = .active then
        (x.1, { x.2 with passed := x.2.passed + 1 })
      else x
    let s' := (geomCores g).foldl (fun st c => match s.claimOn c kn.ctx kn.level (geomTile g) (geomVreg g) with
      | some cl => st.setTaskAt c cl.slot (newTask kn.ctx k c kn.rec_ cl)
      | none => st) { s with kernels := ks }
    .next (s'.unpark kn.level 256)

/-! ### The end of a task and of a kernel (R142, R163, R164, R169, R189) -/

/-- The DONE add of a kernel (R164), by the core whose task ended last: a full side log delays it, and holds no task. -/
def State.doneAdd (s : State) (core slot kernel ctx : Nat) (va : Word) : State :=
  let (id, s) := s.freshId
  let h := s.withParts { Held.new id (.core core slot kernel) ctx (.doneAdd va) 0 0 with rel := true }
  match s.serve h with
  | (s, .hold h) => s.hold h
  | (s, _) => s

/-- Returns the barriers of a kernel to IDLE with GEN 0 (R189). -/
def State.freeBars (s : State) (k : Nat) : State :=
  { s with cores := s.cores.map fun cx =>
      (cx.1, { cx.2 with bars := cx.2.bars.filter fun nb => nb.2.stat == .idle || nb.2.owner != k }) }

/-- A task of a kernel has ended: after the last, the kernel retires (R163, R164). -/
def State.taskEnded (s : State) (core slot k : Nat) : State :=
  match s.kernels.get? k with
  | none => s
  | some kn =>
    if 1 < kn.left then { s with kernels := s.kernels.put k { kn with left := kn.left - 1 } }
    else
      let done := LaunchRec.word kn.rec_ 2
      let s := (if done = 0 then s else s.doneAdd core slot k kn.ctx done).freeBars k
      { s with kernels := if kn.node.isSome then s.kernels.put k { kn with left := 0, stat := .retired } else s.kernels.del k }

/-- Whether an access of a unit is not complete (R142): one held, side-logged, at the host interface, or without its acknowledgement; or
a report of one is still to come. -/
def State.unitBusy (s : State) (u : UnitId) : Bool :=
  s.held.any (fun h => h.unit == u) || (s.sideOf u).any (fun e => e.unit == u) || s.unacked u || s.barq.any (fun a => a.unit == u)
    || s.repWait.any fun x => x.1 == u

/-- TASK_END_COMPLETE (R142, R169, R262): a task that is ENDING, with no result in flight, no entry left and every access, also of its copies, complete,
frees its slot; a failed copy that it awaits is delivered at its END bundle. -/
def execTaskEndComplete (core slot : Nat) (s : State) : Out :=
  let t := s.taskAt core slot
  let k := t.place.kernel
  let c := s.coreAt core
  if t.stat ≠ .ending then .next s
  else
    let mine := c.deps.filter fun ed => ed.2.of slot k
    let bad := mine.findSome? fun ed => match ed.2.stat with | .failed c tv => some (ed.1, c, tv) | _ => none
    match bad with
    | some (e, c, tv) =>
      let s := s.retire core e
      let t := s.taskAt core slot
      .next (s.setTaskAt core slot { t with stat := .ready, woke := true, events := t.events ++ [⟨c, tv⟩] })
    | none =>
      if !mine.isEmpty || !t.inflight.isEmpty || s.unitBusy (.core core slot k) || t.strays.any (fun x => !s.unitQuiet (.copy core x.1 x.2))
        || c.rawSt.any (fun w => w.slot == slot && w.kernel == k)
      then .next s
      else .next (({ s with tasks := s.tasks.del (taskKey core slot) }).taskEnded core slot k)

end Sys2Proof.Machine
end

