-- ==== Sys2Proof/Machine/Barrier.lean ====
section
/-! DEFINITION. Barriers (R167, R189 to R199). -/

namespace Sys2Proof.Machine

/-! ### Operands and entries -/

/-- The core number of a rectangle's or a group's origin and its extent from a 15-bit selector (R167). -/
def selW (g : Nat) : Nat := 2 ^ bits g 5 3
def selH (g : Nat) : Nat := 2 ^ bits g 2 0

/-- Whether a selector is valid for a task of a kernel with geometry word k (R167). -/
def selectorOk (g : Nat) (k : Word) : Bool :=
  let x := bits g 14 10
  let y := bits g 9 6
  bits g 5 3 ≤ 5 && bits g 2 0 ≤ 4 && x % selW g == 0 && y % selH g == 0
    && geomX k ≤ x && x + selW g ≤ geomX k + geomW k && geomY k ≤ y && y + selH g ≤ geomY k + geomH k

/-- A barrier entry. -/
def State.barAt (s : State) (home n : Nat) : Barrier := (s.coreAt home).bars.get .zero n

/-- Replaces a barrier entry. -/
def State.setBarAt (s : State) (home n : Nat) (b : Barrier) : State :=
  let c := s.coreAt home
  s.setCoreAt home { c with bars := c.bars.put n b }

/-- Whether a task of kernel k that names group g may use an entry (R192, order 2). -/
def Barrier.usable (b : Barrier) (k g : Nat) : Bool := b.stat != .idle && b.owner == k && b.group == g

/-- A task whose phase is over (R195): its wait ends, and the acquire at GRP scope ends its hoisted loads (R135). -/
def Task.passBar (t : Task) : Task := { t.endWait with hoist := [] }

/-- Wakes the tasks that sleep on a phase of a barrier that is over (R193, R195). -/
def State.wakeBar (s : State) (home n gen : Nat) : State :=
  { s with tasks := s.tasks.map fun kt => match kt.2.wait with
      | .barrier h m g => if h = home ∧ m = n ∧ g < 2 ^ 16 ∧ g ≠ gen ∧ kt.2.stat = .sleeping then (kt.1, kt.2.passBar) else kt
      | _ => kt }

/-! ### Instructions (R191 to R195) -/

/-- A cause that a barrier instruction meets at its entry: precise where the entry is the core's own, late where it is away (R192,
R221). -/
def State.barFail (s : State) (home cause lam : Nat) (tv : Word) : State :=
  if home = s.iss.core then s.raise cause tv else s.issueTo .none lam (.late cause tv)

/-- BARINIT (R192 to R194): it completes in the clk it issues; two of one entry in a clk take effect one after the other (log 64). -/
def execBarinit (a b : BitVec 6) (n : BitVec 9) (s : State) : Out :=
  let t := s.task
  let g := (t.gReg a.toNat).f 14 0
  let p := t.gReg b.toNat
  let home := groupHome g
  let e := s.barAt home n.toNat
  if !selectorOk g t.place.geom then .next (s.raise 0x116)
  else if e.stat ≠ .idle ∧ (e.owner ≠ t.place.kernel ∨ e.stat = .waiting) then .next (s.barFail home 0x124 1 (barTval n.toNat g))
  else if p.f 13 0 = 0 ∨ 16 * (selW g * selH g) < p.f 13 0 then .next (s.raise 0x126 (barTval n.toNat g))
  else
    let gen := (e.gen + 1) % 2 ^ 16
    .next ((s.setBarAt home n.toNat
      ⟨.armed, t.place.kernel, gen, p.f 13 0, 0, g, p.f 23 16, 0, [], s.cycle.toNat, some s.cycle.toNat⟩).wakeBar home n.toNat gen)

/-- An arrival on its way to the entry (R195). -/
def State.arrive (s : State) (home n g : Nat) (id : Option Nat) (wait : Bool) (seq : Nat) : State :=
  { s with arrivals := s.arrivals ++ [⟨home, n, s.iss.core, s.iss.slot, s.task.place.kernel, g, id, wait, seq, none⟩] }

/-- BARARR (R195): the entry is checked, then the arrival leaves; the phase comes back after 48 clk. -/
def execBararr (a d : BitVec 6) (n : BitVec 9) (s : State) : Out :=
  let t := s.task
  let g := (t.gReg a.toNat).f 14 0
  let home := groupHome g
  if !selectorOk g t.place.geom then .next (s.raise 0x116)
  else if !(s.barAt home n.toNat).usable t.place.kernel g then .next (s.barFail home 0x125 48 (barTval n.toNat g))
  else
    let (id, s) := s.freshId
    .next ((s.issueTo (if d = 0 then .none else .g d.toNat) 48 (.await id)).arrive home n.toNat g (some id) false id)

/-- BARWAIT (R195, R197). -/
def execBarwait (a b : BitVec 6) (n : BitVec 9) (s : State) : Out :=
  let t := s.task
  let g := (t.gReg a.toNat).f 14 0
  let home := groupHome g
  let e := s.barAt home n.toNat
  let gen := (t.gReg b.toNat).f 15 0
  if !selectorOk g t.place.geom then .next (s.raise 0x116)
  else if !e.usable t.place.kernel g then .next (s.barFail home 0x125 1 (barTval n.toNat g))
  else if e.stat = .broken then .next (s.eventHere ⟨0x123, barTval n.toNat g⟩)
  else if e.gen ≠ gen then .next s
  else .next (s.setAct (.sleep (.barrier home n.toNat gen)))

/-- BARWAIT.A (R195): the phase of its arrival is not known before the arrival; 2^16 stands for it until then. -/
def execBarwaitA (a : BitVec 6) (n : BitVec 9) (s : State) : Out :=
  let t := s.task
  let g := (t.gReg a.toNat).f 14 0
  let home := groupHome g
  if !selectorOk g t.place.geom then .next (s.raise 0x116)
  else if !(s.barAt home n.toNat).usable t.place.kernel g then .next (s.barFail home 0x125 1 (barTval n.toNat g))
  else
    let (id, s) := s.freshId
    .next ((s.arrive home n.toNat g none true id).setAct (.sleep (.barrier home n.toNat (2 ^ 16))))

/-- The number of a barrier's state in its status word (R195). -/
def BarStat.num : BarStat → Nat
  | .idle => 0
  | .armed => 1
  | .waiting => 2
  | .released => 3
  | .broken => 4

/-- The status word (R195). -/
def Barrier.status (b : Barrier) : Word :=
  BitVec.ofNat 64 (b.stat.num * 2 ^ 61 + b.reason * 2 ^ 59 + b.arrived % 2 ^ 14 * 2 ^ 45 + b.count * 2 ^ 31
    + b.group * 2 ^ 16 + b.gen)

/-- BARQ (R195). -/
def execBarq (a d : BitVec 6) (n : BitVec 9) (s : State) : Out :=
  let t := s.task
  let g := (t.gReg a.toNat).f 14 0
  let e := s.barAt (groupHome g) n.toNat
  if !selectorOk g t.place.geom then .next (s.raise 0x116)
  else if !e.usable t.place.kernel g then .next (s.barFail (groupHome g) 0x125 48 (barTval n.toNat g))
  else .next (s.issueTo (if d = 0 then .none else .g d.toNat) 48 (.ready (imgW e.status)))

/-! ### The entry (R193, R196) -/

/-- What an arrival's outcome makes of a BARWAIT.A that its task has still to sleep in, after a handler (log 8). -/
def Task.keptWait (t : Task) (w : Wait) (f : Task → Task) : Task :=
  let r := f { t with wait := w, stat := .ready }
  { t with kept := if r.wait = .none then .none else .sleep r.wait, events := r.events
           shadow := t.shadow ++ r.inflight.drop t.inflight.length }

/-- Updates the task that sleeps in BARWAIT.A for an arrival, in its slot or off its core. -/
def State.updArriver (s : State) (a : Arrival) (g : Task → Task) : State :=
  let w := Wait.barrier a.home a.n (2 ^ 16)
  s.onTask a.core a.slot a.kernel fun t =>
    if t.wait = w then g t else if t.kept = .sleep w then t.keptWait w g else t

/-- A task that waits at a broken barrier takes 0x123 at its bundle (R197): at once where it sleeps, else once it goes on. -/
def Task.brokenAt (t : Task) (r : Report) : Task :=
  if t.stat = .sleeping then t.wakeWith r
  else { t with wait := .none, woke := !t.inTrap, events := t.events ++ [r] }

/-- Whether an arrival may leave its core: everything its task issued before it is complete (R111, R147, R195). -/
def State.arrivalFree (s : State) (a : Arrival) : Bool := (s.older (.core a.core a.slot a.kernel) a.seq).clear

/-- The arrivals that may leave their cores reach their entries (R193). -/
def State.arrivalsReach (s : State) : State :=
  { s with arrivals := s.arrivals.map fun a =>
      if a.reached = none ∧ s.arrivalFree a = true then { a with reached := some s.cycle.toNat } else a }

/-- The arrival that its entry takes next (R193): an entry takes one event in a clk; of arrivals that have reached it, the earliest
first, and of those the lowest issuing core's. -/
def State.nextArrival (s : State) : Option Arrival :=
  let open_ (a : Arrival) : Bool := a.reached.isSome && (s.barAt a.home a.n).busy != some s.cycle.toNat
  let le (a b : Arrival) : Bool := a.reached.getD 0 < b.reached.getD 0 || (a.reached == b.reached && a.core ≤ b.core)
  (s.arrivals.filter open_).foldl (fun best a => match best with
    | some b => if le b a then some b else some a
    | none => some a) none

/-- BARRIER_ARRIVAL (R193, R195, R197): the next arrival reaches its entry: refused with 0x125, lost with 0x123 on a BROKEN entry,
counted, or releasing the phase. -/
def execBarrierArrival (s : State) : Out :=
  let s := s.arrivalsReach
  match s.nextArrival with
  | none => .next s
  | some a =>
    let s := { s with arrivals := s.arrivals.erase a }
    let e := s.barAt a.home a.n
    let tv := barTval a.n a.group
    let now := s.cycle.toNat
    let reply (v : RVal) (s : State) : State := match a.id with
      | some id => s.onTask a.core a.slot a.kernel fun t => { t with
          inflight := fillPend id v t.inflight, shadow := fillPend id v t.shadow, hshadow := fillPend id v t.hshadow }
      | none => s
    if !e.usable a.kernel a.group then
      .next ((reply (.late 0x125 tv) s).updArriver a fun t => t.endWait.lateNow 0 t.waitPc 0x125 tv)
    else if e.stat = .broken then
      .next ((reply (.late 0x123 tv) (s.setBarAt a.home a.n { e with busy := some now })).updArriver a fun t => t.brokenAt ⟨0x123, tv⟩)
    else
      let s := reply (.ready (imgW (BitVec.ofNat 64 e.gen))) s
      let s := s.updArriver a fun t => { t with wait := .barrier a.home a.n e.gen }
      if e.arrived + 1 = e.count then
        let gen := (e.gen + 1) % 2 ^ 16
        .next ((s.setBarAt a.home a.n { e with
          stat := .released, gen := gen, arrived := 0, members := [], since := now, busy := some now }).wakeBar a.home a.n gen)
      else
        let key := taskKey a.core a.slot
        .next (s.setBarAt a.home a.n { e with
          stat := .waiting, arrived := e.arrived + 1, busy := some now
          members := if e.members.contains key then e.members else e.members ++ [key] })

/-- How long a task has been off its core, or held, in the current phase of a barrier. -/
def Task.awayFor (t : Task) (since now : Nat) : Nat := match t.offAt with
  | some a => now - Nat.max a since
  | none => 0

/-- Whether a member that has not arrived breaks a barrier for a reason (R196): 1 at once where its context is bound for
ERROR by it (the trap itself breaks the barrier), 2 off its core, 3 frozen by a held access. -/
def State.breaks (s : State) (home n reason : Nat) : Bool :=
  let b := s.barAt home n
  let due (core slot : Nat) (t : Task) : Bool :=
    t.place.kernel == b.owner && inGroup b.group core && !b.members.contains (taskKey core slot)
      && (s.ctxAt t.place.ctx).stat == .active && b.bound != 0 && t.offAt.isSome
      && b.bound * 1400 ≤ t.awayFor b.since s.cycle.toNat
  b.stat == .waiting && match reason with
    | 2 => s.offs.any (fun o => due o.core o.slot o.task)
        || s.tasks.any (fun kt => kt.2.stat == .offcore && due (kt.1 / 16) (kt.1 % 16) kt.2)
    | 3 => s.tasks.any fun kt => kt.2.stat != .offcore && due (kt.1 / 16) (kt.1 % 16) kt.2
    | _ => false

/-- BARRIER_BREAK (R196): the barrier breaks where a member has been away for BOUND µs. -/
def execBarrierBreak (home n : Nat) (reason : BitVec 2) (s : State) : Out :=
  .next (if s.breaks home n reason.toNat && (s.barAt home n).busy != some s.cycle.toNat then s.breakBar home n reason.toNat else s)

/-- What a task that waited at a barrier when it left finds when it resumes (R195): a broken barrier is 0x123, a phase that
is over ends the wait. -/
def State.recheckBar (s : State) (t : Task) : Task :=
  match t.wait with
  | .barrier h n g =>
    let b := s.barAt h n
    if g = 2 ^ 16 then t
    else if b.stat = .broken then t.brokenAt ⟨0x123, barTval n b.group⟩
    else if b.gen ≠ g then t.passBar
    else t
  | _ => t

/-- Whether an entry has taken its event of this clk (R193). -/
def State.barBusy (s : State) (home n : Nat) : Bool := (s.barAt home n).busy == some s.cycle.toNat

/-- The breaks with REASON 1 (R193, R196): an entry that has taken an event in this clk breaks in the next. -/
def State.errBreaks (s : State) : State :=
  let bars (e : Nat × Nat × Nat) (s : State) : List (Nat × Nat) := s.barsOf (taskKey e.1 e.2.1) e.2.2
  let s' := s.barErrs.foldl (fun s e => (bars e s).foldl (fun s hn =>
    if s.barBusy hn.1 hn.2 then s else s.breakBar hn.1 hn.2 1) s) s
  { s' with barErrs := s.barErrs.filter fun e => !(bars e s').isEmpty }

/-- The end of a clk at the barriers (R193): after the BARINITs of the clk, the arrivals that have reached their entries, then the
breaks; k arrivals at most. -/
def State.barsClk : Nat → State → State
  | 0, s =>
    let s := s.errBreaks
    s.cores.foldl (fun s cx => (cx.2.bars.filter fun nb => nb.2.stat == .waiting && nb.2.bound != 0).foldl (fun s nb =>
      [2, 3].foldl (fun s r => if s.breaks cx.1 nb.1 r && !s.barBusy cx.1 nb.1 then s.breakBar cx.1 nb.1 r else s) s) s) s
  | k + 1, s => match execBarrierArrival s with
    | .next s' => State.barsClk k s'
    | _ => State.barsClk k s

end Sys2Proof.Machine
end

