-- ==== Sys2Proof/Machine/Home.lean ====
section
/-! DEFINITION. What the home controllers do for accesses that wait: retries, the replay of side logs, flushes, aborts,
invalidations, and the page instructions PGDISC and PGPREF (R98, R103 to R120, R176). -/

namespace Sys2Proof.Machine

/-! ### Accesses of engine units -/

/-- What becomes of an engine unit's access: bytes, each with whether it is poisoned; a cause; or it waits. -/
inductive URes where
  | ok (bs : List (Byte × Bool))
  | err (cause : Nat) (tval : Word)
  | wait
deriving DecidableEq, Repr

/-- The same with the access as it stands where it waits. -/
inductive UServed where
  | done (bs : List (Byte × Bool))
  | fail (cause : Nat) (tval : Word)
  | hold (h : Held)
deriving DecidableEq, Repr

/-- The access held for a reason, at an IA. -/
def Held.wait_ (h : Held) (why : HoldWhy) (ia : Nat) : UServed := .hold { h with why := why, ia := ia }

/-- A read of n bytes by an engine unit: poison travels with the bytes (R451), the reader decides what it is to it. -/
def State.unitRead (s : State) (h : Held) (va : Word) (n : Nat) : State × UServed :=
  let ls := s.looksOf h va n .read 0
  let bad (b : ByteLook) : Bool := match b.look with
    | .poison _ => true
    | .mem l _ => s.mem.bad l
    | .remote _ _ _ => h.taint.contains b.off
    | _ => false
  let plain := ls.map fun b => match b.look with
    | .poison k => { b with look := .zeros k }
    | _ => b
  let at_ (o : Nat) : Word := va + BitVec.ofNat 64 o
  let behind := (s.older h.unit h.id).blocksAny false ls
  match { s with mem := { s.mem with poison := [] } }.readLooks plain h.got h.bad false with
  | .xlat c o => (s, .fail c (memTval c 0 (at_ o)))
  | .fault o => (s.recordFaults h.ctx h.unit ls va .read true 0 n, h.wait_ .flush (iaAt ls o))
  | r => if behind then (s, h.wait_ .side (iaAt ls 0)) else match r with
    | .ok bs => (s, .done ((bs.zip ls).map fun x => (x.1, bad x.2)))
    | .err c o st => (s, .fail c (memTval c st (at_ o)))
    | .wait o => (s, h.wait_ .migration (iaAt ls o))
    | .remote miss => (s.sendReads h va ls miss, h.wait_ .reply (iaAt ls 0))
    | _ => (s, h.wait_ .side (iaAt ls 0))

/-- Serves a request of an engine unit: a read, or an atomic. -/
def State.unitServe (s : State) (h : Held) : State × UServed :=
  match h.req with
  | .raw va n => s.unitRead h va n
  | _ => match s.serve h with
    | (s, .done img) => (s, .done ((toBytes 16 img.toNat).map fun b => (b, false)))
    | (s, .bytes bs) => (s, .done (bs.map fun b => (b, false)))
    | (s, .xlat c tv) | (s, .fail c tv) => (s, .fail c tv)
    | (s, .hold h) => (s, .hold h)

/-- An access of an engine unit: `hold` names the access where it waits already; the answer is taken where it has come.
Gives what `hold` is after it. -/
def State.unitAccess (s : State) (u : UnitId) (ctx : Nat) (req : MemReq) (hold : Option Nat) : State × Option Nat × URes :=
  match hold with
  | some id => match s.answers.get? id with
    | some (.data bs) => ({ s with answers := s.answers.del id }, none, .ok bs)
    | some (.err c tv) => ({ s with answers := s.answers.del id }, none, .err c tv)
    | none => (s, hold, .wait)
  | none =>
    let (id, s) := s.freshId
    match s.unitServe (s.withParts (Held.new id u ctx req 0 0)) with
    | (s, .done bs) => (s, none, .ok bs)
    | (s, .fail c tv) => (s, none, .err c tv)
    | (s, .hold h) => (s.hold h, some id, .wait)

/-! ### Retries and answers -/

/-- Takes an access out of the list. -/
def State.unhold (s : State) (id : Nat) : State := { s with held := s.held.filter fun x => x.id ≠ id }

/-- Ends a held access with a cause. -/
def State.failHeld (s : State) (h : Held) (cause : Nat) (tv : Word) : State :=
  match h.req, h.unit with
  | .doneAdd _, _ => (s.unhold h.id).ctxError h.ctx cause
  | _, .core _ _ _ | _, .retr _ _ => s.answer h (.fail cause tv)
  | _, .copy core e seq =>
    let s := s.unhold h.id
    match (s.coreAt core).deps.get? e with
    | some d =>
      if d.seq ≠ seq ∨ d.hold ≠ some h.id then s
      else if cause = 0x08A then s.failCopy core e cause tv else s.stopCopy core e { d with hold := none } cause tv
    | none => s
  | _, _ => { s.unhold h.id with answers := s.answers.put h.id (.err cause tv) }

/-- Whether a copy's held read would only wait again: for its order or a migration. -/
def State.copyWaits (s : State) (h : Held) : Bool :=
  match h.req with
  | .raw va n =>
    let ls := s.looksOf h va n .read 0
    h.why != .flush && h.why != .reply && ((s.older h.unit h.id).blocksAny false ls
      || ls.any fun b => match b.look with | .wait _ => true | _ => false)
  | _ => false

/-- Tries a held access of any unit again (R106, R109, R111). -/
def State.retry (s : State) (h : Held) : State :=
  match h.unit with
  | .core _ _ _ | .retr _ _ => s.retryHeld h
  | .copy _ _ _ => if s.copyWaits h then s else s.releaseCopy h
  | _ => match s.unitServe h with
    | (s, .done bs) => { s.unhold h.id with answers := s.answers.put h.id (.data bs) }
    | (s, .fail c tv) => s.failHeld h c tv
    | (s, .hold h) => { s with held := s.held.map fun x => if x.id = h.id then h else x }

/-- A reply from another module for the bytes of a held access from an offset on (R129, R145, R176): its bytes, ill those of them that
are poisoned (R451), or why they are refused; after the last reply the access goes on. -/
def State.replyHeld (s : State) (id off : Nat) (data : List Byte) (ill : List Nat) (cause pstate : Nat) : State :=
  match s.held.find? fun h => h.id == id with
  | none => s
  | some h =>
    let h : Held := if cause ≠ 0 then { h with bad := h.bad ++ [(off, cause, pstate)] }
      else { h with got := ((upFrom off data.length).zip data).foldl (fun g x => g.put x.1 x.2) h.got
                    taint := h.taint ++ ill.map (off + ·) }
    let s := { s with held := s.held.map fun x => if x.id = id then h else x }
    if h.why != .reply || s.e2eSrc.any (fun p => (p.2.unacked ++ p.2.waiting).any fun x => x.held == some id) then s else s.retry h

/-- The bytes of a request that another module must send. -/
def MemReq.size : MemReq → Nat
  | .load _ n _ | .ldh _ _ n _ _ | .raw _ n | .atomic _ _ n _ => n
  | .gather _ _ lanes => 8 * lanes.length
  | .drain lanes => 32 * lanes.length
  | .remop _ _ => 128
  | .waite _ | .doneAdd _ => 8
  | .fetch _ => 16
  | .launch _ _ => 160
  | .reply n => n
  | .store _ bs _ _ => bs.length
  | .disc _ _ => 0
  | .noise lanes _ => 2 * lanes.length

/-- MEMORY_REPLY_ARRIVAL (R176): the reply an access waits for reaches its unit, with its bytes or with a cause; it answers the
oldest packet the access has sent. -/
def execMemoryReplyArrival (id : Nat) (data : List Byte) (cause : BitVec 9) (pstate : BitVec 3) (s : State) : Out :=
  .next (match s.held.find? fun h => h.id == id && h.why == .reply with
  | some h =>
    let mine (x : Unacked) : Bool := x.held == some id
    let sent := (s.sentBy h.unit).find? mine
    let drop (l : List Unacked) : List Unacked := match sent with | some u => l.erase u | none => l
    let s := { s with e2eSrc := s.e2eSrc.map fun (p : Nat × E2ESrc) => (p.1, { p.2 with unacked := drop p.2.unacked, waiting := drop p.2.waiting }) }
    s.replyHeld id ((sent.map fun x => x.off).getD 0) (data.take h.req.size) [] cause.toNat pstate.toNat
  | none => s)

/-! ### Side logs (R110 to R112) -/

/-- Reports an access error of a unit's write to the task it belongs to (R108): a copy stops, or fails where its access is aborted; a
unit without a task keeps the report for the step that issued the write. -/
def State.reportUnit (s : State) (u : UnitId) (r : Report) : State :=
  match u with
  | .core c slot k => s.reportTask c slot k r
  | .retr rr t => s.reportTo (1024 + rr) t [r]
  | .copy c e seq => match (s.coreAt c).deps.get? e with
    | some d => if d.seq = seq then
        if r.cause = 0x08A then s.failCopy c e r.cause r.tval else s.stopCopy c e d r.cause r.tval
      else s
    | none => s
  | .ring n => s.recAcked n false
  | _ => { s with unitErrs := s.unitErrs ++ [(u, r)] }

/-- Takes an entry out of a side log. -/
def State.dropSide (s : State) (key idx : Nat) : State :=
  let c := s.coreAt key
  s.setCoreAt key { c with side := c.side.filter fun e => e.idx ≠ idx }

/-- An access error of a side-logged write: the DONE add's puts its context in ERROR (R164); any other is reported. -/
def State.failSide (s : State) (key : Nat) (e : SideEnt) (cause : Nat) (tv : Word) : State :=
  let s := s.dropSide key e.idx
  if e.add then s.ctxError e.ctx cause else if e.disc ≠ 0 then s else s.reportUnit e.unit ⟨cause, tv⟩

/-- The bytes of a side-log entry with what becomes of each now. -/
def State.sideLooks (s : State) (e : SideEnt) : List ByteLook :=
  let acc := if e.add then Acc.atomic else .write
  (upFrom 0 e.bytes.length).map fun i => ⟨i, s.lookAt e.unit e.module (e.ia + i) acc, e.module, e.ia + i⟩

/-- Performs a side-log entry that nothing stops: it leaves the log for memory, a device register or another module. -/
def State.performSide (s : State) (key : Nat) (e : SideEnt) (ls : List ByteLook) : State :=
  let s := s.dropSide key e.idx
  let b := ls.headD ⟨0, .wait 0, 0, 0⟩
  match b.look with
  | .remote m ia kind =>
    s.sendTo ⟨e.unit, e.ctx, e.va, e.seq, kind, none, 0, e.add, b.own s.part.module⟩ m
      (if e.add then .atomic 0 [1] else if e.bad.isEmpty then .write else .poisoned e.bad) ia e.bytes.length (if e.add then [] else e.bytes)
  | .dev o => s.toBar e.unit e.seq o e.bytes
  | _ =>
    let locs := ls.filterMap fun b => b.look.loc?
    if e.add then s.atomicDone (s.mem.atomic 0 locs [1]).2 s.part.module e.unit.pkt (ls.map ByteLook.ia)
    else { s with mem := (s.mem.wrAll (locs.zip e.bytes)).taint ((locs.zip (upFrom 0 locs.length)).map fun (x : Loc × Nat) => (x.1, e.bad.contains x.2)) }.kick s s.part.module e.unit.pkt (ls.map ByteLook.ia)

/-- Replays one entry of a side log (R112): it is performed and frees; or faults again with a new record, waits, or fails. What must
wait for an older access stays (R111, R128, R132); an entry that a fault put there then waits for its order alone. A discard goes
with the migration it waits for (R119). -/
def State.replayEnt (s : State) (key : Nat) (e : SideEnt) : State :=
  let ls := s.sideLooks e
  let s := s.demote e.unit e.ctx ls
  let o := s.older e.unit e.seq
  let behind := ls.any (o.blocks e.rel)
  let err (b : ByteLook) : Option (Nat × Word) := match b.look with
    | .err c st => some (c, memTval c st (e.va + BitVec.ofNat 64 b.off))
    | .poison _ => some (0x151, memTval 0x151 6 (e.va + BitVec.ofNat 64 b.off))
    | .xlat _ => some (0x083, memTval 0x083 0 (e.va + BitVec.ofNat 64 b.off))
    | .mem l _ => if e.add && s.mem.bad l then some (0x150, 0) else none
    | _ => none
  let flt (b : ByteLook) : Bool := match b.look with
    | .fault _ _ _ | .comp _ _ _ _ | .zeros _ => true
    | _ => false
  let mark (q : Bool) : State :=
    let c := s.coreAt key
    s.setCoreAt key { c with side := c.side.map fun x => if x.idx = e.idx then { x with quiet := q } else x }
  if e.disc ≠ 0 then
    match s.walk e.ia with
    | .leaf l _ => if l.f 61 59 = stMigrating then s else s.dropSide key e.idx
    | _ => s.dropSide key e.idx
  else if ls.any flt then
    if behind && e.quiet then s
    else (mark false).recordFaults e.ctx e.unit (ls.map fun b => match b.look with
      | .zeros k => { b with look := .fault 0x084 3 k }
      | _ => b) e.va (if e.add then Acc.atomic else .write) false e.idx e.bytes.length
  else if behind then (if e.quiet then s else mark true)
  else match ls.findSome? err with
  | some (c, tv) => s.failSide key e c tv
  | none => if ls.any fun b => match b.look with | .wait _ => true | _ => false then mark true else s.performSide key e ls

/-! ### What waits, in the order it was issued -/

/-- Something that waits: a held access by its number, or an entry of a side log. -/
inductive Waiting where
  | held (id : Nat)
  | side (key idx seq : Nat)
deriving DecidableEq, Repr

/-- The held accesses and the side-log entries that meet a condition, in the order they were issued (R112, R123). -/
def State.waiting (s : State) (p : Held → Bool) (q : SideEnt → Bool) : List Waiting :=
  let hs : Tab Waiting := (s.held.filter p).foldl (fun t h => t.put (1024 * h.id) (.held h.id)) []
  let es := s.cores.flatMap fun cx => (cx.2.side.filter q).map fun e => (cx.1, e)
  (es.foldl (fun t x => t.put (1024 * x.2.seq + 1 + x.2.idx) (.side x.1 x.2.idx x.2.seq)) hs).map (·.2)

/-- Tries again what waits. -/
def State.goesOn (s : State) : Waiting → State
  | .held id => match s.held.find? fun h => h.id == id with
    | some h => s.retry h
    | none => s
  | .side key idx seq => match (s.coreAt key).side.find? fun e => e.idx == idx && e.seq == seq with
    | some e => s.replayEnt key e
    | none => s

/-- Drops the FENCEs before which every access is complete (R132). -/
def State.endFences (s : State) : State :=
  if s.cores.all fun cx => cx.2.fences.isEmpty then s
  else { s with cores := s.cores.map fun cx => (cx.1, { cx.2 with fences := cx.2.fences.filter fun f => !(s.older f.1 f.2).clear }) }

/-- Writes the fault records whose ring page was on its way (R89, R106). -/
def State.writeAllRecs (s : State) : State :=
  s.ctxs.foldl (fun s nc => if nc.2.recs.isEmpty then s else s.writeRecs nc.1 nc.2.recs.length) s

/-- Gives the reports that waited for a lower part of their access, once none may still fail (R86). -/
def State.sayReports (s : State) : State :=
  if s.repWait.isEmpty then s
  else
    let due := s.repWait.filter fun x => !s.partOut x.1 x.2.1
    due.foldl (fun s x => s.reportUnit x.1 x.2.2) { s with repWait := s.repWait.filter fun x => s.partOut x.1 x.2.1 }

/-- What waited for order or for a migration goes on where it can, in the order it was issued; FENCEs end (R106, R111, R123,
R147). -/
def State.settle (s : State) : State :=
  ((s.waiting (fun h => h.why == .side || h.why == .migration) (·.quiet)).foldl State.goesOn s).endFences.writeAllRecs.sayReports

/-- ACCESS_AT_HOME_CONTROLLER (R106): a held access, named 2 * id, or the side log of a unit, 2 * key + 1, reaches its home
controller again; what a serviceable fault holds is not retried without a flush (R114). -/
def execAccessAtHomeController (id : Nat) (s : State) : Out :=
  if id % 2 = 1 then
    .next (((s.coreAt (id / 2)).side.filter (·.quiet)).foldl (fun s e => s.goesOn (.side (id / 2) e.idx e.seq)) s).endFences
  else .next ((s.held.filter fun h => h.id == id / 2 && (h.why == .side || h.why == .migration)).foldl
    (fun s h => s.goesOn (.held h.id)) s)

/-! ### Invalidations, flushes and aborts (R103, R114, R115) -/

/-- The effect of a flush of context n, its PTINVs complete (R112, R114): what faults hold and what its side logs hold is tried again
in the order it was issued. -/
def State.doFlush (s : State) (n : Nat) : State :=
  let c := s.ctxAt n
  let s := s.setCtxAt n { c with gen := (c.gen + 1) % 256 }
  ((s.waiting (fun h => h.ctx == n && h.why == .flush) (fun e => e.ctx == n)).foldl State.goesOn s).settle

/-- FGEN_FLUSH (R114): it waits for every PTINV written before it. -/
def execFgenFlush (n : BitVec 4) (s : State) : Out := s.command (
  let c := s.ctxAt n.toNat
  if s.page.ptinv.isEmpty then .next (s.doFlush n.toNat)
  else .next (s.setCtxAt n.toNat { c with flushAfter := c.flushAfter ++ [s.page.ptinv.length] }))

/-- PTINV (R103): 16 writes can wait; another is dropped and sets LOST. -/
def execPtinv (v : Word) (s : State) : Out := s.command (
  if 16 ≤ s.page.ptinv.length then .next { s with page := { s.page with lost := true } }
  else .next { s with page := { s.page with ptinv := s.page.ptinv ++ [v] } })

/-- The range of a PTINV or PGABORT: its first IA and the one past its last; empty where LOG2SIZE is not usable (R102). An IABASE that
is not aligned to the size names the range it lies in (R102 does not say, log 69). -/
def invRange (v : Word) : Nat × Nat :=
  let l := v.f 11 6
  if 12 ≤ l ∧ l ≤ 52 then
    let b := v.f 51 12 * 4096 / 2 ^ l * 2 ^ l
    (b, b + 2 ^ l)
  else (0, 0)

/-- The range a PTINV invalidates: everything where ALL is 1. -/
def ptinvRange (v : Word) : Nat × Nat := if v.b 0 then (0, 2 ^ 52) else invRange v

/-- The flushes of context n that wait for one PTINV less; those that waited for no other follow (R114). -/
def State.afterPtinv (s : State) (n : Nat) : State :=
  let c := s.ctxAt n
  if c.flushAfter.isEmpty then s
  else
    let due := (c.flushAfter.filter (· ≤ 1)).length
    (upFrom 0 due).foldl (fun s _ => s.doFlush n)
      (s.setCtxAt n { c with flushAfter := (c.flushAfter.filter (1 < ·)).map (· - 1) })

/-- PTINV_COMPLETE (R103): the oldest invalidation completes once no access that a BORROWED leaf of its range forwarded is
outstanding: the cached translations of the range are dropped; flushes that waited for it follow, and accesses that waited on a leaf
are tried again. -/
def execPtinvComplete (s : State) : Out :=
  match s.page.ptinv with
  | [] => .next s
  | v :: rest =>
    let (lo, hi) := ptinvRange v
    let out (x : Unacked) : Bool := match x.own with | some ia => lo < ia + Nat.max 1 x.pkt.len && ia < hi | none => false
    if s.e2eSrc.any fun p => (p.2.unacked ++ p.2.waiting).any out then .next s
    else
      let s := { s with page := { s.page with ptinv := rest } }.uncache lo hi
      .next ((upFrom 0 16).foldl State.afterPtinv s).settle

/-- The offset of the first byte of a held access that lies in a range of this module. -/
def State.heldIn (s : State) (h : Held) (lo hi : Nat) : Option Nat :=
  match h.parts.find? fun p => p.1 < 256 && p.2.1 == s.part.module && p.2.2.1 < hi && lo < p.2.2.1 + p.2.2.2 with
  | some p => some (p.1 + (lo - p.2.2.1))
  | none => if lo ≤ h.ia ∧ h.ia < hi ∧ h.why = .flush then some 0 else none

/-- PGABORT (R115): ends every held access of a context, and discards every side-logged one, with a byte in an IA range, with cause
0x08A. -/
def execPgabort (v : Word) (s : State) : Out := s.command (
  let n := v.f 63 60
  let (lo, hi) := invRange v
  let hs := s.held.filterMap fun h => if h.ctx = n ∧ h.why ≠ .reply ∧ h.why ≠ .poll then (s.heldIn h lo hi).map fun o => (h, o) else none
  let s := hs.foldl (fun s x =>
    let tv := memTval 0x08A 0 (x.1.req.addr x.2)
    if x.1.req.isWrite then (s.answer x.1 (.done 0)).reportUnit x.1.unit ⟨0x08A, tv⟩ else s.failHeld x.1 0x08A tv) s
  let es := s.cores.flatMap fun cx => (cx.2.side.filter fun e => e.ctx == n && e.module == s.part.module && e.ia < hi
    && lo < e.ia + e.len).map fun e => (cx.1, e)
  .next (es.foldl (fun s x => s.failSide x.1 x.2 0x08A (memTval 0x08A 0 (x.2.va + BitVec.ofNat 64 (lo - x.2.ia)))) s).settle)

/-! ### PGDISC and PGPREF (R118 to R120) -/

/-- PGDISC (R118, R119): the range is checked before any effect; the discard then takes its place among the task's accesses as a store
of zeros to the pages that lie wholly in it. -/
def execPgdisc (a b : Src) (s : State) : Out :=
  let t := s.task
  let base := (t.srcG a).toNat
  let len := (t.srcG b).toNat
  let s := s.touch [a, b]
  if len = 0 then .next s
  else if 2 ^ 57 < base + len then .next (s.raise 0x080 (memTval 0x080 0 (BitVec.ofNat 64 (if base < 2 ^ 57 then 2 ^ 57 else base))))
  else
    let ps := s.pieces t.place.ctx base (base + len) permW
    match ps.findSome? fun p => match p.2.2 with | .error c => some (c, p.1) | .ok _ => none with
    | some (c, va) => .next (s.raise c (memTval c 0 (BitVec.ofNat 64 va)))
    | none =>
      let parts := (joinPieces ps).map fun r => (r.1 - base, r.2.1, r.2.2.1, r.2.2.2)
      let pages := parts.flatMap fun r =>
        if r.2.1 = s.part.module then (s.pagesIn r.2.2.1 r.2.2.2).map fun p => (base + r.1 + (p.base - r.2.2.1), leafSize p.leaf)
        else [(base + r.1, r.2.2.2)]
      let (h, s) := s.newHeld (.disc (BitVec.ofNat 64 base) len)
      let s := match s.serve { h with parts := parts } with
        | (s, .hold h) => s.hold h
        | (s, _) => s
      .next (pages.foldl (fun s p => s.note (BitVec.ofNat 64 p.1) p.2 0 true) s)

/-- Loads the translations of the pages of [ia, hi) of this module, and records those that would fault (R120), by 4 KiB where nothing
is mapped: w: no record, or those of reads or writes. -/
def State.prefRange (s : State) (ctx : Nat) (va ia0 hi : Nat) (w : Option Bool) : Nat → Nat → State
  | 0, _ => s
  | k + 1, ia =>
    if hi ≤ ia then s
    else if ia < 0x10000000 then s.prefRange ctx va ia0 hi w k (Nat.max (ia + 4096) (Nat.min hi 0x10000000))
    else
      let rec_ (s : State) (c st : Nat) : State := match w with
        | none => s
        | some write => s.record ctx
          ⟨s.unit, c, st, if write then .write else .read, false, true, 0, BitVec.ofNat 64 (va + (ia - ia0)), s.part.module, ia, 256⟩
      match s.walk ia with
      | .leaf e _ =>
        let next := ia / leafSize e * leafSize e + leafSize e
        let s := if (s.cachedAt ia).isNone then s.cacheLeaf ia else s
        let s := match e.f 61 59 with
          | 2 => rec_ s 0x085 2
          | 3 => if w = some true then rec_ s 0x084 3 else s
          | 4 => rec_ s 0x086 4
          | _ => s
        s.prefRange ctx va ia0 hi w k next
      | .unmapped => (rec_ s 0x082 7).prefRange ctx va ia0 hi w k (ia / 4096 * 4096 + 4096)
      | .malformed => s.prefRange ctx va ia0 hi w k (ia / 4096 * 4096 + 4096)

/-- The range of a PGPREF: its first 16 GiB at most, below 2^57. -/
def State.prefWalk (s : State) (a b : Src) (w : Option Bool) : State :=
  let t := s.task
  let base := (t.srcG a).toNat
  let hi := Nat.min (2 ^ 57) (base + Nat.min (t.srcG b).toNat (2 ^ 34))
  (joinPieces (s.pieces t.place.ctx base hi 0)).foldl (fun s r =>
    let (va, m, ia, n) := r
    if m = s.part.module ∧ ia < 0xFFFF000000000 then s.prefRange t.place.ctx va ia (ia + n) w (n / 4096 + 2) ia else s) s

/-- PGPREF (R120): the translations of the range's pages are loaded; a translation already cached stays (R94, log 10). -/
def execPgpref (a b : Src) (s : State) : Out := .next ((s.touch [a, b]).prefWalk a b none)
/-- PGPREF.REC (R120). -/
def execPgprefRec (a b : Src) (s : State) : Out := .next ((s.touch [a, b]).prefWalk a b (some false))
/-- PGPREF.RECW (R120). -/
def execPgprefRecw (a b : Src) (s : State) : Out := .next ((s.touch [a, b]).prefWalk a b (some true))

end Sys2Proof.Machine
end

