-- ==== Sys2Proof/Machine/Bundle.lean ====
section
/-! DEFINITION. Bundles: fetch, decoding, the illegal-bundle checks (R46 to R65, R108, R386). -/

namespace Sys2Proof.Machine

/-! ### What an instruction writes, reads and counts as -/

/-- A write of G register n: none of G0 (R55). -/
def gN (n : Nat) : List (Nat × Nat) := if n = 0 then [] else [(0, n)]
/-- A write of Q register n: none of Q0 (R55). -/
def qN (n : Nat) : List (Nat × Nat) := if n = 0 then [] else [(1, n)]
/-- The write of a G destination. -/
def gW (d : Dst) : List (Nat × Nat) := if d.s then [] else gN d.reg.toNat
/-- The write of a Q destination. -/
def qW (d : Dst) : List (Nat × Nat) := if d.s then [] else qN d.reg.toNat
/-- The write of a K destination. -/
def kW (d : Dst) : List (Nat × Nat) := if d.s then [] else [(3, d.reg.toNat)]
/-- The write of a V destination, after window rotation. -/
def vW (vm : Nat → Nat) (d : Dst) : List (Nat × Nat) := if d.s then [] else [(2, vm d.reg.toNat)]

/-- The write of a tile register's descriptor, bytes or census. -/
def tW (n : BitVec 6) : List (Nat × Nat) := [(6, n.toNat)]

/-- The registers an instruction writes as R61 and R62 count them: (file, number), the files G 0, Q 1, V 2, K 3, P 4,
CSR 5, T with C 6; the other files have writers in slot 3 only. -/
def writesOf (vm : Nat → Nat) : Instr → List (Nat × Nat)
  | .add _ d _ _ => gW d
  | .addi d _ _ => gW d
  | .sub _ d _ _ => gW d
  | .sadd _ d _ _ => gW d
  | .ssub _ d _ _ => gW d
  | .mul _ d _ _ => gW d
  | .mulh _ d _ _ => gW d
  | .mulhu _ d _ _ => gW d
  | .div _ d _ _ => gW d
  | .divu _ d _ _ => gW d
  | .rem _ d _ _ => gW d
  | .remu _ d _ _ => gW d
  | .and d _ _ => gW d
  | .andi d _ _ => gW d
  | .or d _ _ => gW d
  | .ori d _ _ => gW d
  | .xor d _ _ => gW d
  | .xori d _ _ => gW d
  | .shl _ d _ _ => gW d
  | .shli d _ _ => gW d
  | .shr _ d _ _ => gW d
  | .shri d _ _ => gW d
  | .sra _ d _ _ => gW d
  | .srai d _ _ => gW d
  | .min _ d _ _ => gW d
  | .max _ d _ _ => gW d
  | .minu _ d _ _ => gW d
  | .maxu _ d _ _ => gW d
  | .clz _ d _ => gW d
  | .cls _ d _ => gW d
  | .popc _ d _ => gW d
  | .sext _ _ d _ => gW d
  | .lui _ d _ _ => gW d
  | .cmp _ d _ _ => qW d
  | .cmpi _ d _ _ => qW d
  | .qop _ d _ _ => qW d
  | .qmovQFromG d _ => qW d
  | .qmovGFromQ d _ => gW d
  | .qmovAllg d => gW d
  | .qmovAllq s _ => if s then [] else (upFrom 1 15).map fun n => (1, n)
  | .sel d _ _ _ => gW d
  | .call _ => [(0, 63)]
  | .callt _ _ _ => [(0, 63)]
  | .csrr d _ => gN d.toNat
  | .csrw _ c => [(5, c.toNat)]
  | .launch _ d => qN d.toNat
  | .launchW _ d => qN d.toNat
  | .bararr _ d _ => gN d.toNat
  | .barq _ d _ => gN d.toNat
  | .ldb d _ _ _ => gN d.toNat
  | .lds d _ _ _ => gN d.toNat
  | .ldw d _ _ _ => gN d.toNat
  | .ldd d _ _ _ => gN d.toNat
  | .ldAcq d _ _ _ _ _ => gN d.toNat
  | .ldh d _ _ _ _ _ => gN d.toNat
  | .chkh d _ _ _ _ _ => gN d.toNat
  | .aadd d _ _ _ _ _ => gN d.toNat
  | .asadd d _ _ _ _ _ => gN d.toNat
  | .amin d _ _ _ _ _ => gN d.toNat
  | .amax d _ _ _ _ _ => gN d.toNat
  | .aand d _ _ _ _ _ => gN d.toNat
  | .aor d _ _ _ _ _ => gN d.toNat
  | .axchg d _ _ _ _ _ => gN d.toNat
  | .acas d _ _ _ _ _ => gN d.toNat
  | .acas2 d _ _ _ _ => gN d.toNat ++ gN (d.toNat + 1)
  | .remop d _ _ _ _ => gN d.toNat
  | .pkget d _ => gW d
  | .vadd _ d _ _ => vW vm d
  | .vsub _ d _ _ => vW vm d
  | .vsadd _ d _ _ => vW vm d
  | .vssub _ d _ _ => vW vm d
  | .vmul _ d _ _ => vW vm d
  | .vmulh _ d _ _ => vW vm d
  | .vmulhQ _ d _ _ => vW vm d
  | .vmac _ d _ _ => vW vm d
  | .vmin _ d _ _ => vW vm d
  | .vmax _ d _ _ => vW vm d
  | .vabs _ d _ => vW vm d
  | .vneg _ d _ => vW vm d
  | .vand _ d _ _ => vW vm d
  | .vor _ d _ _ => vW vm d
  | .vxor _ d _ _ => vW vm d
  | .vshl _ d _ _ => vW vm d
  | .vshlS _ d _ _ => vW vm d
  | .vshr _ d _ _ => vW vm d
  | .vsra _ d _ _ => vW vm d
  | .vnshr _ _ d _ _ => vW vm d
  | .vcmp _ _ d _ _ => vW vm d
  | .vsel _ d _ _ => vW vm d
  | .vkopAnd d _ _ => kW d
  | .vkopOr d _ _ => kW d
  | .vkopXor d _ _ => kW d
  | .vkopAndn d _ _ => kW d
  | .vkopFromv d _ => kW d
  | .vkopTov d _ => vW vm d
  | .vkopFromg d _ => kW d
  | .vkopTog d _ => gW d
  | .vkopPopc d _ => gW d
  | .vcvt _ _ d _ _ => vW vm d
  | .vwiden _ _ _ d _ => vW vm d
  | .vpack _ d _ _ => vW vm d
  | .vunpk _ _ d _ _ => vW vm d
  | .vshuf _ d _ _ => vW vm d
  | .vpld d _ => if d.s then [] else [(4, d.reg.toNat)]
  | .vpsw d => if d.s then [] else [(4, d.reg.toNat)]
  | .vpswAll s => if s then [] else (upFrom 0 64).map fun n => (4, n)
  | .vreds _ d _ => vW vm d
  | .vredsSq _ d _ => vW vm d
  | .vredmMax _ d _ => vW vm d
  | .vredmMin _ d _ => vW vm d
  | .vredmAmax _ d _ => vW vm d
  | .vscan _ d _ => vW vm d
  | .vscanEx _ d _ => vW vm d
  | .vbcast _ d _ => vW vm d
  | .vbcastV _ d _ _ => vW vm d
  | .vextr _ d _ _ => gW d
  | .vmovi _ d _ => vW vm d
  | .vld d _ _ _ => [(2, vm d.toNat)]
  | .vgath _ _ d _ _ => vW vm d
  | .vtld d _ _ => [(2, vm d.toNat)]
  | .vldr d _ => vW vm d
  | .vdefer _ _ _ _ _ => [(5, 0x045)]
  | .vdrain c _ d k => (5, 0x045) :: (3, k.toNat) :: if d.s then [] else (upFrom d.reg.toNat (c.toNat + 1)).map fun n => (2, vm n)
  | .vcls _ d _ => vW vm d
  | .vclsMin _ d _ => vW vm d
  | .vrnds _ d _ _ => vW vm d
  | .vrndsNar _ _ d _ _ => vW vm d
  | .vexp2 d _ _ => vW vm d
  | .vexp2Q d _ _ => vW vm d
  | .vlog2 d _ _ => vW vm d
  | .vrcp d _ => vW vm d
  | .vrsq d _ => vW vm d
  | .vdivq d _ _ => vW vm d
  | .voptmL d _ _ => vW vm d
  | .voptvL d _ _ => vW vm d
  | .voptsL d _ _ => vW vm d
  | .tcens _ x _ => gN x.toNat
  | .voptm sup d _ _ => if sup then [] else tW d
  | .voptv sup d _ _ => if sup then [] else tW d
  | .vopts sup d _ _ => if sup then [] else tW d
  | .tdset x _ => tW x
  | .tconj x _ _ => tW x
  | .tdrain x _ => tW x
  | .tdrainZ x _ => tW x
  | .tresc x _ _ => tW x
  | .trescZ x _ _ => tW x
  | .txps x _ z => tW x ++ gN z.toNat ++ gN (z.toNat + 1)
  | .tld x _ z => tW x ++ gN z.toNat ++ gN (z.toNat + 1)
  | .tst _ _ z => gN z.toNat ++ gN (z.toNat + 1)
  | .tstx _ _ z => gN z.toNat ++ gN (z.toNat + 1)
  | .tcpyMm _ _ z => gN z.toNat ++ gN (z.toNat + 1)
  | .tcpyTm _ _ z => gN z.toNat ++ gN (z.toNat + 1)
  | .tcpyMt _ _ z => gN z.toNat ++ gN (z.toNat + 1)
  | .tcpyTt _ _ z => gN z.toNat ++ gN (z.toNat + 1)
  | .tcpyd x _ z => tW x ++ gN z.toNat ++ gN (z.toNat + 1)
  | .tmskld _ _ z => gN z.toNat ++ gN (z.toNat + 1)
  | .noise x _ => gN x.toNat
  | .collOpen d _ => gN d.toNat
  | .collRun d _ => gN d.toNat
  | .collShrink d _ => gN d.toNat
  | .collJoin d _ => gN d.toNat
  | .collCatch d _ => gN d.toNat
  | .collClose d _ => gN d.toNat
  | _ => []

/-- The sources of an instruction that may select a latch (R54). -/
def srcsOf : Instr → List Src
  | .add _ _ a b => [a, b]
  | .addi _ a _ => [a]
  | .sub _ _ a b => [a, b]
  | .sadd _ _ a b => [a, b]
  | .ssub _ _ a b => [a, b]
  | .mul _ _ a b => [a, b]
  | .mulh _ _ a b => [a, b]
  | .mulhu _ _ a b => [a, b]
  | .div _ _ a b => [a, b]
  | .divu _ _ a b => [a, b]
  | .rem _ _ a b => [a, b]
  | .remu _ _ a b => [a, b]
  | .and _ a b => [a, b]
  | .andi _ a _ => [a]
  | .or _ a b => [a, b]
  | .ori _ a _ => [a]
  | .xor _ a b => [a, b]
  | .xori _ a _ => [a]
  | .shl _ _ a b => [a, b]
  | .shli _ a _ => [a]
  | .shr _ _ a b => [a, b]
  | .shri _ a _ => [a]
  | .sra _ _ a b => [a, b]
  | .srai _ a _ => [a]
  | .min _ _ a b => [a, b]
  | .max _ _ a b => [a, b]
  | .minu _ _ a b => [a, b]
  | .maxu _ _ a b => [a, b]
  | .clz _ _ a => [a]
  | .cls _ _ a => [a]
  | .popc _ _ a => [a]
  | .sext _ _ _ a => [a]
  | .lui _ _ a _ => [a]
  | .cmp _ _ a b => [a, b]
  | .cmpi _ _ a _ => [a]
  | .qop _ _ a b => [a, b]
  | .qmovQFromG _ a => [a]
  | .qmovGFromQ _ a => [a]
  | .qmovAllq _ a => [a]
  | .sel _ a b _ => [a, b]
  | .pgdisc a b => [a, b]
  | .pgpref a b => [a, b]
  | .pgprefRec a b => [a, b]
  | .pgprefRecw a b => [a, b]
  | .pkget _ a => [a]
  | .pkreply a b => [a, b]
  | .pkfwd a b => [a, b]
  | .pkdone a b => [a, b]
  | .vadd _ _ a b => [a, b]
  | .vsub _ _ a b => [a, b]
  | .vsadd _ _ a b => [a, b]
  | .vssub _ _ a b => [a, b]
  | .vmul _ _ a b => [a, b]
  | .vmulh _ _ a b => [a, b]
  | .vmulhQ _ _ a b => [a, b]
  | .vmac _ _ a b => [a, b]
  | .vmin _ _ a b => [a, b]
  | .vmax _ _ a b => [a, b]
  | .vabs _ _ a => [a]
  | .vneg _ _ a => [a]
  | .vand _ _ a b => [a, b]
  | .vor _ _ a b => [a, b]
  | .vxor _ _ a b => [a, b]
  | .vshl _ _ a b => [a, b]
  | .vshlS _ _ a b => [a, b]
  | .vshr _ _ a b => [a, b]
  | .vsra _ _ a b => [a, b]
  | .vnshr _ _ _ a b => [a, b]
  | .vcmp _ _ _ a b => [a, b]
  | .vsel _ _ a b => [a, b]
  | .vkopAnd _ a b => [a, b]
  | .vkopOr _ a b => [a, b]
  | .vkopXor _ a b => [a, b]
  | .vkopAndn _ a b => [a, b]
  | .vkopFromv _ a => [a]
  | .vkopTov _ a => [a]
  | .vkopFromg _ a => [a]
  | .vkopTog _ a => [a]
  | .vkopPopc _ a => [a]
  | .vcvt _ _ _ a b => [a, b]
  | .vwiden _ _ _ _ a => [a]
  | .vpack _ _ a b => [a, b]
  | .vunpk _ _ _ a b => [a, b]
  | .vshuf _ _ a _ => [a]
  | .vpld _ a => [a]
  | .vreds _ _ a => [a]
  | .vredsSq _ _ a => [a]
  | .vredmMax _ _ a => [a]
  | .vredmMin _ _ a => [a]
  | .vredmAmax _ _ a => [a]
  | .vscan _ _ a => [a]
  | .vscanEx _ _ a => [a]
  | .vbcast _ _ a => [a]
  | .vbcastV _ _ a b => [a, b]
  | .vextr _ _ a b => [a, b]
  | .vgath _ _ _ a b => [a, b]
  | .vscat _ _ a b => [a, b]
  | .vldr _ a => [a]
  | .vstr _ a b => [a, b]
  | .vdefer _ _ _ a b => [a, b]
  | .vcls _ _ a => [a]
  | .vclsMin _ _ a => [a]
  | .vrnds _ _ a b => [a, b]
  | .vrndsNar _ _ _ a b => [a, b]
  | .vexp2 _ a b => [a, b]
  | .vexp2Q _ a b => [a, b]
  | .vlog2 _ a b => [a, b]
  | .vrcp _ a => [a]
  | .vrsq _ a => [a]
  | .vdivq _ a b => [a, b]
  | .voptm _ _ _ b => [b]
  | .voptv _ _ _ b => [b]
  | .vopts _ _ _ b => [b]
  | .voptmL _ _ b => [b]
  | .voptvL _ _ b => [b]
  | .voptsL _ _ b => [b]
  | _ => []

/-- Memory-slot instructions (R61, R72, R74). -/
def isMemIns : Instr → Bool
  | .ldb _ _ _ _ | .lds _ _ _ _ | .ldw _ _ _ _ | .ldd _ _ _ _ | .stb _ _ _ _ | .sts _ _ _ _ | .stw _ _ _ _
  | .std _ _ _ _ | .ldAcq _ _ _ _ _ _ | .stRel _ _ _ _ _ | .ldh _ _ _ _ _ _ | .chkh _ _ _ _ _ _ | .aadd _ _ _ _ _ _
  | .asadd _ _ _ _ _ _ | .amin _ _ _ _ _ _ | .amax _ _ _ _ _ _ | .aand _ _ _ _ _ _ | .aor _ _ _ _ _ _
  | .axchg _ _ _ _ _ _ | .acas _ _ _ _ _ _ | .acas2 _ _ _ _ _ | .remop _ _ _ _ _ | .pgdisc _ _ | .pgpref _ _
  | .pgprefRec _ _ | .pgprefRecw _ _ | .pkget _ _ | .pkreply _ _ | .pkfwd _ _ | .pkdone _ _ | .vld _ _ _ _
  | .vst _ _ _ _ | .vgath _ _ _ _ _ | .vscat _ _ _ _ | .vtld _ _ _ | .vtst _ _ _ => true
  | _ => false

/-- Instructions that post a tile task (R61, R74, R75). -/
def isTileIns : Instr → Bool
  | .tmma _ _ _ | .tmmas _ _ _ | .tmmao _ _ _ | .algld _ _ | .tmmaa _ _ _ _ | .tmmaaSw _ _ _ _ | .tconj _ _ _
  | .tnorm _ _ _ | .tacc _ _ | .taccZ _ _ | .tzero _ | .tdrain _ _ | .tdrainZ _ _ | .tresc _ _ _ | .trescZ _ _ _
  | .txps _ _ _ | .tld _ _ _ | .tst _ _ _ | .tstx _ _ _ | .tcpyMm _ _ _ | .tcpyTm _ _ _ | .tcpyMt _ _ _
  | .tcpyTt _ _ _ | .tcpyd _ _ _ | .tmskld _ _ _ | .voptm _ _ _ _ | .voptv _ _ _ _ | .vopts _ _ _ _ => true
  | _ => false

/-- Branch instructions (R64). -/
def isBranchIns : Instr → Bool
  | .br _ | .brt _ _ | .brf _ _ | .call _ | .callt _ _ _ | .ret _ | .jmpt _ _ _ | .lbrk _ _ => true
  | _ => false

/-- Flow instructions (R65). -/
def isFlowIns : Instr → Bool
  | .loop _ _ | .loopi _ _ | .yield | .waitc _ | .waite _ _ _ _ | .twaitAll _ | .twait _ _ | .twaitZ _ _
  | .barwait _ _ _ | .barwaitA _ _ | .endTask | .trapi _ | .eret => true
  | i => isBranchIns i

/-! ### Decoding (R46 to R51) -/

/-- A decoded bundle: its bundle predicate where it has a header, and what each slot decodes to. -/
structure Bundle where
  hdr : Option Nat
  decs : List Dec
deriving DecidableEq, Repr

/-- The 32-bit slot words of a bundle's bytes. -/
def slotWords (bs : List Byte) : List Nat := (upFrom 0 4).map fun n => ofBytes ((bs.drop (4 * n)).take 4)

/-- Decodes a bundle (R46 to R51): a header lends its bits to slots 1 to 3. -/
def decodeBundle (retr : Bool) (bs : List Byte) : Bundle :=
  let ws := slotWords bs
  let w0 := ws.getD 0 0
  let hdr := bits w0 31 28 == 15
  let ext (n : Nat) : Nat := if hdr then bits w0 (8 * n - 1) (8 * n - 8) else 0
  let dec0 : Dec := if hdr then ⟨false, false, .nop⟩ else decodeDec retr 0 ⟨w0, false, 0⟩
  ⟨if hdr then some (bits w0 27 24) else none,
   dec0 :: (upFrom 1 3).map fun n => decodeDec retr n ⟨ws.getD n 0, hdr, ext n⟩⟩

/-- The instructions of a bundle. -/
def Bundle.instrs (b : Bundle) : List Instr := b.decs.map (·.ins)

/-- The mask of the slots that meet a condition. -/
def slotMask (l : List Bool) : Nat := ((l.zip (upFrom 0 4)).map fun x => b2n x.1 * 2 ^ x.2).foldl (· + ·) 0

/-- Whether two instructions write one register (R62); two kennel instructions may both change KENCNT (R302). -/
def writeConflict (vm : Nat → Nat) (i j : Instr) : Bool :=
  let kennel : Instr → Bool
    | .vdefer _ _ _ _ _ | .vdrain _ _ _ _ => true
    | _ => false
  (writesOf vm i).any fun w => (writesOf vm j).contains w && !(w == (5, 0x045) && kennel i && kennel j)

/-- Whether any source of a bundle selects a latch (R59). -/
def Bundle.readsLatch (b : Bundle) : Bool := b.instrs.any fun i => (srcsOf i).any (·.l)

/-- The illegal-bundle check (R60 to R63, R65): the lowest reason code with the mask of every slot that breaks a rule of
it; noFlow: the bundle is a delay bundle or the last of a loop body. -/
def Bundle.illegal (b : Bundle) (vm : Nat → Nat) (noFlow : Bool) : Option (Nat × Nat) :=
  let m0 := slotMask (b.decs.map (·.bad0))
  let m1 := slotMask (b.decs.map (·.bad1))
  let is := b.instrs.zip (upFrom 0 4)
  let m2 := slotMask (is.map fun x => is.any fun y => y.2 != x.2 && writeConflict vm x.1 y.1)
  let posts := b.instrs.map isTileIns
  let mems := b.instrs.map isMemIns
  let gs : List Nat := b.instrs.map fun i => ((writesOf vm i).filter fun w => w.1 == 0).length
  let many (l : List Bool) (n : Nat) : Nat := if n < (l.filter id).length then slotMask l else 0
  let total : Nat := gs.foldl (· + ·) 0
  let gmask : Nat := if 3 < total then slotMask (gs.map (· != 0)) else 0
  let fmask : Nat := if noFlow then slotMask (b.instrs.map isFlowIns) else 0
  let m3 : Nat := many posts 1 ||| many mems 2 ||| gmask ||| fmask
  if m0 ≠ 0 then some (0, m0) else if m1 ≠ 0 then some (1, m1) else if m2 ≠ 0 then some (2, m2)
  else if m3 ≠ 0 then some (3, m3) else none

/-! ### Fetch (R46, R86, R108, R109) -/

/-- What a fetch finds: the bytes, a precise cause, or that the bundle must wait. -/
inductive Fetched where
  | ok (bs : List Byte)
  | fail (cause : Nat) (tval : Word)
  | wait
deriving DecidableEq, Repr

/-- The unit of a task by its core and kernel, retrievers' threads at 1024 and up. -/
def unitOf (core slot kernel : Nat) : UnitId := if 1024 ≤ core then .retr (core - 1024) slot else .core core slot kernel

/-- The bytes of a task's next bundle where they can be read without waiting. -/
def State.peekFetch (s : State) (core slot : Nat) : Option (List Byte) :=
  let t := s.taskAt core slot
  let ls := s.looks (unitOf core slot t.place.kernel) t.place.ctx t.pc 16 .fetch
  let got := ((t.fetchGot.find? fun x => x.1 == t.pc).map (·.2)).getD []
  match s.readLooks ls got [] false with
  | .ok bs => some bs
  | _ => none

/-- Fetches a task's next bundle; a fetch that must wait is held (R109). -/
def State.fetch (s : State) (core slot : Nat) : State × Fetched :=
  let t := s.taskAt core slot
  match t.fetchErr.filter fun e => e.1 == t.pc with
  | some (_, c, tv) => (s, .fail c tv)
  | none =>
    let got := ((t.fetchGot.find? fun x => x.1 == t.pc).map (·.2)).getD []
    let (id, s) := s.freshId
    let h := s.withParts { Held.new id (unitOf core slot t.place.kernel) t.place.ctx (.fetch t.pc) 0 t.pc with got := got }
    match s.serveFetch h t.pc with
    | (s, .done img) => (s, .ok (toBytes 16 img.toNat))
    | (s, .xlat c tv) | (s, .fail c tv) => (s, .fail c tv)
    | (s, .hold h) => ((s.setTaskAt core slot { t with fetchHold := some id }).hold h, .wait)
    | (s, _) => (s, .wait)

end Sys2Proof.Machine
end

