-- ==== Sys2Proof/Machine/Preempt.lean ====
section
/-! DEFINITION. Taking pending traps, the watchdogs, pre-emption, the save area and resumption (R169, R174, R178, R179,
R221, R230 to R237, R261). -/

namespace Sys2Proof.Machine

/-! ### Freezes (R175 to R179) -/

/-- Whether a task stands in its slot, not off the core and not held. -/
def Task.onCore (t : Task) : Bool := t.stat != .free && t.stat != .offcore && t.stat != .held

/-- The task of a core whose late result freezes it (R176), by slot. -/
def State.lateOn (s : State) (core : Nat) : Option (Nat × Task) := (s.tasksOn core).find? fun x => x.2.onCore && x.2.late

/-- Whether a core is in a full freeze, or its issuing task's fetch is held (R109, R176); a retriever's thread stops alone
(R384). -/
def State.coreFrozen (s : State) (core : Nat) : Bool :=
  core < 1024 && ((s.lateOn core).isSome || (s.tasksOn core).any fun x => x.2.onCore && x.2.fetchHold.isSome)

/-- A power island (R447). -/
def State.island (s : State) (k : Nat) : Island := s.islands.get .zero k

/-- Whether an island's clk is gated (R447): g of every 16 clocks run. -/
def Island.still (i : Island) (cycle : Nat) : Bool := i.duty != 0 && i.duty ≤ cycle % 16

/-- The memory island of a retriever, which stands with its controller: two controllers are one island (R9, R447, log 50). -/
def Part.memIsland (p : Part) (r : Nat) : Nat := p.meshX + p.meshX / 4 + r / 2 % (p.meshX / 4)

/-- Whether a clk of the island of a core, or of a retriever, is gated. -/
def State.gatedCore (s : State) (core : Nat) : Bool :=
  (s.island (if core < 1024 then s.part.island core else s.part.memIsland (core - 1024))).still s.cycle.toNat

/-- Whether no freeze is in force on a core: no late result, no gated clk, and its last bundle, if it waits, not in an issue freeze
(R176). -/
def State.calm (s : State) (core : Nat) : Bool := !s.coreFrozen core && !s.gatedCore core && (s.coreAt core).frozen == 0

/-- The identifiers of the accesses a task's due results await. -/
def Task.lateIds (t : Task) : List Nat :=
  t.inflight.filterMap fun p => match p.val with
    | .await id => if p.left ≤ 1 then some id else none
    | _ => none

/-! ### Pending traps (R220, R221, R237) -/

/-- A trap to be taken before the next bundle: kind, late, cause, TRAPVAL, MASK and the reporting bundle, and the task
without it. -/
structure NextTrap where
  kind : Nat
  late : Bool
  rep : Report
  mask : Nat
  ipc : Word
  task : Task

/-- The part of the shadow buffer that replays at the task's next bundle: a handler's own results, else those of main (R229, R233). -/
def Task.replays (t : Task) : List Pend := if t.inTrap then t.hshadow else t.shadow

/-- The late cause of a shadow entry that is taken before the first bundle after a return or a resumption (R221). -/
def Task.shadowLate (t : Task) : Option Pend := if t.replay then t.replays.find? Pend.isLate else none

/-- The task without an entry of the part of the shadow buffer that replays. -/
def Task.dropShadow (t : Task) (p : Pend) : Task :=
  if t.inTrap then { t with hshadow := t.hshadow.erase p } else { t with shadow := t.shadow.erase p }

/-- The lowest pending event by cause; among 0x0C1 the tile registers by number, then the accumulators (R237); 0x120 waits for
the end of a delay bundle (R174). -/
def Task.nextEvent (t : Task) : Option Report :=
  (t.events.filter fun r => r.cause != 0x120 || t.delay == .no).foldl (fun best r => match best with
    | none => some r
    | some b => if r.cause < b.cause || (r.cause == 0x0C1 && b.cause == 0x0C1 && r.tval.toNat < b.tval.toNat) then some r
                else some b) none

/-- The trap a task takes before its next bundle (R221, R237): a late cause, the oldest report, the lowest event; none while the
entry of a TRAPI is due. -/
def Task.nextTrap (t : Task) : Option NextTrap :=
  let late (p : Pend) (t' : Task) : Option NextTrap := match p.val with
    | .late c tv => some ⟨0, true, ⟨c, tv⟩, 2 ^ p.slot, p.pc, t'⟩
    | _ => none
  if t.entering then none
  else match t.lateDue with
  | some p => late p { t with inflight := t.inflight.erase p }
  | none =>
    if t.returning then none
    else match t.shadowLate with
    | some p => late p (t.dropShadow p)
    | none =>
      if t.inTrap then none
      else match t.reports with
      | r :: rest => some ⟨1, false, r, 0, 0, { t with reports := rest }⟩
      | [] => match t.nextEvent with
        | some r => some ⟨2, false, r, 0, 0, { t with events := t.events.erase r }⟩
        | none => none

/-! ### Landing points (R231, R232) -/

/-- Whether a bundle address lies in the body of a loop. -/
def Loop.has (l : Loop) (pc : Word) : Bool := l.first.toNat ≤ pc.toNat && pc.toNat ≤ l.last.toNat

/-- Whether a task is at a landing point before its next bundle, freezes apart (R231); a bundle whose bytes are still to come may
select a latch, so none lands before it (R59). -/
def State.atLanding (s : State) (core slot : Nat) : Bool :=
  let t := s.taskAt core slot
  if t.stat = .sleeping ∨ t.wait ≠ .none then true
  else
    let outside := !t.loops.any fun l => l.has t.pc
    let head := match t.loops with
      | l :: _ => t.atHead && t.pc == l.first
      | [] => false
    let latch := match s.peekFetch core slot with
      | some bs => (decodeBundle false bs).readsLatch
      | none => true
    t.delay == .no && (outside || head) && !latch && (!t.inTrap || t.inflight.isEmpty)

/-- Takes a pre-emption (R228, R230, R233): the results in flight drain, a handler's apart from main's; the latches and the hoisted
loads are lost, the count of choices restarts (R171), and the save begins. -/
def State.takePre (s : State) (core slot : Nat) (inPlace : Bool) : State :=
  let (id, s) := s.freshId
  let t := s.taskAt core slot
  let t := if (t.inTrap && !t.entering) || t.returning then t.drainHandler else t.drain
  s.setTaskAt core slot { t with
    stat := if inPlace then .held else .offcore
    pre := none
    entering := false
    hoist := []
    latch := .lost
    passes := 0
    agedAt := none
    leftAt := id
    saving := true
    saveAt := 0
    fetchGot := []
    fetchErr := none
    offAt := if inPlace then t.offAt else some (t.offAt.getD s.cycle.toNat) }

/-- Whether a requested pre-emption may be taken now (R231, R237): a task that sleeps, or that was resumed in its wait, at any time;
another before its next bundle where no freeze is in force, no trap is pending, and the condition holds. -/
def State.preDue (s : State) (core slot : Nat) (calm : Bool) (ok : Task → Bool) : Option PreReq :=
  let t := s.taskAt core slot
  let asleep := t.stat == .sleeping || (t.stat == .ready && t.wait != .none)
  let turn := (t.stat == .ready || t.stat == .issuing) && calm && t.nextTrap.isNone && !t.returning && !t.entering
    && t.jumpErr.isNone && ok t
  match t.pre with
  | some p => if asleep || turn then some p else none
  | none => none

/-- Whether a pre-emption that has found no landing point is forced (R232): 2^20 clk after its request, before a bundle that is no
delay bundle. -/
def Task.forcedAt (t : Task) (now : Nat) : Bool :=
  t.delay == .no && match t.pre with | some p => decide (p.at_ + 2 ^ 20 ≤ now) | none => false

/-- A pre-emption where it is due. -/
def State.preempted (s : State) (core slot : Nat) (calm : Bool) (ok : Task → Bool) : State :=
  match s.preDue core slot calm ok with
  | some p => s.takePre core slot p.inPlace
  | none => s

/-- PREEMPTION_LANDING (R230, R231, R237). -/
def execPreemptionLanding (core slot : Nat) (s : State) : Out :=
  .next (s.preempted core slot (s.calm core) fun _ => s.atLanding core slot)

/-- PREEMPTION_FORCED (R232): a frozen task is not forced. -/
def execPreemptionForced (core slot : Nat) (s : State) : Out :=
  .next (s.preempted core slot (s.calm core) fun t => t.forcedAt s.cycle.toNat)

/-- A jump-table entry that arrived with an error is raised precisely at its JMPT or CALLT (R223, R252): the offsets of the results
in flight count from the issue of that bundle again. -/
def State.raiseJump (s : State) (core slot : Nat) (e : Word × Nat × Nat × Word) : State :=
  let t := s.taskAt core slot
  let (pc, commit, c, tv) := e
  let t := { t with jumpErr := none, delay := .no, inflight := t.inflight.map fun p => { p with left := p.left + 1 } }
  if t.inTrap || !t.hasHandler then (s.setTaskAt core slot t).fatal core slot c
  else (s.setTaskAt core slot (t.enterTrap 0 false c pc 1 commit tv 0).afterTrap).trapped core

/-- TAKE_PENDING_TRAP (R220, R221, R225, R237): a task about to issue on a core that is not frozen enters the handler its TRAPI
asked for, or takes what is pending; else a pre-emption lands, or is forced. A late cause of a handler that has returned is a
handler's (R226). -/
def execTakePendingTrap (core slot : Nat) (s : State) : Out :=
  let t := s.taskAt core slot
  if (t.stat ≠ .ready ∧ t.stat ≠ .issuing) ∨ s.coreFrozen core = true ∨ s.gatedCore core = true then .next s
  else if t.entering then .next ((s.setTaskAt core slot t.afterTrap).trapped core)
  else match t.jumpErr, t.nextTrap with
  | some e, _ => .next (s.raiseJump core slot e)
  | none, some n => .next (if t.returning then s.fatal core slot n.rep.cause
      else (s.setTaskAt core slot n.task).takeTrap core slot n.kind n.late n.rep.cause n.rep.tval n.mask n.ipc)
  | none, none => .next (s.preempted core slot true fun t => s.atLanding core slot || t.forcedAt s.cycle.toNat)

/-- PREEMPT (R234): a request to take a task off its core; a write that names no task of CTX does nothing. -/
def execPreempt (v : Word) (s : State) : Out := s.command (
  let core := v.f 16 8
  let slot := v.f 3 0
  let t := s.taskAt core slot
  if t.onCore = true ∧ t.stat ≠ .ending ∧ t.place.ctx = v.f 23 20 ∧ t.pre = none then
    .next (s.setTaskAt core slot { t with pre := some ⟨false, true, s.cycle.toNat⟩ })
  else .next s)

/-! ### The save area (R234, R235) -/

/-- KENCNT with no count above 1,024 (R186). -/
def clampKen (w : Word) : Word :=
  let cnt (q : Nat) : Nat := Nat.min 1024 (w.f (11 * q + 10) (11 * q))
  BitVec.ofNat 64 (cnt 0 + 2 ^ 11 * cnt 1 + 2 ^ 22 * cnt 2 + 2 ^ 33 * cnt 3)

/-- The bits of a per-task CSR that exist (R32, R168, R178, R186, R218). -/
def csrBits (c : Nat) : Nat :=
  match c with
  | 0x021 => 7
  | 0x028 => 0xFF
  | 0x030 => maskF 63 53 + maskF 8 0
  | 0x031 | 0x032 | 0x038 => maskF 56 4
  | 0x033 => 0xFF
  | 0x034 | 0x036 | 0x037 => maskF 63 0
  | 0x035 => maskF 63 63 + maskF 56 4
  | 0x040 => 3
  | 0x041 => maskF 56 6
  | 0x042 | 0x043 => maskF 31 0
  | 0x044 => maskF 56 17
  | 0x045 => maskF 43 0
  | _ => 0

/-- COREXY (R168). -/
def coreXY (core slot : Nat) : Word := BitVec.ofNat 64 (slot * 2 ^ 12 + core % 32 * 16 + core / 32)

/-- GRPGEOM (R168). -/
def Task.grpGeom (t : Task) : Word :=
  BitVec.ofNat 64 (t.place.geom.toNat / 2 ^ 29 * 2 ^ 29 + t.place.rank * 2 ^ 20)

/-- A per-task CSR from 0x020 to 0x05F as a CSRR or the save area finds it; 0 where none is defined. -/
def State.taskCsr (s : State) (core slot : Nat) (t : Task) (c : Nat) : Word :=
  match c with
  | 0x020 => BitVec.ofNat 64 t.place.ctx
  | 0x021 => t.csr.taskst
  | 0x022 => coreXY core slot
  | 0x023 => t.grpGeom
  | 0x028 => t.csr.frzwd
  | 0x030 => t.trap.cause
  | 0x031 => t.trap.pc
  | 0x032 => t.trap.tgt
  | 0x033 => t.trap.slots
  | 0x034 => t.trap.val
  | 0x035 => t.trap.vec
  | 0x036 => t.trap.scr0
  | 0x037 => t.trap.scr1
  | 0x038 => t.trap.ipc
  | 0x040 => t.csr.noisectl
  | 0x041 => t.csr.noisebase
  | 0x042 => t.csr.noiselen
  | 0x043 => t.csr.noisepos
  | 0x044 => t.csr.kenbase
  | 0x045 => t.csr.kencnt
  | 0x048 => (s.ctxAt t.place.ctx).satlim
  | _ => 0

/-- A loop-stack entry's image (R235). -/
def Loop.image (l : Loop) : List Byte :=
  toBytes 8 (bits l.rem 10 4 * 2 ^ 57 + l.first.f 56 4 * 16 + bits l.rem 3 0)
    ++ toBytes 8 (bits l.rem 21 15 * 2 ^ 57 + l.last.f 56 4 * 16 + bits l.rem 14 11)

/-- A loop-stack entry from its image. -/
def loopOf (bs : List Byte) : Loop :=
  let a := wordOf bs 0
  let b := wordOf bs 8
  ⟨pcBits a, pcBits b, a.f 3 0 + 16 * a.f 63 57 + 2 ^ 11 * b.f 3 0 + 2 ^ 15 * b.f 63 57⟩

/-- FILE and number of a destination in a shadow entry (R235). -/
def RDest.file : RDest → Nat × Nat × Bool
  | .g n => (0, n, false)
  | .gPair n => (0, n, true)
  | .q n => (1, n, false)
  | .v n => (2, n, false)
  | .k n => (3, n, false)
  | .csr n => (4, n, false)
  | _ => (0, 0, false)

/-- The image of a shadow entry that is not in use (R235). -/
def emptyPend : List Byte := toBytes 512 0

/-- A shadow entry's image (R235); an abandoned or awaited value leaves VALID 0. -/
def Pend.image (p : Pend) : List Byte :=
  let f := p.dest.file
  let head (valid err cause : Nat) : Nat :=
    valid * 2 ^ 63 + err * 2 ^ 62 + b2n f.2.2 * 2 ^ 61 + f.1 * 2 ^ 56 + f.2.1 * 2 ^ 44 + cause * 2 ^ 32 + p.left
  match p.val with
  | .ready x => toBytes 8 (head 1 0 0) ++ toBytes 248 0
      ++ (if f.2.2 then toBytes 8 x.toNat ++ toBytes 8 (x >>> 64).toNat ++ toBytes 240 0 else toBytes 256 x.toNat)
  | .late c _ => toBytes 8 (head 1 1 c) ++ toBytes 504 0
  | _ => toBytes 8 (head 0 0 0) ++ toBytes 504 0

/-- A shadow entry from its image; what the image does not hold (the reporting bundle, TRAPVAL) stays as it was. -/
def pendOf (p : Pend) (bs : List Byte) : Pend :=
  let h := wordOf bs 0
  let n := h.f 55 44
  let dest : RDest := match h.f 59 56 with
    | 0 => if h.b 61 then .gPair (n % 64) else .g (n % 64)
    | 1 => .q (n % 16)
    | 2 => .v n
    | 3 => .k (n % 8)
    | 4 => .csr n
    | _ => .none
  let val : RVal := if !h.b 63 then .gone
    else if h.b 62 then .late (h.f 40 32) (match p.val with | .late _ tv => tv | _ => 0)
    else .ready (BitVec.ofNat 2048 (ofBytes (bs.drop 256)))
  { p with dest := if h.b 62 || !h.b 63 then p.dest else dest, val := val, left := Nat.max 1 (h.f 31 0) }

/-- The bytes of n words of a table. -/
def tabImage (t : Tab Word) (n : Nat) : List Byte := (upFrom 0 n).flatMap fun k => toBytes 8 (t.get 0 k).toNat

/-- The bank groups of a task, ascending. -/
def Task.banks (t : Task) : List Nat := (upFrom 0 8).filter fun g => bit t.place.groups g

/-- The regions of the save image with their offsets (R235). -/
def State.saveRegions (s : State) (core slot : Nat) (t : Task) (inPlace : Bool) : List (Nat × List Byte) :=
  let c := s.coreAt core
  let tt := t.tile
  let pat (n : Nat) : Pattern := tt.p.get ⟨[], false, [], false⟩ n
  let pad (k : Nat) (bs : List Byte) : List Byte := bs ++ List.replicate (k - bs.length) 0
  let valid (f : Pattern → Bool) : Nat := ((upFrom 0 64).map fun n => b2n (f (pat n)) * 2 ^ n).foldl (· + ·) 0
  [(0x00000, (upFrom 0x020 64).flatMap fun n => toBytes 8 (s.taskCsr core slot t n).toNat),
   (0x00200, toBytes 8 t.pc.toNat ++ toBytes 1 (b2n inPlace + 2 * b2n (t.wait != .none)) ++ toBytes 1 t.loops.length ++ toBytes 6 0),
   (0x00210, pad 96 (t.loops.reverse.flatMap Loop.image)),
   (0x00280, toBytes 8 t.csr.vrot.toNat ++ toBytes 8 t.qImage),
   (0x00300, tabImage t.regs.k 8),
   (0x00400, tabImage t.regs.g 64),
   (0x01000, (upFrom 0 64).flatMap fun n => toBytes 8 (tt.t0.get 0 n).toNat ++ toBytes 8 (tt.t1.get 0 n).toNat ++ toBytes 16 0),
   (0x01800, tabImage tt.e 64),
   (0x01A00, tabImage tt.c 64),
   (0x01C00, tabImage tt.ze 32 ++ tabImage tt.zc 32),
   (0x02000, tabImage tt.d 512),
   (0x03000, (upFrom 0 4).flatMap fun n => pad 1024 (match tt.a.get? n with | some a => a.bytes | none => [])),
   (0x04000, toBytes 8 (valid (·.actOk)) ++ toBytes 8 (valid (·.loadOk))),
   (0x08000, ((t.shadow ++ t.hshadow).take 64).flatMap Pend.image
      ++ (List.replicate (64 - (t.shadow ++ t.hshadow).length) emptyPend).flatten),
   (0x10000, t.banks.flatMap fun g => c.maskMem.getMany 0 (g * 0x1000) 0x1000),
   (0x18000, if tt.p.isEmpty then [] else (upFrom 0 64).flatMap fun n => pad 256 (pat n).act ++ pad 256 (pat n).load),
   (0x20000, (upFrom 0 (4 * popcount 8 t.place.groups)).flatMap fun z =>
      (upFrom 0 1024).flatMap fun i => toBytes 4 (tt.z.get 0 (1024 * z + i)).toNat),
   (0x40000, (upFrom 0 t.place.vregs).flatMap fun i => toBytes 256 (t.vPhys i).toNat),
   (0x80000, t.banks.flatMap fun g => c.tileMem.getMany 0 (g * 0x10000) 0x10000)]

/-- Whether a task uses a region (R235): the stores of its allocation whatever they hold; the patterns where it has loaded one
(log 42). -/
def regionUsed (r : Nat × List Byte) : Bool := !r.2.isEmpty

/-- The base of a task's save area (R234). -/
def State.saveBase (s : State) (ctx core slot : Nat) : Nat :=
  (s.ctxAt ctx).savebase.f 51 33 * 2 ^ 33 + 2 ^ 20 * (16 * core + slot)

/-- A list in pieces of n. -/
def chunks (n : Nat) : Nat → List Byte → List (List Byte)
  | 0, _ => []
  | k + 1, bs => if bs.isEmpty then [] else bs.take n :: chunks n k (bs.drop n)

/-- The pieces of up to 256 bytes of an image, with their offsets. -/
def savePieces (rs : List (Nat × List Byte)) : List (Nat × List Byte) :=
  rs.flatMap fun r => let cs := chunks 256 (r.2.length / 256 + 1) r.2
    (cs.zip (upFrom 0 cs.length)).map fun x => (r.1 + 256 * x.2, x.1)

/-- Writes pieces until one fails or the side log is full: the state, how many were written, and the first cause. -/
def State.writePieces (s : State) (u : UnitId) (ctx base : Nat) : List (Nat × List Byte) → Nat → State × Nat × Option Nat
  | [], n => (s, n, none)
  | (o, bs) :: rest, n =>
    if 64 ≤ (s.sideOf u).length then (s, n, none)
    else match s.writeVA ctx u (BitVec.ofNat 64 (base + o)) bs false false with
      | (s, []) => s.writePieces u ctx base rest (n + 1)
      | (s, r :: _) => (s, n, some r.cause)

/-- The shadow entry that a saved image holds at an index: saveAt of main come first, then the handler's (R229, R235). -/
def Task.savedPend (t : Task) (i : Nat) : Option Pend := if i < t.saveAt then t.shadow[i]? else t.hshadow[i - t.saveAt]?

/-- Whether a result's value is still to come. -/
def Pend.awaits (p : Pend) : Bool := match p.val with | .await _ => true | _ => false

/-- The end of a save (R230, R236): a task saved in place stays HELD; another leaves its slot and frees its resources. -/
def State.endSave (s : State) (core slot : Nat) (used : List (Nat × Nat)) : State :=
  let t := s.taskAt core slot
  let ps := t.shadow ++ t.hshadow
  let t : Task := { t with
    saving := false, saveAt := t.shadow.length
    unsaved := ((ps.zip (upFrom 0 ps.length)).filter fun x => x.1.awaits).map (·.2) }
  if t.stat = .held then s.setTaskAt core slot t
  else { s with tasks := s.tasks.del (taskKey core slot), offs := s.offs ++ [⟨core, slot, t, used, [], none⟩] }

/-- A save or a restore of a task off its core that fails (R226): its context enters ERROR, and the barriers that wait for it break
with REASON 1 (R196). -/
def State.offFatal (s : State) (o : OffTask) : State :=
  ({ s with offs := s.offs.map fun x => if x = o then { x with task := { x.task with stat := .held } } else x }.breakFor
    o.core o.slot o.task.place.kernel).ctxError o.task.place.ctx 0x129

/-- The shadow entries of a saved task that its image lacks and whose values have arrived. -/
def Task.lateSaves (t : Task) : List Nat :=
  t.unsaved.filter fun i => match t.savedPend i with | some p => !p.awaits | none => true

/-- Writes the shadow entries of a saved task whose values have arrived since (R179, R228). -/
def State.saveLate (s : State) (o : OffTask) : State :=
  let due := o.task.lateSaves
  let base := s.saveBase o.task.place.ctx o.core o.slot
  let ps := savePieces (due.filterMap fun i => (o.task.savedPend i).map fun p => (0x8000 + 512 * i, p.image))
  let r := s.writePieces (.save o.core o.slot) o.task.place.ctx base ps 0
  let s := match r.2.2 with | some _ => r.1.offFatal o | none => r.1
  { s with offs := s.offs.map fun x => if x.core = o.core ∧ x.slot = o.slot ∧ x.task.place.kernel = o.task.place.kernel then
      { x with task := { x.task with unsaved := x.task.unsaved.filter fun i => !due.contains i } } else x }

/-- Whether an entry of a task's, or a raw write that waits, still holds its save (R182, R184). -/
def State.saveBusy (s : State) (core slot kernel : Nat) : Bool :=
  let c := s.coreAt core
  c.deps.any (fun ed => ed.2.of slot kernel && match ed.2.stat with
    | .failed _ _ => false
    | _ => true)
    || c.rawSt.any fun w => w.slot == slot && w.kernel == kernel

/-- SAVE_COMPLETE (R184, R230, R234): the save of a pre-empted task goes on once its entries have retired or failed, and
completes when every write is performed; an access error, or EN = 0, is 0x129. A saved task's late replies are added. -/
def execSaveComplete (core slot : Nat) (s : State) : Out :=
  let t := s.taskAt core slot
  let u := UnitId.save core slot
  if t.saving then
    if s.saveBusy core slot t.place.kernel then .next s
    else if !(s.ctxAt t.place.ctx).savebase.b 63 then .next (s.fatal core slot 0x129)
    else match s.unitErrs.find? fun e => e.1 == u with
    | some _ => .next ({ s with unitErrs := s.unitErrs.filter fun e => e.1 ≠ u }.fatal core slot 0x129)
    | none =>
      let rs := (s.saveRegions core slot t (t.stat == .held)).filter regionUsed
      let ps := savePieces rs
      match s.writePieces u t.place.ctx (s.saveBase t.place.ctx core slot) (ps.drop t.saveAt) t.saveAt with
      | (s, _, some _) => .next (s.fatal core slot 0x129)
      | (s, n, none) =>
        let s := s.setTaskAt core slot { t with saveAt := n }
        if n = ps.length ∧ s.unitQuiet u = true then .next (s.endSave core slot (rs.map fun r => (r.1, r.2.length)))
        else .next s
  else .next (match s.offs.find? fun o => o.core == core && o.slot == slot && !o.task.lateSaves.isEmpty with
    | some o => s.saveLate o
    | none => s)

/-! ### Resumption (R229, R233, R236) -/

/-- The bytes of the image at an offset, from the regions read; zeros for a region that was not written. -/
def imageAt (rs : List (Nat × List Byte)) (off len : Nat) : List Byte :=
  match rs.find? fun r => r.1 == off with
  | some r => r.2.take len
  | none => List.replicate len 0

/-- A table of words from its image, the bits of mask alone. -/
def tabOf (bs : List Byte) (n : Nat) (mask : Nat := 2 ^ 64 - 1) : Tab Word :=
  Tab.setMany 0 ([] : Tab Word) 0 ((upFrom 0 n).map fun k => wordOf bs (8 * k) &&& BitVec.ofNat 64 mask)

/-- The bits of a census register that exist (R24). -/
def censusMask : Nat := maskF 63 53 + maskF 47 0

/-- A restored task (R233, R235): the read-only CSRs are not taken from the image; the reserved bits of the CSRs, of the scale
and census registers (ZE's SHIFT among them, R20, R22, R24), of G0 and of Q0 read zero. DESIGN CHOICE (log 43): NOISECTL.MODE 3
of an image is restored, and draws as the free mode does. -/
def Task.restore (t : Task) (rs : List (Nat × List Byte)) : Task :=
  let at_ (o n : Nat) : List Byte := imageAt rs o n
  let csr (n : Nat) : Word := wordOf (at_ 0 512) (8 * (n - 0x020)) &&& BitVec.ofNat 64 (csrBits n)
  let pos := at_ 0x200 16
  let depth := Nat.min 6 (ofBytes ((pos.drop 9).take 1))
  let vq := at_ 0x280 16
  let words (o n : Nat) (mask : Nat := 2 ^ 64 - 1) : Tab Word := tabOf (at_ o (8 * n)) n mask
  let td := at_ 0x1000 2048
  let pv := at_ 0x4000 16
  let pb := at_ 0x18000 32768
  let sh := at_ 0x8000 32768
  let saved (ps : List Pend) (at0 n : Nat) : List Pend :=
    (((ps.take n).zip (upFrom at0 n)).map fun x => pendOf x.1 ((sh.drop (512 * x.2)).take 512)) ++ ps.drop n
  let zs := at_ 0x20000 (4096 * (4 * popcount 8 t.place.groups))
  let vs := at_ 0x40000 (256 * t.place.vregs)
  { t with
    pc := pcBits (wordOf pos 0)
    loops := ((upFrom 0 depth).map fun i => loopOf ((at_ 0x210 96).drop (16 * i))).reverse
    regs := ⟨(words 0x400 64).del 0, BitVec.ofNat 16 (ofBytes (vq.drop 8) / 2 * 2), words 0x300 8,
      Tab.setMany 0 [] 0 ((upFrom 0 t.place.vregs).map fun i => BitVec.ofNat 2048 (ofBytes ((vs.drop (256 * i)).take 256)))⟩
    trap := ⟨csr 0x030, csr 0x031, csr 0x032, csr 0x033, csr 0x034, csr 0x035, csr 0x036, csr 0x037, csr 0x038⟩
    csr := { t.csr with
      taskst := csr 0x021, frzwd := csr 0x028, noisectl := csr 0x040, noisebase := csr 0x041, noiselen := csr 0x042
      noisepos := csr 0x043, kenbase := csr 0x044
      kencnt := clampKen (csr 0x045)
      vrot := wordOf vq 0 &&& BitVec.ofNat 64 (maskF 18 16 + maskF 12 8 + maskF 4 0) }
    tile := {
      t0 := Tab.setMany 0 [] 0 ((upFrom 0 64).map fun n => wordOf td (32 * n))
      t1 := Tab.setMany 0 [] 0 ((upFrom 0 64).map fun n => wordOf td (32 * n + 8))
      e := words 0x1800 64 eMask
      c := words 0x1A00 64 censusMask
      z := Tab.setMany 0 [] 0 ((upFrom 0 (zs.length / 4)).map fun i => BitVec.ofNat 32 (ofBytes ((zs.drop (4 * i)).take 4)))
      ze := tabOf (at_ 0x1C00 512) 32 (zeMask ||| zeEmpty.toNat)
      zc := tabOf ((at_ 0x1C00 512).drop 256) 32 censusMask
      d := words 0x2000 512
      a := (upFrom 0 4).filterMap fun n =>
        let bs := ((at_ 0x3000 4096).drop (1024 * n)).take 128
        if bs.headD 0 = 0 then none else some (n, ⟨bs⟩)
      p := (upFrom 0 64).filterMap fun n =>
        let pt : Pattern := ⟨(pb.drop (512 * n)).take 256, bit (ofBytes (pv.take 8)) n, (pb.drop (512 * n + 256)).take 256,
          bit (ofBytes (pv.drop 8)) n⟩
        if pt.actOk ∨ pt.loadOk then some (n, pt) else none }
    shadow := saved t.shadow 0 t.saveAt
    hshadow := saved t.hshadow t.saveAt (Nat.min t.hshadow.length (64 - t.saveAt)) }

/-- The results of a task that goes on (R221, R225, R229): a late cause that came meanwhile joins those that replay; what a handler
that had returned left in flight is written before B. -/
def Task.regained (t : Task) : Task :=
  if t.inTrap then { t with hshadow := t.hshadow ++ t.inflight, inflight := [] }
  else { t with shadow := t.shadow ++ t.inflight, inflight := t.hshadow, hshadow := [] }

/-- A task that goes on (R171, R229, R233, R236): READY, its wait kept where it slept; the latches are lost, and the shadow buffer
replays from its next bundle. -/
def State.goOn (s : State) (core slot : Nat) (t : Task) : State :=
  let t := (t.fix.foldl (fun t x => t.writeDest x.1 x.2) t).regained
  s.setTaskAt core slot { t with
    stat := .ready, latch := .lost, hoist := [], replay := true, offAt := none, passes := 0, agedAt := none, fix := [] }

/-- Whether a HELD task can resume from its slot (R83, R157, R229). -/
def State.heldReady (s : State) (t : Task) : Bool :=
  t.stat == .held && !t.saving && (s.ctxAt t.place.ctx).stat == .active && shadowFull t.shadow && shadowFull t.hshadow
    && match t.wait with | .launch _ _ => false | _ => true

/-- Whether a slot is that of a retriever's thread that is HALTED (R390): it does not go on. -/
def State.halted (s : State) (core slot : Nat) : Bool := 1024 ≤ core && (s.rts.get .zero ((core - 1024) * 8 + slot)).stat != 1

/-- Puts the task of an off-core entry back in its slot with the bytes read (R235, R236). -/
def State.putBack (s : State) (o : OffTask) : State :=
  let rs := (o.used.foldl (fun acc r => (acc.1 ++ [(r.1, (acc.2.take r.2))], acc.2.drop r.2))
    (([] : List (Nat × List Byte)), o.buf)).1
  let t := o.task.restore rs
  let c := s.coreAt o.core
  let mask := imageAt rs 0x10000 (0x1000 * t.banks.length)
  let tile := imageAt rs 0x80000 (0x10000 * t.banks.length)
  let bs := t.banks.zip (upFrom 0 t.banks.length)
  let c := bs.foldl (fun c b => { c with
    maskMem := c.maskMem.setMany 0 (b.1 * 0x1000) ((mask.drop (b.2 * 0x1000)).take 0x1000)
    tileMem := c.tileMem.setMany 0 (b.1 * 0x10000) ((tile.drop (b.2 * 0x10000)).take 0x10000) }) c
  ({ s with offs := s.offs.erase o }.setCoreAt o.core c).goOn o.core o.slot t

/-- Reads the pieces of a saved image that are still to come. -/
def State.readPieces (s : State) (u : UnitId) (ctx base : Nat) (hold : Option Nat) :
    List (Nat × Nat) → List Byte → State × List Byte × Option Nat × Option Nat
  | [], acc => (s, acc, none, none)
  | (o, n) :: rest, acc =>
    match s.unitAccess u ctx (.raw (BitVec.ofNat 64 (base + o)) n) hold with
    | (s, _, .ok bs) =>
      if bs.any (·.2) then (s, acc, none, some 0x150) else s.readPieces u ctx base none rest (acc ++ bs.map (·.1))
    | (s, _, .err c _) => (s, acc, none, some c)
    | (s, h, .wait) => (s, acc, h, none)

/-- The pieces of up to 256 bytes of the regions a save wrote. -/
def readList (used : List (Nat × Nat)) : List (Nat × Nat) :=
  used.flatMap fun r => (upFrom 0 ((r.2 + 255) / 256)).map fun k => (r.1 + 256 * k, Nat.min 256 (r.2 - 256 * k))

/-- The pieces left after the first n bytes. -/
def dropPieces : List (Nat × Nat) → Nat → List (Nat × Nat)
  | [], _ => []
  | p :: rest, n => if p.2 ≤ n then dropPieces rest (n - p.2) else p :: rest

/-- The task off a core that is resumed next: of those that can be, the one that left first (R236). -/
def State.nextResume (s : State) (core : Nat) : Option OffTask :=
  (s.offs.filter fun o => o.core == core && s.canResume o).foldl (fun best o => match best with
    | some b => if o.task.leftAt < b.task.leftAt then some o else some b
    | none => some o) none

/-- TASK_RESUME (R229, R233, R236): the task that left this core first, of those that can be resumed, is read back from its
save area into its own slot; a HELD task whose context runs again goes on in its slot. -/
def execTaskResume (core slot : Nat) (s : State) : Out :=
  let t := s.taskAt core slot
  if s.heldReady t && !s.halted core slot then .next (s.goOn core slot t)
  else match s.nextResume core with
  | none => .next s
  | some o =>
    if o.slot ≠ slot then .next s
    else if !(s.ctxAt o.task.place.ctx).savebase.b 63 then .next (s.offFatal o)
    else
      let u := UnitId.save core slot
      let base := s.saveBase o.task.place.ctx core slot
      match s.readPieces u o.task.place.ctx base o.hold (dropPieces (readList o.used) o.buf.length) o.buf with
      | (s, _, _, some _) => .next (s.offFatal o)
      | (s, bs, h, none) =>
        let o' := { o with buf := bs, hold := h }
        let s := { s with offs := s.offs.map fun x => if x = o then o' else x }
        if h.isSome then .next s else .next (s.putBack o')

/-! ### Watchdogs (R174, R178, R179) -/

/-- The task that holds issue on a core. -/
def State.issuerOf (s : State) (core : Nat) : Option (Nat × Task) :=
  (s.tasksOn core).find? fun x => x.2.stat == .issuing

/-- MONOPOLY_WATCHDOG_EXPIRY (R174): once, when the count reaches 2^24; the count restarts with another hold or at trap entry. -/
def execMonopolyWatchdogExpiry (core : Nat) (s : State) : Out :=
  let c := s.coreAt core
  match s.issuerOf core with
  | some (slot, t) =>
    if c.mono ≠ 2 ^ 24 then .next s
    else .next ((s.setCoreAt core { c with mono := 2 ^ 24 + 1 }).setTaskAt core slot { t with
      csr := { t.csr with taskst := t.csr.taskst ||| 2 }, events := t.events ++ [⟨0x120, 0⟩] })
  | none => .next s

/-- The clocks after which the freeze watchdog converts (R178). -/
def Task.freezeLimit (t : Task) : Nat := Nat.max 1 (t.csr.frzwd.f 7 0) * 1400

/-- The interval of a core's freeze watchdog (R178): that of the task that holds issue, else of the one whose result is late. -/
def State.freezeLimit (s : State) (core : Nat) : Nat :=
  match s.issuerOf core, s.lateOn core with
  | some x, _ => x.2.freezeLimit
  | none, some x => x.2.freezeLimit
  | none, none => Task.empty.freezeLimit

/-- The accesses a task's freeze awaits: those of its due results, and its fetch. -/
def Task.frozenIds (t : Task) : List Nat := t.lateIds ++ t.fetchHold.toList

/-- The accesses that a conversion of a task withdraws: those that a serviceable fault holds, or that a full side log does (R109,
R110, R179). -/
def State.withdrawn (s : State) (t : Task) : List Held :=
  s.held.filter fun h => t.frozenIds.contains h.id && (h.why == .flush || h.req.isStore)

/-- The frozen tasks of a core that a conversion takes off it (R179): those whose freeze is in force, none inside a delay bundle;
else the one whose bundle waits in an issue freeze. An ENDING task whose result is late is not taken off: R169 gives no way from
ENDING to OFFCORE (log 66). -/
def State.frozenTasks (s : State) (core : Nat) : List Nat :=
  let late := ((s.tasksOn core).filter fun x => x.2.onCore && (x.2.late || x.2.fetchHold.isSome)).map (·.1)
  let ok (slot : Nat) : Bool := let t := s.taskAt core slot; t.delay == .no && t.stat != .ending
  (if late.isEmpty then (s.issuerOf core).toList.map (·.1) else late).filter ok

/-- Takes a frozen task off its core (R179): what a serviceable fault holds is withdrawn and becomes 0x121, a fetch's too; what is
merely late stays outstanding. -/
def State.convert (s : State) (core slot : Nat) : State :=
  let t := s.taskAt core slot
  let hs := s.withdrawn t
  let fetch := hs.any fun h => t.fetchHold == some h.id
  let s := { s with held := s.held.filter fun h => !(hs.any fun x => x.id == h.id) && t.fetchHold != some h.id }
  let t := hs.foldl (fun t h => t.fill h (.late 0x121 0)) t
  let t := if fetch then t.lateNow 0 t.pc 0x121 0 else t
  (s.setTaskAt core slot { t with fetchHold := none, csr := { t.csr with taskst := t.csr.taskst ||| 4 } }).takePre core slot false

/-- FREEZE_CONVERSION (R179): the frozen tasks leave their core at once; in a handler whose access a serviceable fault holds it is
0x128 instead. They gave up issue in the clk just ended, the last of the count. -/
def execFreezeConversion (core : Nat) (s : State) : Out :=
  let c := s.coreAt core
  if c.frozen < s.freezeLimit core then .next s
  else match (s.tasksOn core).find? fun x => x.2.onCore && x.2.inTrap && !x.2.entering && !(s.withdrawn x.2).isEmpty with
  | some (slot, _) => .next (s.fatal core slot 0x128)
  | none =>
    let slots := s.frozenTasks core
    if slots.isEmpty then .next s
    else .next (slots.foldl (fun s slot => s.convert core slot)
      (s.setCoreAt core { c with frozen := 0, lastAt := s.cycle.toNat - 1 }))

/-! ### WAITE (R261) -/

/-- WAITE_REREAD (R261): a sleeping WAITE whose test held on a read ends; another reads its word again and ends where its test holds;
where the read meets a fault or fails, the task wakes and issues its WAITE again. -/
def execWaiteReread (core slot : Nat) (s : State) : Out :=
  let t := s.taskAt core slot
  match t.stat, t.wait with
  | .sleeping, .met => .next (s.setTaskAt core slot t.endWait)
  | .sleeping, .reread id ts sc va cmp _ =>
    if s.held.any fun h => h.id == id && h.why != .poll then .next s
    else
      let h := s.withParts { Held.new id (unitOf core slot t.place.kernel) t.place.ctx (.waite va) 0 t.waitPc with acq := true }
      let again : State := (s.setTaskAt core slot t.againWait).unhold id
      match s.issueErr h, s.serve h with
      | some _, _ | _, (_, .xlat _ _) | _, (_, .fail _ _) => .next again
      | none, (s', .done img) =>
        .next (if waiteHolds ts (img.setWidth 64) cmp then (s'.setTaskAt core slot (s'.taskAt core slot).endWait).unhold id else s')
      | none, (s', .hold h) => .next (if h.why = .flush then again
          else ((s'.setTaskAt core slot { s'.taskAt core slot with wait := .reread id ts sc va cmp true }).unhold id).hold h)
      | none, (s', _) => .next s'
  | _, _ => .next s

/-- The re-reads that follow a store or an atomic of a task of a core, once it is performed where this module sees it last: at the host
interface, or by the acknowledgement of another module (R261). A store to this module's memory is seen at once. -/
def State.rereadFor (s : State) (u : UnitId) : State :=
  match u with
  | .core c _ _ => (upFrom 0 16).foldl (fun s k => match (s.taskAt c k).wait with
      | .reread _ _ _ _ _ _ => (match execWaiteReread c k s with | .next s' => s' | _ => s)
      | _ => s) s
  | _ => s

end Sys2Proof.Machine
end

