-- ==== Sys2Proof/Machine/Link.lean ====
section
/-! DEFINITION. Optical links: lanes, flits, replay, link states, the torus path and the rotor (R351 to R381). -/

namespace Sys2Proof.Machine

/-! ### The part's links (R351) -/

/-- A link of the module. -/
def State.linkAt (s : State) (n : Nat) : Link := s.links.get .zero n

/-- Replaces a link. -/
def State.setLinkAt (s : State) (n : Nat) (l : Link) : State := { s with links := s.links.put n l }

/-- Whether a link carries packets. -/
def LStat.up : LStat → Bool
  | .active16 | .active8 | .active4 | .retrain => true
  | _ => false

/-- The width a state runs at, with nothing for one that does not run. -/
def LStat.width : LStat → Nat
  | .active16 => 16
  | .active8 => 8
  | .active4 => 4
  | _ => 0

/-- The lanes a width and group use (R352). -/
def lanesOf (st : LStat) (group : Nat) : List Nat :=
  match st with
  | .active16 => upFrom 0 16
  | .active8 => upFrom (8 * group) 8
  | .active4 => upFrom (4 * group) 4
  | _ => []

/-- The state a link runs in, apart from a lane's retraining. -/
def Link.base (l : Link) : LStat := if l.stat = .retrain then l.left else l.stat

/-- Whether a lane is in use (R358). -/
def Link.uses (l : Link) (k : Nat) : Bool := (lanesOf l.base l.group).contains k

/-- The widest width whose lanes are all healthy, with its group (R352, R358). -/
def widest (healthy : Nat) : Option (LStat × Nat) :=
  let ok (st : LStat) (g : Nat) : Bool := (lanesOf st g).all (bit healthy)
  if ok .active16 0 then some (.active16, 0)
  else match (upFrom 0 2).find? (ok .active8) with
  | some g => some (.active8, g)
  | none => ((upFrom 0 4).find? (ok .active4)).map fun g => (.active4, g)

/-! ### The torus (R10, R364 to R368) -/

/-- A module's coordinate in dimension d. -/
def coord (m d : Nat) : Nat := m / 16 ^ d % 16

/-- A module with its coordinate in dimension d replaced. -/
def withCoord (m d c : Nat) : Nat := m - coord m d * 16 ^ d + c % 16 * 16 ^ d

/-- The direction a packet takes from module a to module b: x, then y, then z, the shorter way, + where both are equal;
none where it has arrived. -/
def torusDir (a b : Nat) : Option Nat :=
  (upFrom 0 3).findSome? fun d =>
    let k := (coord b d + 16 - coord a d) % 16
    if k = 0 then none else some (2 * d + if k ≤ 8 then 0 else 1)

/-- The neighbour in a direction. -/
def neighbour (m dir : Nat) : Nat := withCoord m (dir / 2) (coord m (dir / 2) + if dir % 2 = 0 then 1 else 15)

/-- The direction of a packet at module m (R364, R367): one that has come by a link of a dimension crosses the rest of it the same way, so
that a packet sent the long way round is not sent back. -/
def pktDir (p : Packet) (m : Nat) : Option Nat :=
  match p.via with
  | some d => if coord m (d / 2) ≠ coord p.dst (d / 2) then some d else torusDir m p.dst
  | none => torusDir m p.dst

/-- Whether the link of module m in a direction is the wrap link of its dimension (R356). -/
def wraps (m dir : Nat) : Bool := coord m (dir / 2) == if dir % 2 = 0 then 15 else 0

/-- The class and channel of a packet as its link counts credits for them (R356). -/
def pktLane (p : Packet) : Nat := 2 * p.cls + b2n p.vc

/-- Whether a packet carries a message of the routers' SAR, which the torus path takes and no end-to-end number covers (R419). -/
def pktSar (p : Packet) : Bool := match p.op with | .coll m => m.kind == 5 || m.kind == 6 | _ => false

/-- Whether a packet has an end-to-end number of its own source: a reply carries its access's (R145). -/
def pktNumbered (p : Packet) : Bool := p.cls != 1 && !pktSar p

/-- The flits of a packet (R357). -/
def pktFlits (p : Packet) : Nat := match p.op with
  | .discard => 1
  | _ => if p.len ≤ 224 then 1 else 2

/-- The kind of a packet's operation, for its header. -/
def opKind : PktOp → Nat
  | .read => 0
  | .write => 1
  | .poisoned _ => 2
  | .atomic op _ => 16 + op
  | .remop _ => 3
  | .appendRow _ => 4
  | .discard => 5
  | .part => 6
  | .coll m => 32 + m.kind
  | .ack _ cause pstate => 64 + 8 * cause + pstate

/-- The bytes a packet carries behind its header. -/
def pktBody (p : Packet) : List Byte := match p.op with
  | .atomic _ ops => ops.flatMap fun w => toBytes 8 w.toNat
  | .remop block => block
  | .ack data _ _ => data
  | _ => p.data

/-- A packet's header (R357): 16 bytes as the manual lays them out, then its operation, address and length. -/
def pktHeader (p : Packet) : List Byte :=
  toBytes 2 (p.dst % 4096) ++ toBytes 2 (p.src % 4096 + p.cls % 4 * 2 ^ 12 + b2n p.vc * 2 ^ 14 + b2n p.relayed * 2 ^ 15)
    ++ toBytes 4 p.seq ++ toBytes 4 (p.pred.getD 0)
    ++ toBytes 1 (b2n p.pred.isSome + 2 * b2n (pktFlits p == 2) + 4 * b2n p.isOpen + 8 * b2n p.reset)
    ++ toBytes 3 (p.unit % 1024 + p.unitk % 16 * 1024)
    ++ (upFrom 0 16).map (Config.opField (opKind p.op) p.ia p.len)

/-- The last or the first flit of a packet: 256 bytes, the header first (R353, R357). -/
def pktFlit (p : Packet) (last : Bool) : List Byte :=
  let bs := pktHeader p ++ pktBody p
  let x := if last && pktFlits p == 2 then bs.drop 256 else bs
  x.take 256 ++ List.replicate (256 - x.length) 0

/-- The flits queued for a link (R365). -/
def Link.depth (l : Link) : Nat := (l.queue.map pktFlits).foldl (· + ·) 0

/-- Whether two packets are of one flow (R379). -/
def sameFlow (a b : Packet) : Bool :=
  a.src == b.src && a.dst == b.dst && a.cls == b.cls && a.unitk == b.unitk && a.unit / 16 == b.unit / 16

/-- The fitted links of a torus direction. -/
def State.linksOf (s : State) (dir : Nat) : List Nat := (upFrom (24 * dir) 24).filter s.part.fitted

/-- The link a packet takes in a direction (R365): its flow's, where one of its packets is queued there; else the usable link
of least cost, the lowest on a tie. -/
def State.pickLink (s : State) (p : Packet) (dir : Nat) : Option Nat :=
  let ls := s.linksOf dir
  match ls.find? fun n => (s.linkAt n).queue.any (sameFlow p) with
  | some n => some n
  | none =>
    let next := (pktDir { p with via := some dir } (neighbour s.part.module dir)).getD 6
    let cost (n : Nat) : Nat := let l := s.linkAt n; l.depth + l.far.getD next 255
    (ls.filter fun n => (s.linkAt n).stat.up).foldl (fun best n => match best with
      | none => some n
      | some b => if cost n < cost b then some n else some b) none

/-- The link on the torus path of a packet: the dimension's other direction where every link of the first is FAILED or
DOWN (R364, R367). -/
def State.torusLink (s : State) (p : Packet) : Option Nat :=
  match pktDir p s.part.module with
  | none => none
  | some d =>
    let dead (d : Nat) : Bool := (s.linksOf d).all fun n => (s.linkAt n).stat == .failed || (s.linkAt n).stat == .down
    let d' := if dead d then (if d % 2 = 0 then d + 1 else d - 1) else d
    if dead d' then none
    else match s.pickLink p d' with
      | some n => some n
      | none => (s.linksOf d').find? fun n => (s.linkAt n).stat != .failed && (s.linkAt n).stat != .down

/-! ### The rotor's calendar (R369 to R374) -/

/-- The rotor-group index of a module (R369). -/
def rotorIndex (m : Nat) : Nat := coord m 0 % 8 + 8 * (coord m 1 % 8) + 64 * (coord m 2 % 8)

/-- Whether two modules are of one rotor group (R10). -/
def sameGroup (a b : Nat) : Bool := (upFrom 0 3).all fun d => coord a d / 8 == coord b d / 8

/-- The module of m's rotor group with an index. -/
def groupModule (m idx : Nat) : Nat :=
  let c (d : Nat) : Nat := coord m d / 8 * 8 + idx / 8 ^ d % 8
  c 0 + 16 * c 1 + 256 * c 2

/-- The partner of plane p in slot n of a calendar (R371). -/
def partner (cal : Tab Word) (n p : Nat) : Nat := (cal.get 0 n).f (9 * p + 8) (9 * p)

/-- The (slot, plane) pairs of a calendar. -/
def slotPlanes : List (Nat × Nat) := (upFrom 0 73).flatMap fun n => (upFrom 0 7).map fun p => (n, p)

/-- The slot and plane in which a calendar names an index. -/
def slotOf (cal : Tab Word) (idx : Nat) : Option (Nat × Nat) := slotPlanes.find? fun x => partner cal x.1 x.2 == idx

/-- The check of R373: each other index once, the module's own nowhere. -/
def calOk (cal : Tab Word) (own : Nat) : Bool :=
  let ps := slotPlanes.map fun x => partner cal x.1 x.2
  (upFrom 0 512).all fun i => (ps.filter (· == i)).length == if i = own then 0 else 1

/-- ROTSTAT (R372). -/
def Rotor.stat (r : Rotor) : Word :=
  BitVec.ofNat 64 (b2n r.lock * 2 ^ 63 + b2n r.guard * 2 ^ 62 + b2n r.calerr * 2 ^ 61 + r.slot * 2 ^ 48 + r.start % 2 ^ 48)

/-- The clocks of the current dwell left for data (R370): its window closes 50 ns before the guard. -/
def State.dwellLeft (s : State) : Nat := if s.rotor.guard then 0 else s.rotor.start + 3010 - s.cycle.toNat

/-- The plane of a rotor link (R351). -/
def planeOf (n : Nat) : Nat := (n - 144) / 16

/-- The links of a rotor plane. -/
def planeLinks (p : Nat) : List Nat := upFrom (144 + 16 * p) 16

/-- The flow record of a packet. -/
def State.flowOf (s : State) (p : Packet) : Option FlowSt :=
  s.flows.find? fun f => f.src == p.src && f.unit == p.unit / 16 && f.unitk == p.unitk && f.dst == p.dst && f.cls == p.cls

/-- The module a packet on a rotor link is for: the partner it is relayed through, at its source; else its destination. -/
def State.rotorHop (s : State) (p : Packet) : Nat :=
  if p.relayed && p.src == s.part.module then
    match s.flowOf p with
    | some f => (match f.path with | .relay m _ => m | _ => p.dst)
    | none => p.dst
  else p.dst

/-- Whether a packet queued on a rotor link can leave now: its module is the plane's partner in the slot, the module is
locked, and the data window is open (R370, R374). -/
def State.rotorReady (s : State) (n : Nat) (p : Packet) : Bool :=
  s.rotor.en && s.rotor.lock && s.dwellLeft != 0
    && groupModule s.part.module (partner s.rotor.cal s.rotor.slot (planeOf n)) == s.rotorHop p

/-! ### Sending flits (R353, R354, R356, R366) -/

/-- Marks a packet of this module as having left at a CYCLE, for its re-send interval and its flow's gap (R380, R382). -/
def State.leftAt (s : State) (p : Packet) (now : Nat) : State :=
  if p.src ≠ s.part.module then s
  else
    let pr := s.e2eSrc.get ⟨0, true, [], []⟩ p.dst
    { s with
      e2eSrc := if !pktNumbered p then s.e2eSrc else s.e2eSrc.put p.dst { pr with unacked := pr.unacked.map fun u =>
        if u.pkt.seq = p.seq then { u with sentAt := some now, pkt := { u.pkt with relayed := p.relayed } } else u }
      flows := s.flows.map fun f =>
        if f.src = p.src ∧ f.unit = p.unit / 16 ∧ f.unitk = p.unitk ∧ f.dst = p.dst ∧ f.cls = p.cls then { f with lastAt := now } else f }

/-- The lanes a link sends on: in RETRAIN, all in use but the one being retrained (R358). -/
def Link.active (l : Link) : List Nat :=
  let ls := lanesOf l.base l.group
  if l.stat = .retrain then ls.filter (· != l.rlane) else ls

/-- How long a codeword of 5,440 bits lasts, in eighths of a clk (R353): 112 Gb/s are 80 bits a clk for each lane. -/
def Link.cwTime (l : Link) : Nat :=
  let n := Nat.max 1 l.active.length
  (544 + n - 1) / n

/-- The depths a router reports (R366): for each torus direction that of its least-loaded link in use, and for local delivery, whose
packets this model takes at once. -/
def State.depths (s : State) : List Nat :=
  (upFrom 0 6).map (fun d => (((s.linksOf d).filter fun n => (s.linkAt n).stat.up).map fun n => (s.linkAt n).depth).foldl Nat.min 255) ++ [0]

/-- Sends a codeword with the flits numbered from seq on (R353, R354, R356, R366): it acknowledges what was accepted last and returns the
credits owed. -/
def State.sendCw (s : State) (n seq : Nat) (flits : List (List Byte)) : State :=
  let l := s.linkAt n
  let s := s.setLinkAt n { l with owed := List.replicate 8 0 }
  { s with msgs := s.msgs ++ [.codeword n seq ((l.accept + 4095) % 4096) flits l.owed s.depths] }

/-- The end of a codeword that starts now, or when the last one ends. -/
def Link.endOf (l : Link) (now : Nat) : Nat := Nat.max (8 * now) l.busy + l.cwTime

/-- Whether a packet queued on a link behind others that stay may leave (R354, R356, R358, R365, R370): fewer than 512 flits await
acknowledgement, there is a credit for its class and channel, and no packet of its flow stays before it, on a torus link none of its class
and channel; on a rotor link its dwell has room for it. -/
def State.mayLeave (s : State) (n : Nat) (kept : List Packet) (p : Packet) : Bool :=
  let l := s.linkAt n
  l.stat.up && !l.stopped && decide (l.sent.length + pktFlits p ≤ 512) && l.credits.getD (pktLane p) 0 != 0
    && !kept.any (fun q => sameFlow q p || (n < 144 && pktLane q == pktLane p))
    && (n < 144 || (s.rotorReady n p && decide (s.rotor.start + 90 ≤ s.cycle.toNat)
          && decide (l.endOf s.cycle.toNat ≤ 8 * (s.rotor.start + 3010))))

/-- The first packet of a queue that may leave, of no more than so many flits, with what stays before it and behind it. -/
def State.nextOut (s : State) (n room : Nat) : List Packet → List Packet → Option (Packet × List Packet)
  | _, [] => none
  | kept, p :: rest => if pktFlits p ≤ room && s.mayLeave n kept p then some (p, kept.reverse ++ rest) else s.nextOut n room (p :: kept) rest

/-- A packet leaves a link's queue, whose rest is given, with the codeword that starts now. -/
def State.leave (s : State) (n : Nat) (p : Packet) (rest : List Packet) : State :=
  let l := s.linkAt n
  let fl := if pktFlits p = 1 then [(p, true)] else [(p, false), (p, true)]
  (s.setLinkAt n { l with
    queue := rest, sent := l.sent ++ fl, next := (l.next + fl.length) % 4096
    credits := l.credits.set (pktLane p) (l.credits.getD (pktLane p) 0 - 1)
    ackAt := if l.sent.isEmpty then s.cycle.toNat else l.ackAt }).leftAt p ((l.endOf s.cycle.toNat + 7) / 8)

/-- Sends the next codeword of a link that is free in this clk, where a packet may leave: it carries a packet of two flits, or one or two
of one flit (R353, R357). -/
def State.pump (s : State) (n : Nat) : State :=
  let l := s.linkAt n
  if 8 * (s.cycle.toNat + 1) ≤ l.busy then s
  else match s.nextOut n 2 [] l.queue with
  | none => s
  | some (p, rest) =>
    let s := s.leave n p rest
    let r : State × List (List Byte) :=
      if pktFlits p = 2 then (s, [pktFlit p false, pktFlit p true])
      else match s.nextOut n 1 [] rest with
      | none => (s, [pktFlit p true])
      | some (q, rest) => (s.leave n q rest, [pktFlit p true, pktFlit q true])
    let s := r.1
    (s.setLinkAt n { s.linkAt n with busy := l.endOf s.cycle.toNat }).sendCw n l.next r.2

/-- Puts a packet in a queue: one that is re-sent goes ahead of its flow's later packets that have not left (R382). -/
def insertResend (p : Packet) : List Packet → List Packet
  | [] => [p]
  | q :: rest => if sameFlow q p && decide ((q.seq + 2 ^ 32 - p.seq) % 2 ^ 32 < 2 ^ 31) then p :: q :: rest
                 else q :: insertResend p rest

/-- Queues a packet on a link; the link sends it in its turn (State.pump). -/
def State.enqueue (s : State) (n : Nat) (p : Packet) : State :=
  let l := s.linkAt n
  s.setLinkAt n { l with queue := if p.src = s.part.module ∧ pktNumbered p = true then insertResend p l.queue else l.queue ++ [p] }

/-- Puts a packet on its torus path; a packet without one is dropped (R364, R367). It crosses a wrap link, and goes on, in channel 1
(R356, log 77). -/
def State.toTorus (s : State) (p : Packet) : State :=
  let p := { p with relayed := false }
  match s.torusLink p with
  | some n => s.enqueue n { p with via := some (n / 24), vc := p.vc || wraps s.part.module (n / 24) }
  | none => s.leftAt p s.cycle.toNat

/-! ### Path choice (R375, R376, R378 to R380) -/

/-- The path of a direct packet: D's slot within DIRWIN slots, 0 meaning the current one with 0.5 µs left (R380). -/
def State.directOk (s : State) (dst win : Nat) : Bool :=
  match slotOf s.rotor.cal (rotorIndex dst) with
  | none => false
  | some (n, _) =>
    let k := (n + 73 - s.rotor.slot) % 73
    if k = 0 then 700 ≤ s.dwellLeft else k ≤ Nat.min 72 win

/-- The plane on which a module is a partner in the current slot. -/
def State.planeOfNow (s : State) (m : Nat) : Option Nat :=
  (upFrom 0 7).find? fun pl => groupModule s.part.module (partner s.rotor.cal s.rotor.slot pl) == m

/-- A relay through a current partner within RELAYWIN slots and within its credit: the earliest slot, then the lowest plane
(R375, R376). -/
def State.relayFor (s : State) (p : Packet) : Option Path :=
  let win := Nat.min 72 (s.flowcfg.f 47 40)
  let cand := (upFrom 0 7).filterMap fun pl =>
    let m := groupModule s.part.module (partner s.rotor.cal s.rotor.slot pl)
    let sl := Config.relaySlot m p.dst % 73
    let k := (sl + 73 - s.rotor.slot) % 73
    let ok := s.rotor.credits.any fun c => c.1 == pl && c.2.1 == p.dst && pktFlits p ≤ c.2.2
    if 1 ≤ k ∧ k ≤ win ∧ ok = true ∧ m ≠ p.dst then some (k, pl, m, sl) else none
  (cand.foldl (fun best c => match best with
    | none => some c
    | some b => if c.1 < b.1 then some c else some b) none).map fun c => .relay c.2.2.1 c.2.2.2

/-- The path of a flow that becomes active (R378, R380). -/
def State.choosePath (s : State) (p : Packet) : Path :=
  let r := s.rotor
  let sel := s.flowcfg.f (9 + 2 * p.cls) (8 + 2 * p.cls)
  if !s.part.hasRotor || !r.en || !r.lock || !sameGroup s.part.module p.dst || pktSar p then .torus
  else match sel with
  | 1 => .torus
  | 0 => if s.directOk p.dst 0 then .direct else .torus
  | 3 => if s.directOk p.dst (s.flowcfg.f 39 32) then .direct else .torus
  | _ => if s.directOk p.dst (s.flowcfg.f 39 32) then .direct else (s.relayFor p).getD .torus

/-- Whether a flow is idle (R380): nothing else of it is queued here, FLOWGAP has passed, and nothing it sent by relay is
unacknowledged. -/
def State.flowIdle (s : State) (f : FlowSt) (p : Packet) : Bool :=
  let relay := match f.path with | .relay _ _ => true | _ => false
  !(s.links.any fun nl => nl.2.queue.any (sameFlow p)) && !s.outq.any (sameFlow p)
    && !(s.e2eSrc.get ⟨0, true, [], []⟩ p.dst).waiting.any (fun u => sameFlow u.pkt p)
    && f.lastAt + Nat.max 1 (s.flowcfg.f 7 0) * 1400 ≤ s.cycle.toNat
    && !(relay && (s.e2eSrc.get ⟨0, true, [], []⟩ p.dst).unacked.any fun u => sameFlow u.pkt p && u.pkt.relayed)

/-- Takes relay credit for a packet (R376). -/
def Rotor.spend (r : Rotor) (plane dst n : Nat) : Rotor :=
  { r with credits := r.credits.map fun c => if c.1 = plane ∧ c.2.1 = dst then (c.1, c.2.1, c.2.2 - n) else c }

/-- The rotor link of a packet for module m in its slot: where packets of its source for its destination and class are queued, the link
they are queued on, so that they keep their order (R365, R377, R381); else the usable link of the plane with the fewest flits queued. -/
def State.planeLink (s : State) (p : Packet) (m : Nat) : Option (Nat × Nat) :=
  match slotOf s.rotor.cal (rotorIndex m) with
  | none => none
  | some (_, pl) =>
    let ls := (planeLinks pl).filter fun n => (s.linkAt n).stat != .failed && (s.linkAt n).stat != .down
    let mine (n : Nat) : Bool := (s.linkAt n).queue.any fun q => q.src == p.src && q.dst == p.dst && q.cls == p.cls
    if let some n := ls.find? mine then some (n, pl) else
    (ls.foldl (fun best n => match best with
      | none => some n
      | some b => if (s.linkAt n).depth < (s.linkAt b).depth then some n else some b) none).map fun n => (n, pl)

/-- Routes a packet of this module on its flow's path (R365, R375, R380); the rotor path falls back to the torus where its
plane has no link, or the relay's partner is no longer current (R381) or gives no credit (R376). -/
def State.routeOwn (s : State) (p : Packet) : State :=
  let p := { p with relayed := false }
  let f := s.flowOf p
  let now (path : Path) : Path := match path with
    | .relay m _ => if (s.planeOfNow m).isSome then path else .torus
    | _ => path
  let path := match f with
    | some f => if s.flowIdle f p then s.choosePath p else now f.path
    | none => s.choosePath p
  let rec_ : FlowSt := ⟨p.src, p.unit / 16, p.unitk, p.dst, p.cls, path, match f with | some f => f.lastAt | none => 0⟩
  let s := { s with flows := match f with
    | some f => s.flows.map fun x => if x = f then rec_ else x
    | none => s.flows ++ [rec_] }
  match path with
  | .torus => s.toTorus p
  | .direct => match s.planeLink p p.dst with
    | some (n, _) => s.enqueue n p
    | none => s.toTorus p
  | .relay m _ => match s.planeLink p m with
    | some (n, pl) =>
      if s.rotor.credits.any fun c => c.1 == pl && c.2.1 == p.dst && pktFlits p ≤ c.2.2 then
        { s with rotor := s.rotor.spend pl p.dst (pktFlits p) }.enqueue n { p with relayed := true }
      else s.toTorus p
    | none => s.toTorus p

/-- Lets every link send that has packets queued and is free (R354, R358). -/
def State.pumpAll (s : State) : State := s.links.foldl (fun s nl => if nl.2.queue.isEmpty then s else s.pump nl.1) s

/-- PACKET_ROUTE (R365, R367, R380): the router takes the next packet that leaves the module's units or passes through; with the last of
them queued, the links send. -/
def execPacketRoute (s : State) : Out :=
  match s.outq with
  | [] => .next s
  | p :: rest =>
    let s := { s with outq := rest }
    let s := if p.src = s.part.module then s.routeOwn p else s.toTorus p
    .next (if rest.isEmpty then s.pumpAll else s)

/-! ### Re-sends (R382) -/

/-- An access whose packet is given up (R382, R146): 0x148 for the unit that issued it; one that awaits a reply takes it as the reply
of these bytes. -/
def State.losePacket (s : State) (u : Unacked) : State :=
  match u.held with
  | some id => s.replyHeld id u.off [] [] 0x148 0
  | none => if u.done then s.ctxError u.ctx 0x148 else s.reportUnit u.unit ⟨0x148, memTval 0x148 0 u.va⟩

/-- Takes packets that are given up out of every queue. -/
def State.unqueue (s : State) (p : Packet → Bool) : State :=
  { s with
    outq := s.outq.filter fun q => !p q
    links := s.links.map fun nl => (nl.1, { nl.2 with queue := nl.2.queue.filter fun q => !p q }) }

/-- Re-sends an unacknowledged packet: the ninth time it and its flow's later packets are given up (R382). -/
def State.resend (s : State) (tgt seq : Nat) : State :=
  let pr := s.e2eSrc.get ⟨0, true, [], []⟩ tgt
  match pr.unacked.find? fun u => u.pkt.seq == seq with
  | none => s
  | some u =>
    if u.resends < 8 then
      let s := s.unqueue fun q => pktNumbered q && q.src == s.part.module && q.dst == tgt && q.seq == seq
      { s with
        e2eSrc := s.e2eSrc.put tgt { pr with unacked := pr.unacked.map fun x =>
          if x.pkt.seq = seq then { x with resends := x.resends + 1, sentAt := none } else x }
        outq := insertResend u.pkt s.outq }
    else
      let later (x : Unacked) : Bool := sameFlow x.pkt u.pkt && (x.pkt.seq + 2 ^ 32 - seq) % 2 ^ 32 < 2 ^ 31
      let gone := pr.unacked.filter later
      let wait := pr.waiting.filter fun x => sameFlow x.pkt u.pkt
      let s := { s with e2eSrc := s.e2eSrc.put tgt { pr with
        unacked := pr.unacked.filter fun x => !later x, waiting := pr.waiting.filter fun x => !sameFlow x.pkt u.pkt } }
      let s := s.unqueue fun q => pktNumbered q && gone.any fun x => x.pkt.seq == q.seq && q.dst == tgt && q.src == s.part.module
      (gone ++ wait).foldl (fun s x => s.losePacket x) s

/-- The numbered packets of this module on a link whose last flit is not acknowledged. -/
def Link.pending (l : Link) (own : Nat) : List Packet := (l.sent.filter fun x => x.2 && x.1.src == own && pktNumbered x.1).map (·.1)

/-- Packets that leave the queue of link n, in order, for other links (R368): of its direction, or of its plane where one is left. A re-send
of their flow that is routed before they leave goes ahead of them (R382). -/
def State.requeue (s : State) (n : Nat) (ps : List Packet) : State :=
  ps.foldl (fun s p => if n < 144 then s.toTorus p else match s.planeLink p (s.rotorHop p) with
    | some (k, _) => s.enqueue k p
    | none => s.toTorus p) s

/-- A link that fails or goes down (R368, R382): its unacknowledged flits are discarded and their packets re-sent, and its
queue moves, in order, to other links. -/
def State.dropLink (s : State) (n : Nat) (st : LStat) (cause : Nat) : State :=
  let l := s.linkAt n
  let s := s.setLinkAt n { l with
    stat := st, group := 0, rlane := 0, failcause := cause, sent := [], queue := [], waiting := [], stopped := false
    tries := 0, discard := false }
  (l.pending s.part.module).foldl (fun s p => s.resend p.dst p.seq) (s.requeue n l.queue)

/-! ### Link commands and training (R358) -/

/-- LNKCTL_TRAIN (R358). -/
def execLnkctlTrain (n : BitVec 8) (s : State) : Out := s.command (
  let l := s.linkAt n.toNat
  if s.part.fitted n.toNat ∧ (l.stat = .down ∨ l.stat = .failed) then
    .next (s.setLinkAt n.toNat { l with stat := .training, healthy := 0, failcause := 0, heardAt := s.cycle.toNat, since := s.cycle.toNat })
  else .next s)

/-- LNKCTL_DOWN (R358): the replay buffer is discarded. -/
def execLnkctlDown (n : BitVec 8) (s : State) : Out := s.command (
  .next (if s.part.fitted n.toNat then s.dropLink n.toNat .down (s.linkAt n.toNat).failcause else s))

/-- A link that begins to run: sequence numbers start at 0 (R358, R359); the far end's codewords bring its first credits (log 77). -/
def Link.begin_ (l : Link) (st : LStat) (g now : Nat) : Link :=
  { l with stat := st, group := g, next := 0, sent := [], ackseq := 0, tries := 0, ackAt := now, accept := 0, discard := false
           stopped := false, waiting := [], rlane := 0, heardAt := now, credits := List.replicate 8 0, owed := List.replicate 8 0
           busy := 8 * now }

/-- What TRAINING may take, and how long a lane must be healthy for a widening (R358): 10 ms. -/
def tenMs : Nat := 14000000

/-- LINK_TRAINING_COMPLETE (R358): both ends agree, within 10 ms, on the widest healthy width; failed lanes do not count. -/
def execLinkTrainingComplete (n : BitVec 8) (healthy : BitVec 16) (s : State) : Out :=
  let l := s.linkAt n.toNat
  let h := (upFrom 0 16).foldl (fun h k => if bit healthy.toNat k ∧ (l.lanes.get .zero k).failed = false then h + 2 ^ k else h) 0
  if l.stat ≠ .training ∨ l.since + tenMs ≤ s.cycle.toNat then .next s
  else match widest h with
  | some (st, g) =>
    let lanes := (upFrom 0 16).foldl (fun (ls : Tab Lane) k => ls.put k { ls.get .zero k with errs := [], since := s.cycle.toNat }) l.lanes
    .next ((s.setLinkAt n.toNat ({ l with healthy := h, lanes := lanes }.begin_ st g s.cycle.toNat)).pump n.toNat)
  | none => .next (s.setLinkAt n.toNat { l with healthy := h })

/-- LINK_TRAINING_TIMEOUT (R358): no healthy quarter after 10 ms. -/
def execLinkTrainingTimeout (n : BitVec 8) (s : State) : Out :=
  let l := s.linkAt n.toNat
  .next (if n.toNat < 144 ∧ l.stat = .training ∧ l.since + tenMs ≤ s.cycle.toNat then s.dropLink n.toNat .failed 3 else s)

/-! ### Lanes (R358, R360, R361) -/

/-- Marks a lane failed at a CYCLE. -/
def Link.failLane (l : Link) (k now : Nat) : Link :=
  { l with
    healthy := if bit l.healthy k then l.healthy - 2 ^ k else l.healthy
    lanes := l.lanes.put k { l.lanes.get .zero k with failed := true, errs := [], since := now }
    waiting := l.waiting.filter (· != k) }

/-- Starts to retrain the lowest lane that waits and is in use, where the link runs, has not stopped for a width change and AUTO is set
(R358, R361). -/
def Link.nextRetrain (l : Link) (now : Nat) : Link :=
  let l := { l with waiting := l.waiting.filter l.uses }
  match l.waiting.min? with
  | some k => if l.stat.up && l.stat != .retrain && !l.stopped && l.auto then
      { l with stat := .retrain, left := l.stat, rlane := k, waiting := l.waiting.filter (· != k), since := now }
    else l
  | none => l

/-- A lane in use is lost (R358): the link stops sending until the ends agree a width; without a healthy quarter it fails. -/
def State.loseLane (s : State) (n k : Nat) : State :=
  let l := s.linkAt n
  let used := l.stat.up && l.uses k
  let l := l.failLane k s.cycle.toNat
  let l := if l.stat = .retrain ∧ (used = true ∨ l.rlane = k) then { l with stat := l.left, rlane := 0 } else l
  let s := s.setLinkAt n l
  if !used then s.setLinkAt n (l.nextRetrain s.cycle.toNat)
  else match widest l.healthy with
  | some _ => s.setLinkAt n { l with stopped := true }
  | none => s.dropLink n .failed 1

/-- LANE_LOST (R360). -/
def execLaneLost (n : BitVec 8) (lane : BitVec 4) (s : State) : Out :=
  .next (if s.part.fitted n.toNat then s.loseLane n.toNat lane.toNat else s)

/-- Begins a replay (R355): every unacknowledged flit goes again, in order; it is counted, and FAILED after eight that did not advance the acknowledgement; a rotor link never
fails so (R359). -/
def State.replayLink (s : State) (n : Nat) : State :=
  let l := s.linkAt n
  if l.sent.isEmpty then s
  else if 8 ≤ l.tries ∧ n < 144 then s.dropLink n .failed 2
  else
    let cws := (l.sent.length + 1) / 2
    let l' : Link := { l with
      replays := Nat.min (2 ^ 32 - 1) (l.replays + 1), tries := l.tries + 1, ackAt := s.cycle.toNat
      busy := Nat.max (8 * s.cycle.toNat) l.busy + cws * l.cwTime }
    let first := (l.next + 4096 - l.sent.length) % 4096
    (upFrom 0 cws).foldl (fun s i => s.sendCw n ((first + 2 * i) % 4096) (((l.sent.drop (2 * i)).take 2).map fun x => pktFlit x.1 x.2)) (s.setLinkAt n l')

/-- LINK_WIDTH_AGREED (R358, R361): the widest healthy width, then a replay; then a lane that waits is retrained. -/
def execLinkWidthAgreed (n : BitVec 8) (s : State) : Out :=
  let l := s.linkAt n.toNat
  if !l.stopped then .next s
  else match widest l.healthy with
  | some (st, g) =>
    let l : Link := { l with stat := st, group := g, stopped := false }
    let s := (s.setLinkAt n.toNat l).replayLink n.toNat
    .next ((s.setLinkAt n.toNat ((s.linkAt n.toNat).nextRetrain s.cycle.toNat)).pump n.toNat)
  | none => .next (s.dropLink n.toNat .failed 1)

/-- LANE_THRESHOLD_CROSSED (R361, R362): a window of 2^32 bits is complete; over BERTHR, a lane in use retrains, or waits its turn.
`syms` are the corrected symbols of codewords that no CODEWORD_RECEIVED stands for (log 77). -/
def execLaneThresholdCrossed (n : BitVec 8) (lane : BitVec 4) (syms : BitVec 32) (s : State) : Out :=
  let l := s.linkAt n.toNat
  let k := lane.toNat
  let x := l.lanes.get .zero k
  if !s.part.fitted n.toNat || x.bits < 2 ^ 32 then .next s
  else
    let count := Nat.min (2 ^ 32 - 1) (x.count + syms.toNat)
    let crossed := decide (s.linkcfg.f 31 0 < count)
    let l := { l with lanes := l.lanes.put k { x with crossed := crossed, syms := count, count := 0, bits := x.bits - 2 ^ 32 } }
    if crossed && l.auto && l.stat.up && l.uses k && !(l.stat == .retrain && l.rlane == k) && !l.waiting.contains k then
      .next (s.setLinkAt n.toNat ({ l with waiting := l.waiting ++ [k] }.nextRetrain s.cycle.toNat))
    else .next (s.setLinkAt n.toNat l)

/-- Goes back from RETRAIN; the lowest lane that waits retrains next (R361). -/
def Link.backFrom (l : Link) (now : Nat) : Link := { l with stat := l.left, rlane := 0 }.nextRetrain now

/-- LANE_RETRAIN_COMPLETE (R358): the lane reaches its threshold within 100 µs. -/
def execLaneRetrainComplete (n : BitVec 8) (s : State) : Out :=
  let l := s.linkAt n.toNat
  .next (if l.stat = .retrain ∧ s.cycle.toNat < l.since + 140000 then s.setLinkAt n.toNat (l.backFrom s.cycle.toNat) else s)

/-- LANE_RETRAIN_TIMEOUT (R358): it has not within 100 µs; the lane is marked failed and handled as lost. -/
def execLaneRetrainTimeout (n : BitVec 8) (s : State) : Out :=
  let l := s.linkAt n.toNat
  .next (if l.stat = .retrain ∧ l.since + 140000 ≤ s.cycle.toNat then s.loseLane n.toNat l.rlane else s)

/-- LINK_WIDEN (R358): to the widest width whose lanes have all been healthy for 10 ms, where it is wider; no replay. -/
def execLinkWiden (n : BitVec 8) (s : State) : Out :=
  let l := s.linkAt n.toNat
  let old := (upFrom 0 16).foldl (fun h k => if bit l.healthy k ∧ (l.lanes.get .zero k).since + tenMs ≤ s.cycle.toNat then h + 2 ^ k else h) 0
  match widest old with
  | some (st, g) =>
    .next (if (l.stat = .active8 ∨ l.stat = .active4) ∧ l.stat.width < st.width ∧ l.stopped = false then
      (s.setLinkAt n.toNat { l with stat := st, group := g }).pump n.toNat else s)
  | none => .next s

/-- LANE_BACKGROUND_CHECK (R359, R360): every 10 ms a failed lane is checked in full; it is healthy where it stayed locked with no more
than BERTHR / 2^16 corrected symbols; `found` is their number, none where it lost lock. -/
def execLaneBackgroundCheck (n : BitVec 8) (lane : BitVec 4) (found : Option (BitVec 32)) (s : State) : Out :=
  let l := s.linkAt n.toNat
  let k := lane.toNat
  let x := l.lanes.get .zero k
  let pass := found.any fun m => decide (m.toNat * 2 ^ 16 ≤ s.linkcfg.f 31 0)
  .next (if x.failed && decide (x.since + tenMs ≤ s.cycle.toNat) then
    s.setLinkAt n.toNat { l with
      healthy := if bit l.healthy k || !pass then l.healthy else l.healthy + 2 ^ k
      lanes := l.lanes.put k { x with failed := !pass, since := s.cycle.toNat } }
  else s)

/-! ### Codewords and replay (R353 to R355) -/

/-- Takes the flits an acknowledgement covers out of the replay buffer: `ack` is the last number the far end accepted. -/
def State.ackFlits (s : State) (n ack : Nat) : State :=
  let l := s.linkAt n
  let first := (l.next + 4096 - l.sent.length) % 4096
  let k := (ack + 1 + 4096 - first) % 4096
  if k = 0 ∨ l.sent.length < k then s
  else s.setLinkAt n { l with sent := l.sent.drop k, ackseq := ack, tries := 0, ackAt := s.cycle.toNat }

/-- The symbols of a codeword dealt to the lane at place i of w, and those of them in error (R353). -/
def dealt (w i : Nat) (errs : List Nat) : Nat × Nat :=
  ((544 - i + w - 1) / w, (errs.filter fun p => p < 544 ∧ p % w = i).length)

/-- A lane after a codeword that brought it so many symbols, so many of them corrected (R360, R361). -/
def Lane.take (x : Lane) (d : Nat × Nat) : Lane :=
  { x with count := Nat.min (2 ^ 32 - 1) (x.count + d.2), bits := x.bits + 10 * d.1, errs := (x.errs ++ [d.2]).drop (x.errs.length - 15) }

/-- Whether a lane is lost by its symbol errors (R360). -/
def Lane.bad (x : Lane) : Bool := decide (15 < x.errs.foldl (· + ·) 0)

/-- Counts a corrected codeword's symbols on the lanes in use; a lane with more than 15 errors in 16 codewords is lost (R360, R361). -/
def State.countLanes (s : State) (n : Nat) (errs : List Nat) : State :=
  let l := s.linkAt n
  let ks := l.active
  let lanes := ((upFrom 0 ks.length).zip ks).foldl (fun (ls : Tab Lane) ik => ls.put ik.2 ((ls.get .zero ik.2).take (dealt ks.length ik.1 errs))) l.lanes
  (ks.filter fun k => (lanes.get .zero k).bad).foldl (fun s k => s.loseLane n k) (s.setLinkAt n { l with lanes := lanes })

/-- Adds counts by class and channel. -/
def addCounts (a b : List Nat) : List Nat := (upFrom 0 8).map fun i => a.getD i 0 + b.getD i 0

/-- CODEWORD_RECEIVED (R353 to R356, R360, R366): RS(544,514) corrects up to 15 symbol errors. A correctable codeword with the expected
number has its flits accepted, and is answered with an acknowledgement, one that a replay brings again has them dropped, and its
acknowledgement, credits and depths are taken; an uncorrectable one, and those after it until the replay, are discarded. A packet that has
come whole frees its buffer at once (log 77). -/
def execCodewordReceived (n : BitVec 8) (errs : List Nat) (seq ack : Nat) (cw : CwLoad) (s : State) : Out :=
  let l := s.linkAt n.toNat
  if !l.stat.up then .next s
  else if 15 < errs.length then
    let s := s.setLinkAt n.toNat { l with uncorr := Nat.min (2 ^ 32 - 1) (l.uncorr + 1), discard := true }
    .next (if l.discard then s else { s with msgs := s.msgs ++ [.replay n.toNat l.accept] })
  else if seq ≠ l.accept && l.discard then .next s
  else
    let new := seq == l.accept && cw.flits != 0
    let s := s.setLinkAt n.toNat { l with
      accept := if new then (l.accept + cw.flits) % 4096 else l.accept
      owed := if new then addCounts l.owed ((upFrom 0 8).map fun i => (cw.ends.filter (· == i)).length) else l.owed
      credits := addCounts l.credits cw.credits
      discard := false, far := cw.depths, heardAt := s.cycle.toNat }
    let s := (s.ackFlits n.toNat ack).pump n.toNat
    let s := if new && !(s.linkAt n.toNat).stopped then s.sendCw n.toNat (s.linkAt n.toNat).next [] else s
    .next (s.countLanes n.toNat errs)

/-- REPLAY_REQUEST_RECEIVED (R355): the far end asks for flits from `seq` on; a link that has stopped for a width change replays once the
width is agreed (R358). -/
def execReplayRequestReceived (n : BitVec 8) (seq : BitVec 12) (s : State) : Out :=
  if !(s.linkAt n.toNat).stat.up then .next s
  else
    let s := s.ackFlits n.toNat ((seq.toNat + 4095) % 4096)
    .next (if (s.linkAt n.toNat).stopped then s else (s.replayLink n.toNat).pump n.toNat)

/-- REPLAY_ACK_TIMEOUT (R355): no acknowledgement has advanced for 2 µs while flits are unacknowledged. -/
def execReplayAckTimeout (n : BitVec 8) (s : State) : Out :=
  let l := s.linkAt n.toNat
  .next (if l.stat.up ∧ l.stopped = false ∧ l.sent ≠ [] ∧ l.ackAt + 2800 ≤ s.cycle.toNat then s.replayLink n.toNat else s)

/-- FAR_DEPTH_TIMEOUT (R366): nothing heard for 1 µs. -/
def execFarDepthTimeout (n : BitVec 8) (s : State) : Out :=
  let l := s.linkAt n.toNat
  .next (if l.heardAt + 1400 ≤ s.cycle.toNat then s.setLinkAt n.toNat { l with far := [255, 255, 255, 255, 255, 255, 255] } else s)

/-! ### The rotor port (R359, R369 to R377, R381) -/

/-- The calendar a task sees, copied from its writable image: bit 63 of each word reads 0 (R371). -/
def calOf (calw : Tab Word) : Tab Word :=
  Tab.setMany 0 [] 0 ((upFrom 0 73).map fun n => calw.get 0 n &&& BitVec.ofNat 64 (maskF 62 0))

/-- ROTOR_ENABLE (R371, R373). -/
def execRotorEnable (s : State) : Out := s.command (
  let r := s.rotor
  if !s.part.hasRotor || r.en then .next s
  else if calOk r.calw (rotorIndex s.part.module) then
    .next { s with rotor := { r with en := true, cal := calOf r.calw, calerr := false, seen := none, fails := 0, guardAt := s.cycle.toNat } }
  else .next { s with rotor := { r with calerr := true } })

/-- Moves queued rotor packets, and packets held for relay, that meet a condition to the torus, in order (R377, R381): their flows' path
is the torus. -/
def State.offRotor (s : State) (p : Nat → Packet → Bool) (held : Packet → Bool) : State :=
  let moved := s.links.flatMap (fun nl => if nl.1 < 144 then [] else nl.2.queue.filter (p nl.1)) ++ s.rotor.relay.filter held
  let s := { s with
    links := s.links.map fun nl => if nl.1 < 144 then nl else (nl.1, { nl.2 with queue := nl.2.queue.filter fun q => !p nl.1 q })
    rotor := { s.rotor with relay := s.rotor.relay.filter fun q => !held q }
    flows := s.flows.map fun f => if moved.any fun x => f.src == x.src && f.unit == x.unit / 16 && f.unitk == x.unitk
      && f.dst == x.dst && f.cls == x.cls then { f with path := .torus } else f }
  moved.foldl (fun s x => s.toTorus x) s

/-- The module loses its lock (R374, R381): no packet stays on a rotor path. -/
def State.unlock (s : State) : State :=
  ({ s with rotor := { s.rotor with lock := false } }).offRotor (fun _ _ => true) fun _ => true

/-- The flits of other modules' packets held here for relay, to a destination or to all (R376). -/
def State.relayFlits (s : State) (dst : Option Nat) : Nat :=
  let queued := s.links.flatMap fun nl => if nl.1 < 144 then [] else nl.2.queue.filter fun q => q.src != s.part.module
  (((s.rotor.relay ++ queued).filter fun q => match dst with | some d => q.dst == d | none => true).map pktFlits).foldl (· + ·) 0

/-- The relay credit this module gives each of its seven partners, in flits (R376, log 78): a seventh of what is free of 16 MiB, and of the
256 KiB of a destination. -/
def State.relayCredit (s : State) (dst : Option Nat) : Nat :=
  Nat.min ((65536 - s.relayFlits none) / 7) ((1024 - (match dst with | some d => s.relayFlits (some d) | none => 0)) / 7)

/-- A packet to relay arrives (R375 to R377): where the module is locked it is held, or queued for its destination where that is a partner of the
slot; else it takes the torus path. One beyond the relay buffers is dropped, and its source re-sends it. -/
def State.relayIn (s : State) (p : Packet) : State :=
  if !(s.rotor.en && s.rotor.lock) then s.toTorus p
  else if 65536 < s.relayFlits none + pktFlits p ∨ 1024 < s.relayFlits (some p.dst) + pktFlits p then s
  else match (s.planeOfNow p.dst).bind fun _ => s.planeLink p p.dst with
  | some (n, _) => s.enqueue n p
  | none => { s with rotor := { s.rotor with relay := s.rotor.relay ++ [p] } }

/-- The slot of a calendar whose seven partners are those received. -/
def slotMatch (cal : Tab Word) (idx : List Nat) : Option Nat :=
  (upFrom 0 73).find? fun n => (upFrom 0 7).all fun p => partner cal n p == idx.getD p 512

/-- The planes on which a dwell's indices match a slot. -/
def planesMatch (cal : Tab Word) (n : Nat) (idx : List Nat) (ok : Nat → Bool) : Bool :=
  (upFrom 0 7).all fun p => !ok p || partner cal n p == idx.getD p 512

/-- ROTSTAT's part of a dwell start (R374): the indices received decide the lock. Three dwells in a row whose indices match no slot set
CALERR (log 78). -/
def Rotor.dwell (r : Rotor) (idx : List Nat) (ok : Nat → Bool) : Rotor :=
  let m := slotMatch r.cal idx
  let fails := if m.isNone then r.fails + 1 else 0
  let r' : Rotor := { r with seen := m, slot := m.getD r.slot, fails := fails, calerr := r.calerr || decide (3 ≤ fails) }
  if !r.en then r
  else if r.lock then
    let want := (r.slot + 1) % 73
    if planesMatch r.cal want idx ok then { r with slot := want, seen := some want, fails := 0 } else { r' with lock := false }
  else match m with
    | some n => if r.seen = some ((n + 72) % 73) then { r' with lock := true } else r'
    | none => r'

/-- ROTOR_DWELL_START (R359, R370, R374, R376): the rotor links that are not DOWN or FAILED train with sequence numbers from 0; the ends
exchange their indices and relay credits; relayed packets held for a partner of the slot are queued for it. -/
def execRotorDwellStart (idx : List Nat) (credits : List (Nat × Nat × Nat)) (s : State) : Out :=
  if !s.part.hasRotor then .next s
  else
    let now := s.cycle.toNat
    let s := { s with links := (upFrom 144 112).foldl (fun ls n =>
      let l : Link := Tab.get Link.zero ls n
      let h := (upFrom 0 16).foldl (fun h k => if ((l.lanes.get Lane.zero k).failed : Bool) then h else h + 2 ^ k) 0
      if (l.stat == LStat.down || l.stat == LStat.failed) = true then ls
      else match widest h with
      | some (st, g) => Tab.put ls n ({ l with healthy := h }.begin_ st g now)
      | none => Tab.put ls n { l with healthy := h, stat := .training }) s.links }
    let ok (p : Nat) : Bool := (planeLinks p).any fun n => (s.linkAt n).stat.up
    let s := { s with rotor := { s.rotor with guard := false, start := now, credits := credits }.dwell idx ok }
    let s := if s.rotor.lock then s else s.unlock
    let mine : List Packet := if s.rotor.lock then s.rotor.relay.filter fun q => (s.planeOfNow q.dst).isSome else []
    let s := { s with rotor := { s.rotor with relay := s.rotor.relay.filter fun q => !mine.contains q } }
    let s := mine.foldl (fun s q => match s.planeLink q q.dst with
      | some (n, _) => s.enqueue n q
      | none => s.toTorus q) s
    let less := (once (s.rotor.relay.map fun q => q.dst)).map fun d => (d, s.relayCredit (some d))
    .next { s with msgs := s.msgs ++ (upFrom 0 7).map fun pl => .identity pl (rotorIndex s.part.module) (s.relayCredit none) less }

/-- ROTOR_GUARD_START (R359, R374, R377, R381, R382): all rotor links have been dark for 0.25 µs. Their unacknowledged
flits are discarded and their packets re-sent; packets still queued or held for a partner of the slot that ends take the torus. An enabled
module takes it as a guard; one that began more than 50 ns from its time loses the lock. -/
def execRotorGuardStart (s : State) : Out :=
  if !s.part.hasRotor then .next s
  else
    let r := s.rotor
    let began := s.cycle.toNat - 350
    let onTime := r.start + 3080 ≤ began + 70 && began ≤ r.start + 3080 + 70
    let lost := s.links.flatMap fun nl => if nl.1 < 144 then [] else nl.2.pending s.part.module
    let s := if r.en then { s with rotor := { r with guard := true, guardAt := began } } else s
    let s := if r.lock && onTime then
        s.offRotor (fun n p => groupModule s.part.module (partner r.cal r.slot (planeOf n)) == s.rotorHop p) fun q => (s.planeOfNow q.dst).isSome
      else s.unlock
    let s := { s with links := s.links.map fun nl => if nl.1 < 144 then nl else
      (nl.1, { nl.2 with sent := [], next := 0, stat := if nl.2.stat.up then .training else nl.2.stat }) }
    .next (lost.foldl (fun s p => s.resend p.dst p.seq) s)

/-- ROTOR_LOCK_TIMEOUT (R374, R381): no guard for 3 µs. -/
def execRotorLockTimeout (s : State) : Out :=
  .next (if s.rotor.lock ∧ s.rotor.guardAt + 4200 ≤ s.cycle.toNat then s.unlock else s)

end Sys2Proof.Machine
end

