-- ==== Sys2Proof/Machine/Pair.lean ====
section
/-! DEFINITION. End-to-end numbers: acknowledgements, re-sends, resets, and what arrives from other modules (R96, R116, R145,
R146, R379, R382, R397, R423). -/

namespace Sys2Proof.Machine

/-! ### This module as the source (R145, R146, R382) -/

/-- Sends what the window of a pair held back, once it fits (R146). -/
def State.refill (s : State) (tgt : Nat) : State :=
  let pr := s.e2eSrc.get ⟨0, true, [], []⟩ tgt
  pr.waiting.foldl (fun s u => s.sendOn u) { s with e2eSrc := s.e2eSrc.put tgt { pr with waiting := [] } }

/-- E2E_ACK_ARRIVAL (R145, R382): the acknowledgement of a packet, with its reply; of a refused one, with the cause, the
target's page state, and the byte offset of the refused part in the data; of a read of poisoned bytes, 0x150 with the bytes and then a
byte for each, not 0 where it is poisoned (R451, log 15). After one of a write the core's sleeping WAITEs read again (R261). -/
def execE2eAckArrival (tgt : BitVec 12) (seq : BitVec 32) (data : List Byte) (cause : BitVec 9) (pstate : BitVec 3)
    (s : State) : Out :=
  let m := tgt.toNat
  let pr := s.e2eSrc.get ⟨0, true, [], []⟩ m
  match pr.unacked.find? fun u => u.pkt.seq == seq.toNat with
  | none => .next s
  | some u =>
    let s := { s with e2eSrc := s.e2eSrc.put m { pr with unacked := pr.unacked.filter fun x => x.pkt.seq != seq.toNat } }
    let s := s.unqueue fun q => pktNumbered q && q.src == s.part.module && q.dst == m && q.seq == seq.toNat
    let s := match u.pkt.lease with
      | some n => { s with borrowers := s.borrowers.map fun (nb : Nat × Borrower) =>
          if nb.1 = n ∧ cause ≠ 0x159 then (n, { nb.2 with ackAt := s.cycle.toNat }) else nb }
      | none => s
    let ill := if cause = 0x150 ∧ u.pkt.op = .read then
        (upFrom 0 u.pkt.len).filter fun i => data.getD (u.pkt.len + i) 0 != 0
      else []
    let off := if cause = 0x089 then u.off + ofBytes data else u.off
    let va := if cause = 0x089 then u.va + BitVec.ofNat 64 (ofBytes data) else u.va
    let s := match u.held with
      | some id => s.replyHeld id off (if ill.isEmpty then data else data.take u.pkt.len) ill (if ill.isEmpty then cause.toNat else 0) pstate.toNat
      | none =>
        if cause = 0 ∨ (u.pkt.lease.isSome = true ∧ u.pkt.len = 0) then (match u.unit with
          | .ring n => s.recAcked n true
          | _ => s)
        else if u.done then s.ctxError u.ctx cause.toNat
        else s.reportUnit u.unit ⟨cause.toNat, memTval cause.toNat pstate.toNat va⟩
    let s := (s.refill m).settle
    .next (match u.pkt.op with
      | .write | .poisoned _ | .atomic _ _ | .remop _ => s.rereadFor u.unit
      | _ => s)

/-- LINKCFG.RESENDT in clocks (R363). -/
def State.resendClk (s : State) : Nat := Nat.max 1 (s.linkcfg.f 39 32) * 1400

/-- E2E_RESEND_TIMEOUT (R382): a packet that has stayed unacknowledged for RESENDT µs since it left is sent again, or given up after
eight. -/
def execE2eResendTimeout (tgt : BitVec 12) (seq : BitVec 32) (s : State) : Out :=
  let pr := s.e2eSrc.get ⟨0, true, [], []⟩ tgt.toNat
  match pr.unacked.find? fun u => u.pkt.seq == seq.toNat with
  | some u => .next (match u.sentAt with
    | some at_ => if at_ + s.resendClk ≤ s.cycle.toNat then (s.resend tgt.toNat seq.toNat).settle else s
    | none => s)
  | none => .next s

/-- RESET_NOTICE_ARRIVAL (R146): every unacknowledged access to the module raises 0x148, and the pair opens anew. -/
def execResetNoticeArrival (tgt : BitVec 12) (s : State) : Out :=
  let m := tgt.toNat
  let pr := s.e2eSrc.get ⟨0, true, [], []⟩ m
  let s := { s with e2eSrc := s.e2eSrc.put m ⟨0, true, [], []⟩ }
  let s := s.unqueue fun q => pktNumbered q && q.src == s.part.module && q.dst == m
  let s := pr.unacked.foldl (fun s u => s.losePacket u) s
  .next (pr.waiting.foldl (fun s u => s.sendOn u) s).settle

/-! ### This module as the target (R116, R145, R146, R379) -/

/-- The lender entry that serves an access of module `src` under a lease to an IA (R397). -/
def State.lendFor (s : State) (src lease : Nat) : Option (Nat × Lender) :=
  s.lenders.find? fun ml => (ml.2.stat == .active || ml.2.stat == .recalling) && ml.2.base.f 63 52 == src && ml.2.base.f 15 0 == lease

/-- Whether an IA lies in a lender entry's region (R395). -/
def Lender.covers (l : Lender) (ia : Nat) : Bool :=
  l.base.f 51 30 * 2 ^ 30 ≤ ia && ia < (l.base.f 51 30 + l.cfg.f 6 0) * 2 ^ 30

/-- EXPIRY after an access or a renewal (R396). -/
def Lender.renew (l : Lender) (now : Nat) : Lender :=
  { l with expiry := Nat.max l.expiry (now + 1400 * Nat.max 1000 (l.cfg.f 63 32)) }

/-- What a packet finds at an IA of this module (R116, R397). -/
def State.finder (s : State) (p : Packet) : Finder := fun ia a =>
  s.lookFor (fun x => match p.lease with
    | some n => (match s.lendFor p.src n with | some ml => ml.2.covers x | none => false)
    | none => false) ia a

/-- What a packet's access gives: a reply with its bytes, or with poisoned bytes and their marks (log 15), a refusal, nothing yet, or
nothing at all (R116, R416, R451). -/
inductive PktRes where
  | reply (data : List Byte)
  | tainted (data : List Byte)
  | refuse (cause st off : Nat)
  | wait
  | drop
deriving DecidableEq, Repr

/-- A read that arrived from another module: poison travels with the bytes (R451). -/
def State.tgtRead (s : State) (p : Packet) : PktRes :=
  let ls := (upFrom 0 p.len).map fun i => (⟨i, s.finder p (p.ia + i) .read, s.part.module, p.ia + i⟩ : ByteLook)
  let bad (b : ByteLook) : Bool := match b.look with
    | .poison _ => true
    | .mem l _ => s.mem.bad l
    | _ => false
  let plain := ls.map fun b => match b.look with
    | .poison k => { b with look := .zeros k }
    | _ => b
  match { s with mem := { s.mem with poison := [] } }.readLooks plain [] [] false with
  | .ok bs => if ls.any bad then .tainted (bs ++ ls.map fun b => BitVec.ofNat 8 (b2n (bad b))) else .reply bs
  | .err c o st => .refuse c st o
  | .xlat c o => .refuse c 0 o
  | .wait _ => .wait
  | .fault o => .refuse 0x089 0 o
  | .order => .wait
  | .remote _ => .refuse 0x089 5 0

/-- A write that arrived from another module, ill its poisoned bytes (R451): the parts that are served are performed; the lowest refused
one is named. -/
def State.tgtWrite (s : State) (p : Packet) (bs : List Byte) (ill : List Nat) : State × PktRes :=
  let ls := (upFrom 0 bs.length).map fun i => (⟨i, s.finder p (p.ia + i) .write, s.part.module, p.ia + i⟩ : ByteLook)
  if ls.any fun b => match b.look with | .wait _ => true | _ => false then (s, .wait)
  else
    let good := (ls.zip bs).filterMap fun x => x.1.look.loc?.map fun l => (l, x.2)
    let ias := (ls.filter fun b => b.look.loc?.isSome).map ByteLook.ia
    let marks := ls.filterMap fun b => b.look.loc?.map fun l => (l, ill.contains b.off)
    let s' := { s with mem := (s.mem.wrAll good).taint marks }.kick s p.src (p.unit, p.unitk) ias
    (s', match ls.find? fun b => b.look.loc?.isNone with
      | none => .reply []
      | some b => match b.look with
        | .err c st => .refuse c st b.off
        | .poison _ => .refuse 0x151 6 b.off
        | _ => .refuse 0x089 0 b.off)

/-- An atomic that arrived from another module. -/
def State.tgtAtomic (s : State) (p : Packet) (op : Nat) (ops : List Word) : State × PktRes :=
  match s.places (s.finder p) p.ia p.len .atomic (hostAtomic op) with
  | .ok ls =>
    let r := s.mem.atomic op ls ops
    (s.atomicDone r.2 p.src (p.unit, p.unitk) (upFrom p.ia p.len), .reply r.1)
  | .error (.fail c st) => (s, .refuse c st 0)
  | .error .wait => (s, .wait)
  | .error _ => (s, .refuse 0x089 0 0)

/-- A remote operation that arrived from another module, as the retriever image performs it (R278, R385). -/
def State.tgtRemop (s : State) (p : Packet) (block : List Byte) : State × PktRes :=
  match s.performRemop (s.finder p) [] (remopBlk block) p.ia (wordOf block 8).toNat with
  | (s', .done r bs out ias) =>
    (s'.remopDone s (.retr (s.part.home p.ia) 0) 0 p.src (p.unit, p.unitk) out ias, .reply (toBytes 8 r.toNat ++ bs))
  | (s, .fail c st) => (s, .refuse c st 0)
  | (s, .fault _ st _) => (s, .refuse 0x089 st 0)
  | (s, .wait) => (s, .wait)
  | (s, .away _ _ _ _) => (s, .refuse 0x089 5 0)

/-- Appends a row to a queue of this module (R423): the index, or 0xFFFFFFFF where the queue is full; or why it is not performed. -/
def State.appendTo (s : State) (find : Finder) (q src row : Nat) (u : Nat × Nat) (data : List Byte) : State × RemopRes :=
  match s.places find q 16 .atomic, s.places find (q + 16) 16 .read with
  | .ok hd, .ok tl =>
    let tail := s.mem.word (hd.take 8)
    let base := (s.mem.word (tl.take 8)).toNat % 2 ^ 52
    let cap := s.mem.word (tl.drop 8)
    if cap.toNat ≤ tail.toNat then (s, .done 0xFFFFFFFF [] [] [])
    else
      let at_ := base + tail.toNat * (data.length + 8)
      match s.places find at_ (data.length + 8) .write with
      | .ok ds =>
        let tag := BitVec.ofNat 64 (src * 2 ^ 52 + row % 2 ^ 32)
        let m := s.mem.setWord (hd.take 8) (tail + 1)
        let m := m.wrAll (ds.zip (toBytes 8 tag.toNat ++ data))
        let m := m.setWord (hd.drop 8) (m.word (hd.drop 8) + 1)
        ({ s with mem := m }.kick s src u (upFrom q 16 ++ upFrom at_ (data.length + 8)), .done tail [] [] [])
      | .error e => (s, e)
  | .error e, _ => (s, e)
  | _, .error e => (s, e)

/-- The same for a row that arrived from another module, with what its source is told. -/
def State.appendRow (s : State) (find : Finder) (q src row : Nat) (u : Nat × Nat) (data : List Byte) : State × PktRes :=
  match s.appendTo find q src row u data with
  | (s, .done r _ _ _) => (s, .reply (toBytes 4 r.toNat))
  | (s, .fail c st) => (s, .refuse c st 0)
  | (s, .wait) => (s, .wait)
  | (s, .fault _ st _) => (s, .refuse 0x089 st 0)
  | (s, .away _ _ _ _) => (s, .refuse 0x089 0 0)

/-- Performs a packet's access (R116, R145). -/
def State.performPkt (s : State) (p : Packet) : State × PktRes :=
  match p.op with
  | .read => (s, s.tgtRead p)
  | .write => s.tgtWrite p p.data []
  | .poisoned bad => s.tgtWrite p p.data bad
  | .atomic op ops => s.tgtAtomic p op ops
  | .remop block => s.tgtRemop p block
  | .appendRow row => s.appendRow (s.finder p) p.ia p.src row (p.unit, p.unitk) p.data
  | .discard => (s.discardRange p.ia p.len, .reply [])
  | .part | .ack _ _ _ => (s, .reply [])
  | .coll m => if s.collFull m then (s, .wait) else if s.collDrops m then (s, .drop) else (s.collDeliver m, .reply [])

/-- Whether number a is later than b, or the same, in serial order (R146). -/
def notBefore (a b : Nat) : Bool := decide ((a + 2 ^ 32 - b) % 2 ^ 32 < 2 ^ 31)

/-- Whether a number is a duplicate (R146): performed, or 2^24 or more below the latest. -/
def E2ETgt.dup (t : E2ETgt) (n : Nat) : Bool :=
  t.done.contains n || (!t.done.isEmpty && notBefore t.latest n && decide (2 ^ 24 ≤ (t.latest + 2 ^ 32 - n) % 2 ^ 32))

/-- Records a performed number with its reply; numbers and replies 2^24 or more below the latest are dropped (R146). -/
def E2ETgt.record (t : E2ETgt) (r : Reply) : E2ETgt :=
  let latest := if t.done.isEmpty || notBefore r.seq t.latest then r.seq else t.latest
  let near (n : Nat) : Bool := (latest + 2 ^ 32 - n) % 2 ^ 32 < 2 ^ 24
  { t with latest := latest, done := (t.done ++ [r.seq]).filter near, replies := (t.replies ++ [r]).filter fun x => near x.seq }

/-- An acknowledgement with its reply, of a retriever's (R145, R357): class 1, with the number of its access. -/
def ackPkt (own src seq : Nat) (data : List Byte) (cause pstate : Nat) (reset : Bool) : Packet :=
  { newPkt own src 1 (0, 2) (.ack data cause pstate) 0 data.length [] none with seq := seq, reset := reset }

/-- Sends an acknowledgement (R145). -/
def State.ackTo (s : State) (src : Nat) (r : Reply) : State :=
  { s with outq := s.outq ++ [ackPkt s.part.module src r.seq r.data r.cause r.pstate false] }

/-- Accepts a packet whose predecessor is performed: performs and acknowledges it, or keeps it while its page migrates
(R116). An access under a lease that is served renews its term (R396). -/
def State.accept (s : State) (p : Packet) : State :=
  let refuse : Bool := match p.lease with
    | some n => (s.lendFor p.src n).isNone
    | none => false
  let served (s : State) : State := match p.lease with
    | some n => { s with lenders := s.lenders.map fun ml =>
        if (s.lendFor p.src n).map (·.1) = some ml.1 then (ml.1, ml.2.renew s.cycle.toNat) else ml }
    | none => s
  let r := if refuse then (s, PktRes.refuse 0x159 0 0) else s.performPkt p
  let fin (s : State) (rep : Reply) : State :=
    let t := s.e2eTgt.get ⟨0, [], [], none⟩ p.src
    ({ s with e2eTgt := s.e2eTgt.put p.src (t.record rep) }).ackTo p.src rep
  match r with
  | (s, .reply d) => fin (served s) ⟨p.seq, d, 0, 0⟩
  | (s, .tainted d) => fin (served s) ⟨p.seq, d, 0x150, 0⟩
  | (s, .refuse c st o) => fin s ⟨p.seq, if c = 0x089 then toBytes 2 o else [], c, st⟩
  | (s, .drop) => s
  | (s, .wait) =>
    if s.tgtWait.any fun q => q.src == p.src && q.seq == p.seq then s else { s with tgtWait := s.tgtWait ++ [p] }

/-- A pair that a packet opens (R146): the state held for the source is discarded; the re-send of the packet that opened the pair
does not open it again (R145, log 44). -/
def State.openPair (s : State) (p : Packet) : State :=
  let same : Bool := match s.e2eTgt.get? p.src with
    | some t => t.opener == some { p with relayed := false }
    | none => false
  if !p.isOpen || same then s
  else { s with
    e2eTgt := s.e2eTgt.put p.src ⟨p.seq, [], [], some { p with relayed := false }⟩
    tgtWait := s.tgtWait.filter fun q => q.src != p.src }

/-- PACKET_ARRIVAL_AT_TARGET (R145, R146, R375, R379): a packet for this module is performed once, in its flow's order; one
for another module is relayed, or goes on its way on the torus; an acknowledgement or a reset notice is taken as such. -/
def execPacketArrivalAtTarget (p : Packet) (s : State) : Out :=
  if p.dst ≠ s.part.module then
    if p.relayed && s.part.hasRotor then .next (s.relayIn p)
    else .next { s with outq := s.outq ++ [p] }
  else match p.op with
  | .ack data cause pstate =>
    if p.reset then execResetNoticeArrival (BitVec.ofNat 12 p.src) s
    else execE2eAckArrival (BitVec.ofNat 12 p.src) (BitVec.ofNat 32 p.seq) data (BitVec.ofNat 9 cause) (BitVec.ofNat 3 pstate) s
  | _ =>
    let s := s.openPair p
    match s.e2eTgt.get? p.src with
    | none => .next { s with outq := s.outq ++ [ackPkt s.part.module p.src p.seq [] 0 0 true] }
    | some t =>
      if t.dup p.seq then
        .next (s.ackTo p.src ((t.replies.find? fun r => r.seq == p.seq).getD ⟨p.seq, [], 0, 0⟩))
      else if (match p.pred with | some q => !t.dup q | none => false) then .next s
      else .next (s.accept p).settle

/-- Performs the packets that waited for a migration, those performed meanwhile apart (R106, R116, R145). -/
def State.retryPkts (s : State) : State :=
  let fresh (s : State) (p : Packet) : Bool := !((s.e2eTgt.get ⟨0, [], [], none⟩ p.src).dup p.seq)
  s.tgtWait.foldl (fun s p => if fresh s p then s.accept p else s) { s with tgtWait := [] }

/-- APPEND_ROW_ARRIVAL (R423): a row arrives outside a packet of this model: the retriever that is home of TAIL performs it. -/
def execAppendRowArrival (q : BitVec 52) (src : BitVec 12) (row : BitVec 32) (data : List Byte) (s : State) : Out :=
  .next (s.appendRow s.lookIA q.toNat src.toNat row.toNat (0, 3) data).1.settle

end Sys2Proof.Machine
end

