-- ==== Sys2Proof/Machine/Lease.lean ====
section
/-! DEFINITION. Leases of LPDDR6 between modules: lender and borrower entries (R395 to R401). -/

namespace Sys2Proof.Machine

/-- A lender entry. -/
def State.lender (s : State) (m : Nat) : Lender := s.lenders.get .zero m
/-- Replaces a lender entry. -/
def State.setLender (s : State) (m : Nat) (l : Lender) : State := { s with lenders := s.lenders.put m l }
/-- A borrower entry. -/
def State.borrower (s : State) (n : Nat) : Borrower := s.borrowers.get .zero n
/-- Replaces a borrower entry. -/
def State.setBorrower (s : State) (n : Nat) (b : Borrower) : State := { s with borrowers := s.borrowers.put n b }
/-- Sends a message of a unit. -/
def State.say (s : State) (m : OutMsg) : State := { s with msgs := s.msgs ++ [m] }

/-! ### The lender (R396, R398) -/

/-- BORROWER of a lender entry. -/
def Lender.to (l : Lender) : Nat := l.base.f 63 52
/-- LEASE of a lender entry. -/
def Lender.lease (l : Lender) : Nat := l.base.f 15 0
/-- TERM in µs, at least 1,000. -/
def Lender.term (l : Lender) : Nat := Nat.max 1000 (l.cfg.f 63 32)

/-- The leaves of a region of `n` GiB from an IA that satisfy a condition, with the address each was read from and its IA;
nothing where some GiB has no such leaf wholly inside the region. -/
def State.regionLeaves (s : State) (lo hi : Nat) (ok : Word → Bool) : Nat → Nat → Option (List (Word × Nat × Nat))
  | 0, ia => if hi ≤ ia then some [] else none
  | k + 1, ia =>
    if hi ≤ ia then some []
    else match s.walk ia with
      | .leaf e a =>
        let p := leafSize e
        let base := ia / p * p
        if ok e && 2 ^ 30 ≤ p && lo ≤ base && base + p ≤ hi then
          (s.regionLeaves lo hi ok k (base + p)).map fun l => (e, a, ia) :: l
        else none
      | _ => none

/-- The first and the last IA of a lender's region. -/
def Lender.region (l : Lender) : Nat × Nat := (l.base.f 51 30 * 2 ^ 30, (l.base.f 51 30 + l.cfg.f 6 0) * 2 ^ 30)

/-- Changes leaves by R104, all of them or none. -/
def State.swapAll (s : State) (new : Word → Word) : List (Word × Nat × Nat) → State × Bool
  | [] => (s, true)
  | (e, a, ia) :: rest => match s.swapLeaf e (new e) a ia with
    | (s', true) => (match s'.swapAll new rest with
      | (s'', true) => (s'', true)
      | (_, false) => (s, false))
    | (_, false) => (s, false)

/-- The lent leaves of a lender's region return to RESIDENT (R398). -/
def State.unlend (s : State) (m : Nat) : State :=
  let r := (s.lender m).region
  (upFrom 0 64).foldl (fun s k =>
    let ia := r.1 + k * 2 ^ 30
    if r.2 ≤ ia then s
    else match s.walk ia with
      | .leaf e a => if e.f 61 59 = 4 then (s.swapLeaf e (e.setF 61 59 0) a ia).1 else s
      | _ => s) s

/-- LLCMD_GRANT (R398). -/
def execLlcmdGrant (m : BitVec 8) (s : State) : Out := s.command (
  let k := m.toNat
  let l := s.lender k
  if l.stat ≠ .free then .next s
  else
    let r := l.region
    let ls := if l.to = s.part.module ∨ l.cfg.f 6 0 = 0 ∨ 64 < l.cfg.f 6 0 then none
      else s.regionLeaves r.1 r.2 (fun e => e.f 61 59 == 0 && !e.b 52) 65 r.1
    match ls with
    | none => .next (s.setLender k { l with result := 2 })
    | some ls => match s.swapAll (fun e => e.setF 61 59 4) ls with
      | (_, false) => .next (s.setLender k { l with result := 2 })
      | (s, true) =>
        .next ((s.setLender k { l with stat := .granting, lapsed := false, at_ := s.cycle.toNat }).say
          (.grant l.to l.lease k (l.base.f 51 30) l.term (l.cfg.f 6 0))))

/-- LLCMD_RECLAIM (R398). -/
def execLlcmdReclaim (m : BitVec 8) (s : State) : Out := s.command (
  let l := s.lender m.toNat
  if l.stat ≠ .active then .next s
  else .next ((s.setLender m.toNat { l with stat := .recalling, lapsed := false, at_ := s.cycle.toNat }).say
    (.notice l.to l.lease false)))

/-- LEASE_ACCEPT_ARRIVAL (R396, R398). -/
def execLeaseAcceptArrival (m : BitVec 8) (s : State) : Out :=
  let l := s.lender m.toNat
  if l.stat ≠ .granting then .next s
  else .next (s.setLender m.toNat { l with stat := .active, result := 1, expiry := s.cycle.toNat + 1400 * l.term })

/-- Ends a lease at the lender: the leaves are RESIDENT again. -/
def State.endLease (s : State) (m result : Nat) : State :=
  let s := s.unlend m
  (s.setLender m { s.lender m with stat := .free, result := result }).settle

/-- LEASE_REFUSAL_ARRIVAL (R398). -/
def execLeaseRefusalArrival (m : BitVec 8) (s : State) : Out :=
  .next (if (s.lender m.toNat).stat = .granting then s.endLease m.toNat 3 else s)

/-- LEASE_GRANT_TIMEOUT (R398): no answer within 1 ms. -/
def execLeaseGrantTimeout (m : BitVec 8) (s : State) : Out :=
  let l := s.lender m.toNat
  .next (if l.stat = .granting ∧ l.at_ + 1400000 ≤ s.cycle.toNat then s.endLease m.toNat 3 else s)

/-- LEASE_TERM_EXPIRY (R396, R398). -/
def execLeaseTermExpiry (m : BitVec 8) (s : State) : Out :=
  let l := s.lender m.toNat
  if l.stat = .active ∧ l.expiry ≤ s.cycle.toNat then
    .next ((s.setLender m.toNat { l with stat := .recalling, lapsed := true, at_ := s.cycle.toNat }).say
      (.notice l.to l.lease true))
  else .next s

/-- LEASE_RENEWAL_ARRIVAL (R396). -/
def execLeaseRenewalArrival (m : BitVec 8) (s : State) : Out :=
  let l := s.lender m.toNat
  .next (if l.stat = .active ∨ l.stat = .recalling then s.setLender m.toNat (l.renew s.cycle.toNat) else s)

/-- EVICTION_REPORT_ARRIVAL (R398). -/
def execEvictionReportArrival (m : BitVec 8) (rel : Bool) (s : State) : Out :=
  let l := s.lender m.toNat
  .next (if l.stat = .recalling then s.endLease m.toNat (if rel then 7 else if l.lapsed then 6 else 4)
    else if l.stat = .active ∧ rel = true then s.endLease m.toNat 7
    else s)

/-- RECLAIM_FORCE_TIMEOUT (R398): no report 560,000 clk after the notice. -/
def execReclaimForceTimeout (m : BitVec 8) (s : State) : Out :=
  let l := s.lender m.toNat
  .next (if l.stat = .recalling ∧ l.at_ + 560000 ≤ s.cycle.toNat then s.endLease m.toNat 5 else s)

/-! ### The borrower (R396, R398 to R401) -/

/-- LENDER of a borrower entry. -/
def Borrower.of (b : Borrower) : Nat := b.src.f 63 52

/-- BLCMD_EXPECT (R398). -/
def execBlcmdExpect (n : BitVec 10) (s : State) : Out := s.command (
  let b := s.borrower n.toNat
  .next (if b.stat = .free then s.setBorrower n.toNat { b with stat := .expect } else s))

/-- Begins an eviction (R398, R401): each task may have its event once. -/
def Borrower.evict (b : Borrower) (lapsed rel : Bool) : Borrower :=
  { b with stat := .evicting, lapsed := lapsed, rel := rel, unmapped := false, told := [] }

/-- BLCMD_RELEASE (R398). -/
def execBlcmdRelease (n : BitVec 10) (s : State) : Out := s.command (
  let b := s.borrower n.toNat
  .next (if b.stat = .active then s.setBorrower n.toNat (b.evict false true) else s))

/-- Whether any context binds a lease (R90, R398). -/
def State.bound (s : State) (n : Nat) : Bool :=
  s.ctxs.any fun nc => nc.2.leasebind.any fun kw => kw.2.b 63 && kw.2.f 15 0 == n

/-- BLCMD_CLEAR (R398). -/
def execBlcmdClear (n : BitVec 10) (s : State) : Out := s.command (
  let b := s.borrower n.toNat
  .next (if b.stat = .demoted ∧ s.bound n.toNat = false then s.setBorrower n.toNat { b with stat := .free } else s))

/-- LEASE_GRANT_ARRIVAL (R398): accepted where the entry expects this lender and region. -/
def execLeaseGrantArrival (n : BitVec 10) (lender : BitVec 12) (lia : BitVec 22) (term : BitVec 32) (pages : BitVec 7)
    (s : State) : Out :=
  let b := s.borrower n.toNat
  if b.stat = .expect ∧ b.of = lender.toNat ∧ b.src.f 51 30 = lia.toNat then
    .next ((s.setBorrower n.toNat { b with
      stat := .active, term := term.toNat, pages := pages.toNat, rel := false, unmapped := false
      ackAt := s.cycle.toNat, renewAt := s.cycle.toNat }).say (.accept lender.toNat n.toNat))
  else .next (s.say (.refuse lender.toNat n.toNat))

/-- LEASE_RENEWAL_SEND (R396): nothing of the lease acknowledged for TERM/4. The renewal travels as a write of no bytes
under the lease, so that its acknowledgement counts (log 16). -/
def execLeaseRenewalSend (n : BitVec 10) (s : State) : Out :=
  let b := s.borrower n.toNat
  let now := s.cycle.toNat
  let q := b.term * 1400 / 4
  if b.stat = .active ∧ b.ackAt + q ≤ now ∧ b.renewAt + q ≤ now then
    let (id, s) := (s.setBorrower n.toNat { b with renewAt := now }).freshId
    .next (s.sendPkt ⟨.retr 0 0, 0, 0, id, 2, none, 0, false, none⟩
      (newPkt s.part.module b.of 3 (0, 2) .write (b.src.f 51 30 * 2 ^ 30) 0 [] (some n.toNat)))
  else .next s

/-- LEASE_LAPSE (R396): nothing acknowledged for TERM. -/
def execLeaseLapse (n : BitVec 10) (s : State) : Out :=
  let b := s.borrower n.toNat
  .next (if b.stat = .active ∧ b.ackAt + b.term * 1400 ≤ s.cycle.toNat then s.setBorrower n.toNat (b.evict true false) else s)

/-- RECLAIM_NOTICE_ARRIVAL (R398, R399). -/
def execReclaimNoticeArrival (n : BitVec 10) (lapsed : Bool) (s : State) : Out :=
  let b := s.borrower n.toNat
  .next (if b.stat = .active then s.setBorrower n.toNat (b.evict lapsed false) else s)

/-- The leaf that replaces a BORROWED one, of page k of the region (R399, step 1). -/
def Borrower.fallLeaf (b : Borrower) (e : Word) (k : Nat) : Word :=
  if b.fall.b 63 then (((e.setF 61 59 0).setF 52 52 (b2n (b.fall.b 62))).setF 51 12 ((b.fall.f 51 30 + k) * 2 ^ 18))
  else e.setF 63 63 0

/-- Step 1 of an eviction (R399): every BORROWED leaf of the region is rewritten. -/
def State.unmapLease (s : State) (n : Nat) : State :=
  let b := s.borrower n
  let base := b.src.f 29 8
  let s := (upFrom 0 b.pages).foldl (fun s k =>
    let ia := (base + k) * 2 ^ 30
    match s.walk ia with
    | .leaf e a => if e.f 61 59 = 5 then (s.swapLeaf e (b.fallLeaf e k) a ia).1 else s
    | _ => s) s
  s.setBorrower n { b with unmapped := true }

/-- Whether an access of a lease is not acknowledged (R399, step 2). -/
def State.leaseBusy (s : State) (n : Nat) : Bool :=
  s.e2eSrc.any fun p => (p.2.unacked ++ p.2.waiting).any fun u => u.pkt.lease == some n

/-- EVICTION_COMPLETE (R399): step 1, then, once every access of the lease is acknowledged, the report. -/
def execEvictionComplete (n : BitVec 10) (s : State) : Out :=
  let b := s.borrower n.toNat
  if b.stat ≠ .evicting then .next s
  else
    let s := if b.unmapped then s else (s.unmapLease n.toNat).settle
    if s.leaseBusy n.toNat then .next s
    else
      let b := s.borrower n.toNat
      .next ((s.setBorrower n.toNat { b with stat := if b.rel then .free else .demoted }).say (.report b.of n.toNat b.rel))

/-- Releases the leases that a context which is destroyed binds and no other context does (R83, R398). A LEASEBIND that a destroyed
context still holds, for only CREATE clears it, counts as a binding (log 45). -/
def State.releaseLeases (s : State) (c : Nat) : State :=
  let mine := (s.ctxAt c).leasebind.filterMap fun kw => if kw.2.b 63 then some (kw.2.f 15 0) else none
  let others (n : Nat) : Bool := s.ctxs.any fun nc => nc.1 != c && nc.2.leasebind.any fun kw => kw.2.b 63 && kw.2.f 15 0 == n
  mine.foldl (fun s n =>
    let b := s.borrower n
    if b.stat = .active ∧ others n = false then s.setBorrower n (b.evict false true) else s) s

end Sys2Proof.Machine
end

