-- ==== Sys2Proof/Machine/Retriever.lean ====
section
/-! DEFINITION. Retriever threads, their packets, and page migration (R105, R106, R384 to R394). -/

namespace Sys2Proof.Machine

/-! ### Threads (R390) -/

/-- The registers of thread t of retriever r. -/
def State.rtAt (s : State) (r t : Nat) : RetrThread := s.rts.get .zero (r * 8 + t)

/-- Replaces them. -/
def State.setRt (s : State) (r t : Nat) (x : RetrThread) : State := { s with rts := s.rts.put (r * 8 + t) x }

/-- Retrievers of the part: CAP.MEMCH / 8 (R12). -/
def Part.retrievers (p : Part) : Nat := p.memch / 8

/-- The thread in focus. -/
def State.rt (s : State) : RetrThread := s.rtAt (s.iss.core - 1024) s.iss.slot

/-- A thread that starts (R153, R387, R390): every register cleared, 64 V registers, at RTENTRY. -/
def newThread (ctx : Nat) (entry : Word) : Task :=
  { Task.empty with
    place := { Place.zero with ctx := ctx, vregs := 64 }
    stat := .ready
    pc := pcBits entry
    tile := { TileRegs.zero with ze := (upFrom 0 32).map fun n => (n, zeEmpty) } }

/-- RT_THREAD_START (R390): RTCTL.EN := 1 of a thread 1 to 7 that is not enabled. -/
def execRtThreadStart (r : BitVec 4) (t : BitVec 3) (s : State) : Out := s.command (
  let x := s.rtAt r.toNat t.toNat
  if t = 0 ∨ s.part.retrievers ≤ r.toNat ∨ x.ctl.b 63 = true then .next s
  else .next ((s.setRt r.toNat t.toNat { x with ctl := x.ctl.setF 63 63 1, stat := 1, cause := 0 }).setTaskAt (1024 + r.toNat)
    t.toNat (newThread (x.ctl.f 3 0) x.entry)))

/-- Changes the task of a thread that is not OFF (R390). -/
def State.onThread (s : State) (r t : Nat) (f : Task → Task) : State :=
  if (s.rtAt r t).stat = 0 then s else s.setTaskAt (1024 + r) t (f (s.taskAt (1024 + r) t))

/-- Takes a thread off (R83, R390): what it awaits is dropped with it; its inbox stays. -/
def State.stopThread (s : State) (r t : Nat) : State :=
  let x := s.rtAt r t
  { s.setRt r t { x with ctl := x.ctl.setF 63 63 0, stat := 0 } with
    tasks := s.tasks.del (taskKey (1024 + r) t)
    held := s.held.filter fun h => h.unit != .retr r t }

/-- RT_THREAD_STOP (R390): the thread stops before its next bundle. -/
def execRtThreadStop (r : BitVec 4) (t : BitVec 3) (s : State) : Out := s.command (
  .next (if t = 0 ∨ (s.rtAt r.toNat t.toNat).ctl.b 63 = false then s else s.stopThread r.toNat t.toNat))

/-! ### Packets (R392, R393) -/

/-- The bytes of a packet as PKGET copies them (R392): a kick's 32; a REMOP's 160, whose format the retriever image defines
(log 4). -/
def RPkt.bytes (p : RPkt) : List Byte :=
  if p.remop then (upFrom 0 160).map (Config.remopByte p.id)
  else toBytes 8 (2 ^ 60 + p.src * 2 ^ 48 + p.unit % 1024 * 2 ^ 38 + p.unitk % 16 * 2 ^ 34 + p.id) ++ toBytes 8 p.old.toNat
    ++ toBytes 8 p.new.toNat ++ toBytes 8 p.count

/-- KIND of a packet (R392). -/
def RPkt.kind (p : RPkt) : Nat := if p.remop then Config.remopKind.toNat else 1

/-- PKGET (R393): the oldest packet to SRAM; it stays in the inbox. -/
def execPkget (d : Dst) (a : Src) (s : State) : Out :=
  let t := s.task
  let at_ := (t.srcG a).toNat % 2 ^ 18
  let s := s.touch [a]
  match s.rt.inbox with
  | [] => .next (s.retG d 4 0)
  | p :: _ =>
    let bs := p.bytes
    if (t.srcG a).toNat % 32 ≠ 0 then .next (s.raise 0x08C (memTval 0x08C 0 (t.srcG a)))
    else if !s.inShare at_ bs.length then .next (s.raise 0x083 (s.sramTval (t.srcG a) bs.length))
    else .next (((s.sramWrite at_ bs).noteSram at_ bs.length).retG d 4 (BitVec.ofNat 64 (p.kind * 2 ^ 60 + bs.length * 2 ^ 32 + p.id)))

/-- The packet of the thread's inbox that an operand names (R393). -/
def RetrThread.packet (x : RetrThread) (w : Word) : Option RPkt := x.inbox.find? fun p => p.id == w.f 31 0

/-- Takes a packet out of the inbox of the thread in focus. -/
def State.dropPacket (s : State) (p : RPkt) : State :=
  let x := s.rt
  s.setRt (s.iss.core - 1024) s.iss.slot { x with inbox := x.inbox.erase p }

/-- Replies to the issuer of a REMOP (R145, R278): one of this module, or of another, whose reply is recorded. -/
def State.replyRemop (s : State) (p : RPkt) (bs : List Byte) : State :=
  match p.held with
  | some id => (match s.held.find? fun (h : Held) => h.id == id with
    | some h => (match h.req with
      | .remop _ gv =>
        let w := s.writeVA h.ctx h.unit (gv + 96) (bs.drop 8) false false
        (w.1.reportUnits h.unit w.2).answer h (.done (imgBytes (bs.take 8)))
      | _ => s)
    | none => s)
  | none =>
    let r : Reply := ⟨p.seq, bs, 0, 0⟩
    { s with e2eTgt := s.e2eTgt.put p.src ((Tab.get (⟨0, [], [], none⟩ : E2ETgt) s.e2eTgt p.src).record r) }.ackTo p.src r

/-- PKREPLY (R393). -/
def execPkreply (a b : Src) (s : State) : Out :=
  let t := s.task
  let at_ := (t.srcG b).toNat % 2 ^ 18
  let s := s.touch [a, b]
  match (s.rt.packet (t.srcG a)).filter (·.remop) with
  | none => .next (s.raise 0x055)
  | some p =>
    if (t.srcG b).toNat % 32 ≠ 0 then .next (s.raise 0x08C (memTval 0x08C 0 (t.srcG b)))
    else if !s.inShare at_ 40 then .next (s.raise 0x083 (s.sramTval (t.srcG b) 40))
    else .next ((s.replyRemop p (s.sramRead at_ 40)).dropPacket p)

/-- PKFWD (R393): to thread 0 of another retriever. -/
def execPkfwd (a b : Src) (s : State) : Out :=
  let t := s.task
  let k := (t.srcG b).f 3 0
  let s := s.touch [a, b]
  match (s.rt.packet (t.srcG a)).filter (·.remop) with
  | none => .next (s.raise 0x055)
  | some p =>
    if s.part.retrievers ≤ k ∨ 1024 + k = s.iss.core then .next (s.raise 0x055)
    else
      let s := s.dropPacket p
      let u := s.rtAt k 0
      let id := ((upFrom 0 (u.inbox.length + 1)).find? fun i => !u.inbox.any fun q => q.id == i).getD 0
      .next (s.setRt k 0 { u with inbox := u.inbox ++ [{ p with id := id }] })

/-- PKDONE (R393): a REMOP is refused at its issuer. -/
def execPkdone (a b : Src) (s : State) : Out :=
  let t := s.task
  let c := (t.srcG b).f 8 0
  let s := s.touch [a, b]
  match s.rt.packet (t.srcG a) with
  | none => .next (s.raise 0x055)
  | some p =>
    if p.remop then
      let cz := if c = 0x055 ∨ c = 0x083 ∨ c = 0x089 ∨ c = 0x08C then c else 0x089
      let s := match p.held with
        | some id => (match s.held.find? fun (h : Held) => h.id == id with
          | some h => s.answer h (.fail cz (memTval cz 0 (h.req.addr 128)))
          | none => s)
        | none => s.ackTo p.src ⟨p.seq, [], cz, 0⟩
      .next (s.dropPacket p)
    else if c ≠ 0 then .next (s.raise 0x055)
    else .next (s.dropPacket p)

/-! ### Migration (R105, R106, R117, R394) -/

/-- The migration block of a retriever. -/
def State.migAt (s : State) (r : Nat) : Migration := s.migs.get .zero r

/-- Replaces it. -/
def State.setMig (s : State) (r : Nat) (m : Migration) : State := { s with migs := s.migs.put r m }

/-- Whether a page is home at controller r (R94): a controller that serves one of its addresses. -/
def State.pageHome (s : State) (ia r : Nat) : Bool :=
  let base := s.pageBase ia
  let n := match s.walk ia with | .leaf e _ => leafSize e | _ => 4096
  (upFrom 0 (Nat.min s.part.retrievers (n / 4096))).any fun k => s.part.home (base + 4096 * k) == r

/-- MIGGO (R105, R394): the page's leaf becomes MIGRATING, CF naming its old form; for a page of another controller nothing is done
(log 46). -/
def execMiggo (r : BitVec 4) (s : State) : Out := s.command (
  let m := s.migAt r.toNat
  if m.busy ∨ s.part.retrievers ≤ r.toNat ∨ s.pageHome (m.src.f 51 12 * 4096) r.toNat = false then .next s
  else
    let ia := m.src.f 51 12 * 4096
    match s.walk ia with
    | .leaf e a =>
      let st := e.f 61 59
      if st ≠ 0 ∧ st ≠ 2 then .next (s.setMig r.toNat { m with result := 2 })
      else
        let new := (e.setF 61 59 1).setF 8 8 (b2n (st == 2))
        match s.swapLeaf e new a ia with
        | (s, true) => .next (s.setMig r.toNat { m with
            busy := true, result := 0, leaf := new, at_ := a - 8 * (ia % leafSize e / leafSpan e), discard := false })
        | (s, false) => .next (s.setMig r.toNat { m with result := 1 })
    | _ => .next (s.setMig r.toNat { m with result := 2 }))

/-- The code of a byte value: its length and its bits (R346). -/
def codeOf (lens : List Nat) (v : Nat) : Nat × Nat :=
  let l := lens.getD v 0
  (l, codeStart lens l + (symsOf lens l).idxOf v)

/-- Packs codes most significant bit first into a number of so many bits. -/
def packCodes (lens : List Nat) : List Byte → Nat → Nat → Nat × Nat
  | [], acc, n => (acc, n)
  | b :: bs, acc, n => let c := codeOf lens b.toNat; packCodes lens bs (acc * 2 ^ c.1 + c.2) (n + c.1)

/-- The bytes of n bits, first bit in bit 7 of the first byte. -/
def bitBytes (x n : Nat) : List Byte :=
  let k := (n + 7) / 8
  (toBytes k (x * 2 ^ (8 * k - n))).reverse

/-- The image of a page in compressed form (R117, R346), or the RESULT that refuses it: 4 for a malformed table or one without
a code for a byte that occurs, 3 for an image larger than the page. -/
def pageImage (table bs : List Byte) : Except Nat (List Byte) :=
  let lens := codeLens table
  if tableBad lens || bs.any fun b => lens.getD b.toNat 0 == 0 then .error 4
  else
    let p := packCodes lens bs 0 0
    let img := table ++ toBytes 4 p.2 ++ bitBytes p.1 p.2
    if bs.length < img.length ∨ 2 ^ 32 ≤ p.2 then .error 3 else .ok img

/-- The content of a page in its old form, or the RESULT that refuses it: 5 for a poisoned line, 4 for an image that does not
decode. -/
def State.pageBytes (s : State) (e : Word) : Except Nat (List Byte) :=
  let out : Loc := if e.b 52 then .host (e.f 51 12 * 4096) else .dram (e.f 51 12 * 4096)
  let p := leafSize e
  if e.b 8 then
    match s.mem.decodedBytes out 0 p with
      | .ok bs used => if (s.mem.badFrom out (132 + (used + 7) / 8)).isSome then .error 5 else .ok bs
      | .fail _ _ => if (s.mem.badFrom out 132).isSome then .error 5 else .error 4
  else
    let ls := (upFrom 0 p).map fun k => out.plus k
    if ls.any s.mem.bad then .error 5 else .ok (ls.map s.mem.rd)

/-- MIGRATION_COMPLETE (R105, R106, R394): the new image is written, the leaf rewritten, and what waited goes on; any other
result leaves the leaf as it was, but for a PGDISC that waited, which takes the page then (R105 does not say, log 46). -/
def execMigrationComplete (r : BitVec 4) (s : State) : Out :=
  let m := s.migAt r.toNat
  if !m.busy then .next s
  else
    let ia := m.src.f 51 12 * 4096
    let e := m.leaf
    let cmp := m.dst.b 62
    let here := m.at_ + 8 * (ia % leafSize e / leafSpan e)
    let back := (e.setF 61 59 (if e.b 8 then 2 else 0)).setF 8 8 0
    let img : Except Nat (List Byte) := match s.pageBytes e with
      | .error x => .error x
      | .ok bs => if cmp && (s.mem.badFrom (.dram (m.tab.f 51 0)) 128).isSome then .error 5 else if cmp then pageImage ((upFrom (m.tab.f 51 0) 128).map fun a => s.mem.rd (.dram a)) bs else .ok bs
    let done (s : State) (result : Nat) : Out :=
      .next ((s.setMig r.toNat { m with busy := false, result := result, discard := false }).settle.retryPkts)
    match img with
    | .error x => done (s.swapLeaf e (if m.discard then back.setF 61 59 3 else back) here ia).1 x
    | .ok bs =>
      let out : Loc := if m.dst.b 63 then .host (m.dst.f 51 12 * 4096) else .dram (m.dst.f 51 12 * 4096)
      let st := if m.discard then 3 else if cmp then 2 else 0
      let new := (((e.setF 61 59 st).setF 8 8 0).setF 52 52 (b2n (m.dst.b 63))).setF 51 12 (m.dst.f 51 12)
      let mem := s.mem.wrAll (((upFrom 0 bs.length).map fun k => out.plus k).zip bs)
      match { s with mem := mem }.swapLeaf e new here ia with
      | (s, true) => done s 0
      | (s, false) => done s 1

end Sys2Proof.Machine
end

