-- ==== Sys2Proof/Machine/Coll.lean ====
section
/-! DEFINITION. Collectives: the COLL commands, the checks of a herder program, its steps, the messages between herders, the
SAR of the routers, failure and status, the log (R403 to R426). -/

namespace Sys2Proof.Machine

/-! ### The checks of a program (R410 to R414) -/

/-- The check of one step of a program (R410, R411, R414). -/
def CStep.bad (x : CStep) : Bool :=
  let peer := 1 ≤ x.kind && x.kind ≤ 5
  let typed := x.kind == 3 || x.kind == 4 || x.kind == 5 || x.kind == 13
  let msg := 1 ≤ x.kind && x.kind ≤ 6
  let logs := x.kind == 2 || x.kind == 5 || x.kind == 6 || x.kind == 11 || x.kind == 13
  x.zero0 != 0
  || 14 ≤ x.kind
  || (if typed then x.op == 3 || x.ty == 3 else x.op != 0 || x.ty != 0)
  || (x.log && !logs)
  || (if peer then x.pmode == 0 && x.dim == 3 else x.pmode != 0 || x.dim != 0 || x.neg || x.cuse || x.stride != 0)
  || (x.fan != 0 && x.kind != 5)
  || (x.csel != 0 && !peer && x.kind != 8 && x.kind != 9)
  || (x.off != 0 && !peer && x.kind != 9)
  || (x.tag != 0 && !peer && x.kind != 13)
  || ((x.kind == 0 || x.kind == 9) && x.a1 != 0)
  || (match x.kind with
      | 4 => decide (2 ^ 13 ≤ x.a2.toNat)
      | 6 | 7 | 10 | 11 | 12 => false
      | _ => x.a2 != 0)
  || (match x.kind with
      | 10 => x.len % 8 != 0 || x.len < 8 || 448 < x.len || x.w3lo == 0 || 2 ^ 24 < x.w3lo
      | 11 => x.w3lo != 0
      | 13 => x.w3lo != 0 || x.len == 0 || 2 ^ 31 < x.len
      | _ => if msg then x.zero3 != 0 || x.len == 0 || 2 ^ 31 < x.len else x.len != 0 || x.w3lo != 0)
  || (typed && x.len % elemSize x.ty != 0)
  || (x.kind == 13 && 256 < x.len / elemSize x.ty * wireSize x.op x.ty)

/-- Whether the loops of a program nest, each ENDL naming its LOOP, no two open loops sharing a counter (R414). -/
def loopsOk : List CStep → Nat → List (Nat × Nat) → Bool
  | [], _, st => st.isEmpty
  | x :: xs, i, st =>
    if x.kind = 8 then !st.any (fun l => l.2 == x.csel) && loopsOk xs (i + 1) ((i, x.csel) :: st)
    else if x.kind = 9 then match st with
      | (j, c) :: r => j == x.off && c == x.csel && loopsOk xs (i + 1) r
      | [] => false
    else loopsOk xs (i + 1) st

/-- Whether RUN refuses a program (R414). -/
def progBad (xs : List CStep) : Bool := xs.any CStep.bad || !loopsOk xs 0 [] || !xs.any fun x => x.kind == 0

/-- Whether a program uses the rotor group (R406). -/
def progRotor (xs : List CStep) : Bool := xs.any fun x => (x.pmode == 1) || (x.kind == 5 && x.fan == 2)

/-! ### A collective context (R403, R404, R408, R409) -/

/-- A collective context. -/
def State.collAt (s : State) (c : Nat) : Coll := s.colls.get .zero c

/-- Replaces a collective context. -/
def State.setColl (s : State) (c : Nat) (k : Coll) : State := { s with colls := s.colls.put c k }

/-- The round that runs, or runs next (R404): a failed round does not count as completed. -/
def Coll.next (k : Coll) : Nat := (k.round + 1) % 2 ^ 32

/-- The latest round that has started. -/
def Coll.cur (k : Coll) : Nat := if k.stat = .running ∧ k.fin ≠ some .halted then k.next else k.round

/-- The ranks set in a membership vector (R408). -/
def ranksOf (bs : List Byte) : List Nat :=
  (upFrom 0 4096).filter fun r => (bs.getD (r / 8) 0).getLsbD (r % 8)

/-- The membership vector of a list of ranks. -/
def vectorOf (ranks : List Nat) : List Byte :=
  (upFrom 0 512).map fun i => BitVec.ofNat 8 (((upFrom 0 8).map fun b => b2n (ranks.contains (8 * i + b)) * 2 ^ b).foldl (· + ·) 0)

/-- A membership change: true removes (R409). -/
def applyChange (ms : List Nat) (ch : Nat × Bool × List Nat) : List Nat :=
  if ch.2.1 then ms.filter fun r => !ch.2.2.contains r
  else (upFrom 0 4096).filter fun r => ms.contains r || ch.2.2.contains r

/-- The members of a round: the changes due by it are applied in order (R409). -/
def Coll.membersAt (k : Coll) (round : Nat) : List Nat :=
  (k.changes.filter fun ch => ch.1 ≤ round).foldl applyChange k.members

/-- Bytes without poison. -/
def sound (bs : List Byte) : List (Byte × Bool) := bs.map fun b => (b, false)

/-- A log entry (R425): its 64-byte header, whose layout the manual leaves open (log 4), and its bytes. -/
def logEntry (ty round step va len : Nat) (bs : List (Byte × Bool)) : List (Byte × Bool) :=
  sound ((upFrom 0 64).map (Config.logHeader ty round step va len)) ++ bs ++ sound (List.replicate ((64 - bs.length % 64) % 64) 0)

/-- Tries the messages again that wait at this module for room in a herder (R416). -/
def State.creditColls (s : State) : State :=
  if s.tgtWait.any fun p => match p.op with | .coll _ => true | _ => false then s.retryPkts else s

/-- Starts a round with a program (R404, R409): the changes due are applied and recorded, the counters cleared. What a round that failed
under the same number had applied stays recorded (R425). -/
def State.startRound (s : State) (c : Nat) (k : Coll) (prog : List (List Word)) : State :=
  let r := k.next
  let due := k.changes.filter fun ch => ch.1 ≤ r
  let steps := due.foldl (fun acc ch =>
    let ms := applyChange acc.1 ch
    (ms, acc.2 ++ [logEntry 2 r 0 0 512 (sound (vectorOf ms))])) (k.members, k.noted)
  (s.setColl c { k with
    stat := .running, fin := none, stw := 0, members := steps.1, changes := k.changes.filter fun ch => r < ch.1
    prog := prog, queued := none, pc := 0, begun := false, phase := 0, idx := 0, moved := 0, buf := [], hold := none
    bucket := .zero, tmp := [], out := [], cnt := [0, 0, 0, 0], since := s.cycle.toNat, sars := [], results := [], excl := []
    ovf := 0, missing := [], entries := steps.2, noted := steps.2, reason := 0, cause := 0, failed := 0
    inbox := k.inbox.filter fun m => r ≤ m.round }).creditColls

/-! ### COLL (R405 to R407) -/

/-- Posts a COLL (R405, R406): its address is checked and translated at the bundle; its G(d) awaits the herder's answer. -/
def State.collPost (s : State) (d a : BitVec 6) (op : Nat) : State :=
  let va := s.task.gReg a.toNat
  if va.toNat % 64 ≠ 0 then s.raise 0x08C (memTval 0x08C 0 va)
  else
    let (h, s) := s.newHeld (.raw va 64)
    match s.issueErr h with
    | some (c, tv) => s.raise c tv
    | none =>
      let q : CollCmd := ⟨h.id, s.iss.core, s.iss.slot, s.task.place.kernel, h.ctx, op, h.slot, h.pc, va, 0, [], [], (s.withParts h).parts⟩
      { s.issueTo (loadDest d) 48 (.await h.id) with collCmds := s.collCmds ++ [q] }

/-- COLL.OPEN (R404, R407). -/
def execCollOpen (d a : BitVec 6) (s : State) : Out := .next (s.collPost d a 0)
/-- COLL.RUN (R404, R406, R407, R409, R414). -/
def execCollRun (d a : BitVec 6) (s : State) : Out := .next (s.collPost d a 1)
/-- COLL.SHRINK (R409). -/
def execCollShrink (d a : BitVec 6) (s : State) : Out := .next (s.collPost d a 2)
/-- COLL.JOIN (R409). -/
def execCollJoin (d a : BitVec 6) (s : State) : Out := .next (s.collPost d a 3)
/-- COLL.CATCH (R404, R426). -/
def execCollCatch (d a : BitVec 6) (s : State) : Out := .next (s.collPost d a 4)
/-- COLL.CLOSE (R404). -/
def execCollClose (d a : BitVec 6) (s : State) : Out := .next (s.collPost d a 5)

/-- Takes a COLL and what it waits for out of the herder. -/
def State.dropCmd (s : State) (q : CollCmd) : State :=
  { s with
    collCmds := s.collCmds.filter fun x => x.id ≠ q.id
    held := s.held.filter fun h => h.id ≠ q.id
    answers := s.answers.del q.id }

/-- Ends a COLL with its result or its late cause (R221, R406). -/
def State.cmdEnd (s : State) (q : CollCmd) (v : RVal) : State :=
  (s.dropCmd q).onTask q.core q.slot q.kernel fun t => t.fill (Held.new q.id (.coll 0) q.ctx (.raw q.va 64) q.at_ q.pc) v

/-- Ends a COLL with the value of G(d). -/
def State.cmdReply (s : State) (q : CollCmd) (w : Nat) : State := s.cmdEnd q (.ready (imgW (BitVec.ofNat 64 w)))

/-- Ends a COLL with a cause that its herder found (R221, R406). -/
def State.cmdFail (s : State) (q : CollCmd) (cause : Nat) : State := s.cmdEnd q (.late cause 0)

/-- The words of a command block (R407). -/
abbrev collArg (b : List Word) : Nat := (b.getD 0 0).f 31 0
abbrev collGid (b : List Word) : Nat := (b.getD 0 0).f 63 48
abbrev collId (b : List Word) : Nat := (b.getD 0 0).f 41 36
abbrev collAddr (b : List Word) (k : Nat) : Word := BitVec.ofNat 64 ((b.getD k 0).f 56 0)

/-- Whether a reserved field of a command block is set (R407). -/
def blockBad (b : List Word) : Bool :=
  (b.getD 0 0).f 47 42 != 0 || (b.getD 0 0).f 35 32 != 0 || ((upFrom 1 3).any fun k => (b.getD k 0).f 63 57 != 0)
    || (upFrom 4 4).any fun k => b.getD k 0 != 0

/-- The lowest free collective context. -/
def State.freeColl (s : State) : Option Nat := (upFrom 0 64).find? fun c => (s.collAt c).stat == .free

/-- One read of a COLL's herder: the bytes, once they are there; its errors, and poison in what it reads, are late causes (R221,
R452), of the first poisoned byte (R219). -/
def State.cmdRead (s : State) (q : CollCmd) (u : UnitId) (va : Word) (n : Nat) : State × Option (List Byte) :=
  let got (s : State) (bs : List (Byte × Bool)) : State × Option (List Byte) :=
    match (upFrom 0 bs.length).find? fun i => (bs.getD i (0, false)).2 with
    | some i => (s.cmdEnd q (.late 0x150 (memTval 0x150 0 (va + BitVec.ofNat 64 i))), none)
    | none => (s, some (bs.map (·.1)))
  match s.answers.get? q.id with
  | some (.data bs) => got { s with answers := s.answers.del q.id } bs
  | some (.err c tv) => (s.cmdEnd q (.late c tv), none)
  | none =>
    if s.held.any fun h => h.id == q.id then (s, none)
    else
      let h := Held.new q.id u q.ctx (.raw va n) 0 0
      match s.unitServe (if q.stage = 0 then { h with parts := q.parts } else s.withParts h) with
      | (s, .done bs) => got s bs
      | (s, .fail c tv) => (s.cmdEnd q (.late c tv), none)
      | (s, .hold h) => (s.hold h, none)

/-- The herder that serves a COLL (R403): the first, until the block names a collective context (log 53). -/
def CollCmd.herder (q : CollCmd) : Nat := if q.stage = 0 ∨ q.op = 0 then 0 else collId q.block % 8

/-- The address and the length of what a COLL reads after its block: a vector or a program (R407). -/
def CollCmd.operand (q : CollCmd) : Option (Word × Nat) :=
  let va := collAddr q.block 1
  match q.op with
  | 0 | 2 | 3 => some (va, 512)
  | 1 => some (va, 32 * collArg q.block)
  | _ => none

/-- The steps a herder's program store holds for its other runs (R403). -/
def State.stepsHeld (s : State) (c : Nat) : Nat :=
  ((s.colls.filter fun kc => kc.1 % 8 == c % 8).map fun kc => kc.2.prog.length + (match kc.2.queued with | some p => p.length | none => 0)).foldl (· + ·) 0

/-- The checks of a COLL that its block alone decides (R406, R407). -/
def State.cmdBad (s : State) (q : CollCmd) : Bool :=
  let b := q.block
  let arg := collArg b
  let l := bits arg 15 8
  let k := s.collAt (collId b)
  blockBad b
  || (if q.op = 0 then
        bits arg 23 16 != 0 || bits arg 7 0 != 0 || (l != 0 && (l < 16 || 40 < l)) || (collAddr b 1).toNat % 64 != 0
          || (collAddr b 2).toNat % 64 != 0 || (l != 0 && (collAddr b 3).toNat % 2 ^ l != 0)
          || s.colls.any fun kc => kc.2.stat != .free && kc.2.ctx == q.ctx && kc.2.gid == collGid b
      else k.stat == .free || k.ctx != q.ctx)
  || (q.op == 1 && (arg == 0 || 256 < arg || (collAddr b 1).toNat % 32 != 0))

/-- COLL.OPEN at its herder, its vector read (R404, R407). -/
def State.openColl (s : State) (q : CollCmd) : State :=
  let b := q.block
  let ms := ranksOf q.buf
  let mine := (s.colls.filter fun kc => kc.2.stat != .free && kc.2.ctx == q.ctx).length
  if !ms.contains s.part.module then s.cmdFail q 0x141
  else if (s.ctxAt q.ctx).herd ≤ mine then s.cmdFail q 0x142
  else match s.freeColl with
  | none => s.cmdReply q (2 ^ 63)
  | some c =>
    (s.setColl c { Coll.zero with stat := .idle, ctx := q.ctx, gid := collGid b, members := ms, status := collAddr b 2
                                  log := collAddr b 3, logl2 := bits (collArg b) 15 8, tmo := bits (collArg b) 31 24 }).cmdReply q c

/-- COLL.RUN at its herder, its program read (R404, R406, R407, R409, R414). -/
def State.cmdRun (s : State) (q : CollCmd) : State :=
  let c := collId q.block
  let k := s.collAt c
  let n := collArg q.block
  let prog := (upFrom 0 n).map fun i => (upFrom 0 4).map fun j => wordOf q.buf (32 * i + 8 * j)
  let steps := prog.map cstep
  if progBad steps then s.cmdFail q 0x141
  else if !s.part.hasRotor && progRotor steps then s.cmdFail q 0x140
  else
    let r := (k.cur + 1) % 2 ^ 32
    let reply (s : State) (code : Nat) : State := s.cmdReply q (r * 2 ^ 32 + code)
    if k.stat = .catching then reply s 5
    else if !(k.membersAt r).contains s.part.module then reply s 4
    else if k.stat = .running ∧ (k.queued.isSome = true ∨ k.fin = some .halted) then reply s 1
    else if 2048 < s.stepsHeld c + n then reply s 2
    else if k.stat = .running then reply (s.setColl c { k with queued := some prog }) 0
    else reply (s.startRound c k prog) 0

/-- COLL.SHRINK and COLL.JOIN at their herder (R407, R409). -/
def State.cmdChange (s : State) (q : CollCmd) (remove : Bool) : State :=
  let c := collId q.block
  let k := s.collAt c
  if collArg q.block ≤ k.cur then s.cmdReply q 3
  else (s.setColl c { k with changes := k.changes ++ [(collArg q.block, remove, ranksOf q.buf)] }).cmdReply q 0

/-- COLL.CATCH at its herder (R404, R426): the replay begins; its rounds arrive with COLL_CATCH_COMPLETE. -/
def State.cmdCatch (s : State) (q : CollCmd) : State :=
  let b := q.block
  let k := s.collAt (collId b)
  if k.stat = .idle ∨ k.stat = .halted then
    (s.setColl (collId b) { k with stat := .catching, snap := collArg b, donor := (b.getD 1 0).f 11 0, join := (b.getD 2 0).f 31 0
                                   since := s.cycle.toNat, reason := 0, cause := 0, failed := 0 }).cmdReply q 0
  else s.cmdReply q 5

/-- COLL.CLOSE at its herder (R404). -/
def State.cmdClose (s : State) (q : CollCmd) : State :=
  let c := collId q.block
  let k := s.collAt c
  if k.stat = .idle ∨ k.stat = .halted then ({ s with colls := s.colls.del c }).cmdReply q 0 else s.cmdReply q 5

/-- A COLL that its herder has all the bytes of. -/
def State.cmdDo (s : State) (q : CollCmd) : State :=
  match q.op with
  | 0 => s.openColl q
  | 1 => s.cmdRun q
  | 2 => s.cmdChange q true
  | 3 => s.cmdChange q false
  | 4 => s.cmdCatch q
  | _ => s.cmdClose q

/-- Replaces a COLL in the herder's list. -/
def State.putCmd (s : State) (q : CollCmd) : State := { s with collCmds := s.collCmds.map fun x => if x.id = q.id then q else x }

/-- One action of a herder on a COLL (R406): it waits for everything its task issued before it; then the block is read and checked;
then the vector or the program, 256 bytes at a time; then it is carried out. A COLL whose task no longer awaits it is dropped. -/
def State.cmdGo (s : State) (q : CollCmd) : State :=
  let t := s.taskOf q.core q.slot q.kernel
  if !t.awaits q.id then s.dropCmd q
  else if q.stage = 0 then
    if !(s.older (.core q.core q.slot q.kernel) q.id).clear then s
    else match s.cmdRead q (.coll 0) q.va 64 with
    | (s, none) => s
    | (s, some bs) =>
      let q := { q with stage := 1, block := (upFrom 0 8).map fun i => wordOf bs (8 * i) }
      if s.cmdBad q then s.cmdFail q 0x141 else if q.operand.isNone then s.cmdDo q else s.putCmd q
  else match q.operand with
  | none => s.cmdDo q
  | some (va, n) =>
    let o := q.buf.length
    match s.cmdRead q (.coll q.herder) (va + BitVec.ofNat 64 o) (Nat.min 256 (n - o)) with
    | (s, none) => s
    | (s, some bs) =>
      let q := { q with buf := q.buf ++ bs }
      if n ≤ q.buf.length then (if s.cmdBad q then s.cmdFail q 0x141 else s.cmdDo q) else s.putCmd q

/-! ### Status, failure and the herder's writes (R421, R422) -/

/-- The failure of a step (R421): the queued run is discarded, and the context is HALTED once its status is written. -/
def State.collFail (s : State) (c : Nat) (reason cause : Nat) : State :=
  let k := s.collAt c
  { s.setColl c { k with fin := some .halted, stw := 0, writes := [], hold := none, queued := none, begun := false, results := []
                         reason := reason, cause := cause, failed := k.pc } with
    held := s.held.filter fun h => some h.id ≠ k.hold
    answers := match k.hold with | some id => s.answers.del id | none => s.answers }

/-- Whether the END step of a round completes. -/
def Coll.ends (k : Coll) : Bool := k.stat == .running && k.fin == some .idle

/-- Words 1 to 3 and the exclusion mask of the status area (R422). -/
def Coll.statusBody (k : Coll) : List (Word × List (Byte × Bool) × Bool) :=
  let w1 := k.excl.length * 2 ^ 48 + k.missing.length * 2 ^ 32 + k.missing.min?.getD 0
  let first := match k.logged with
    | (r, _) :: _ => r
    | [] => if k.ends && k.logl2 != 0 then k.next else 0
  [(k.status + 64, sound (vectorOf k.excl), false),
   (k.status + 8, sound (toBytes 8 w1 ++ toBytes 8 (k.ovf * 2 ^ 32 + first) ++ toBytes 8 k.members.length), false)]

/-- Word 0 of the status area (R422): a round whose END completes is its last completed one. -/
def Coll.statusWord (k : Coll) : Nat :=
  let st := match k.fin with
    | some .halted => 3
    | _ => if k.queued.isSome then 2 else 1
  st * 2 ^ 61 + k.reason * 2 ^ 57 + k.cause * 2 ^ 48 + k.failed * 2 ^ 40 + (if k.ends then k.next else k.round)

/-- Makes one write of a herder: no more than a 256-byte block, with poison taken along (R418); a part that fails fails the step with REASON 3 (R421); a full side log holds it (R110). -/
def State.collWrite (s : State) (c : Nat) (k : Coll) (w : Word × List (Byte × Bool) × Bool)
    (rest : List (Word × List (Byte × Bool) × Bool)) : State :=
  let u := UnitId.coll c
  let n := 256 - w.1.toNat % 256
  let now := w.2.1.take n
  let more := w.2.1.drop n
  let ls := s.looks u k.ctx w.1 now.length .write
  let o := s.older u s.nextId
  if o.stuck || s.noRoom u k.ctx w.1 w.2.2 s.nextId ls then s
  else
    let ws := if more.isEmpty then rest else (w.1 + BitVec.ofNat 64 n, more, w.2.2) :: rest
    match (s.setColl c { k with writes := ws, since := s.cycle.toNat }).writeVA k.ctx u w.1 (now.map (·.1)) false w.2.2 (badOffs now) with
    | (s, []) => s
    | (s, e :: _) => if k.fin = some .halted then s else s.collFail c 3 e.cause

/-- Takes an error of a herder's earlier write or packet. -/
def State.takeErr (s : State) (u : UnitId) : State × Option Report :=
  match s.unitErrs.find? fun e => e.1 == u with
  | some e => ({ s with unitErrs := s.unitErrs.erase e }, some e.2)
  | none => (s, none)

/-- Goes on to the state that follows a status area (R404): a round whose END has completed counts as completed. -/
def State.collDone (s : State) (c : Nat) (k : Coll) (st : CollStat) : State :=
  let s := { s with herdLast := s.herdLast.put (c % 8) c }
  let k' := { k with stat := st, fin := none, stw := 0, prog := [], begun := false, phase := 0 }
  let len := (k.entries.map List.length).foldl (· + ·) 0
  let size := 2 ^ k.logl2
  let k' := if !k.ends then k' else
    { k' with
      round := k.next, noted := [], results := []
      logged := if k.logl2 = 0 then k.logged else k.logged ++ [(k.next, Nat.min size len)]
      logAt := if k.logl2 = 0 then k.logAt else (k.logAt + len) % size }
  match k.queued with
  | some p => s.startRound c k' p
  | none => s.setColl c k'

/-- What a herder does beside its steps: errors of its accesses, its writes, the status area (R421, R422), and the state that
follows it (R404). A replay holds while its context is STOPPED; its writes performed, ROUND is J - 1, and a membership that differs from the
donor's fails it (R426). -/
def State.collTend (s : State) (c : Nat) : State :=
  match s.colls.get? c with
  | none => s
  | some k =>
    match s.takeErr (.coll c) with
    | (s, some r) =>
      if k.fin = some .halted ∨ (k.stat ≠ .running ∧ k.stat ≠ .catching) then s
      else s.collFail c (if r.cause = 0x148 then 4 else 3) r.cause
    | (s, none) =>
      if k.stat = .catching ∧ (s.ctxAt k.ctx).stat ≠ .active ∧ (s.ctxAt k.ctx).stat ≠ .quiescing then s
      else match k.writes, k.fin with
      | w :: rest, _ => s.collWrite c k w rest
      | [], none => s
      | [], some st =>
        if !s.unitQuiet (.coll c) then s
        else match k.stw with
        | 0 =>
          let k : Coll := if k.stat = .catching ∧ st = .idle then
              let k := { k with round := (k.join + 2 ^ 32 - 1) % 2 ^ 32 }
              if k.membersAt k.join = k.donorMs then k else { k with fin := some .halted, reason := 7 }
            else k
          s.setColl c { k with writes := k.statusBody, stw := 1 }
        | 1 => s.setColl c { k with writes := [(k.status, sound (toBytes 8 k.statusWord), true)], stw := 2 }
        | _ => s.collDone c k st

/-! ### Running steps (R403, R415) -/

/-- Whether a step may go on: its context is ACTIVE, or the step has begun (R404). -/
def State.collMay (s : State) (k : Coll) : Bool :=
  let st := (s.ctxAt k.ctx).stat
  k.stat == .running && k.fin.isNone && (st == .active || (st == .quiescing && k.begun))

/-- Runs a piece of a step of one kind: the writes and errors of its herder first. -/
def State.collGo (s : State) (c kind : Nat) (body : State → Coll → CStep → State) : State :=
  match s.colls.get? c with
  | none => s
  | some k =>
    if !s.collMay k || k.step.kind != kind then s
    else if !k.writes.isEmpty || s.unitErrs.any fun e => e.1 == UnitId.coll c then s.collTend c
    else
      let k := { k with begun := true }
      body (s.setColl c k) k k.step

/-- Goes on to a step: the previous one is complete (R415). -/
def State.collNext (s : State) (c : Nat) (k : Coll) (pc : Nat) : State :=
  ({ s.setColl c { k with pc := pc, begun := false, phase := 0, idx := 0, moved := 0, buf := [], hold := none, bucket := .zero
                          tmp := [], out := [], since := s.cycle.toNat } with herdLast := s.herdLast.put (c % 8) c }).creditColls

/-- Ends a step whose writes are made once they are performed and acknowledged (R415), with its result in the log where LOG asks
for it (R425); a result above half the region fails it (R421). -/
def State.collEnd (s : State) (c : Nat) (k : Coll) (x : CStep) (va : Word) : State :=
  if !s.unitQuiet (.coll c) then s
  else if x.log && k.logl2 != 0 then
    if 2 ^ k.logl2 / 2 < k.out.length then s.collFail c 8 0
    else s.collNext c { k with entries := k.entries ++
      [logEntry 1 k.next k.pc va.toNat k.out.length k.out] } (k.pc + 1)
  else s.collNext c k (k.pc + 1)

/-- Reads n bytes at an address into the step's buffer, a 256-byte block at a time; gives the context once they are there. -/
def State.collRead (s : State) (c : Nat) (k : Coll) (va : Word) (n : Nat) : State × Option Coll :=
  if n ≤ k.buf.length then (s, some k)
  else
    let at_ := va + BitVec.ofNat 64 k.buf.length
    let m := Nat.min (n - k.buf.length) (256 - at_.toNat % 256)
    match s.unitAccess (.coll c) k.ctx (.raw at_ m) k.hold with
    | (s, hold, .ok bs) =>
      let k := { k with hold := hold, buf := k.buf ++ bs, since := s.cycle.toNat }
      (s.setColl c k, if n ≤ k.buf.length then some k else none)
    | (s, _, .err cause _) => (s.collFail c (if cause = 0x148 then 4 else 3) cause, none)
    | (s, hold, .wait) => (s.setColl c { k with hold := hold }, none)

/-- The same for bytes whose poison is consumed (R452). -/
def State.collReadOk (s : State) (c : Nat) (k : Coll) (va : Word) (n : Nat) : State × Option Coll :=
  match s.collRead c k va n with
  | (s, some k) => if k.buf.any (·.2) then (s.collFail c 3 0x150, none) else (s, some k)
  | r => r

/-- The bytes of the buffer. -/
def Coll.bytes (k : Coll) : List Byte := k.buf.map (·.1)

/-! ### Peers and addresses (R412, R413) -/

/-- The counter a step's peer and chunk use. -/
def Coll.count (k : Coll) (x : CStep) : Nat := if x.cuse then k.cnt.getD x.csel 0 else 0

/-- The peer for an offset, where it is a member (R412). -/
def Coll.peerOf (k : Coll) (own : Nat) (x : CStep) (off : Nat) (neg : Bool) : Option Nat :=
  let d0 : Int := (k.count x * x.stride + off : Nat)
  let d := if neg then -d0 else d0
  let by_ (base n : Nat) : Nat := (((base : Int) + d) % (n : Int)).toNat
  let m := match x.pmode with
    | 0 => withCoord own x.dim (by_ (coord own x.dim) 16)
    | 1 => groupModule own (by_ (rotorIndex own) 512)
    | 2 => k.members.getD (by_ (k.members.idxOf own) k.members.length) 4096
    | _ => by_ 0 4096
  if k.members.contains m then some m else none

/-- The first peer of a step. -/
def Coll.peer (k : Coll) (own : Nat) (x : CStep) : Option Nat := k.peerOf own x x.off x.neg

/-- The second peer of RRS. -/
def Coll.peer2 (k : Coll) (own : Nat) (x : CStep) : Option Nat := k.peerOf own x (x.a2.f 11 0) (x.a2.b 12)

/-- An address moved by the chunk offset (R413). -/
def Coll.chunk (k : Coll) (own : Nat) (x : CStep) (a : Word) : Word :=
  let pos := match x.pmode with
    | 0 => coord own x.dim
    | 1 => rotorIndex own
    | 2 => k.members.idxOf own
    | _ => 0
  let o : Int := (k.count x + x.aoff : Nat)
  let j := if x.amod = 0 then 0 else (((pos : Int) + if x.aneg then -o else o) % (x.amod : Int)).toNat
  a + BitVec.ofNat 64 (x.len * j)

/-- The contributors a RED expects (R416). -/
def Coll.expected (k : Coll) (own : Nat) (x : CStep) : List Nat :=
  match x.fan with
  | 0 => own :: (k.peer own x).toList
  | 1 => k.members.filter fun m => withCoord m x.dim (coord own x.dim) == own
  | 2 => k.members.filter (sameGroup own)
  | _ => k.members

/-! ### Messages (R415, R416, R418) -/

/-- A message of this module's step. -/
def Coll.msg (k : Coll) (own : Nat) (x : CStep) (kind : Nat) : CollMsg :=
  ⟨k.gid, k.next, own, x.tag, kind, x.ty, x.op, [], [], [], [], []⟩

/-- Whether a sender has credit for a message of n bytes to a member (R416, log 74): what its herder has sent there and is not acknowledged
leaves room in 4 MiB. -/
def State.collCredit (s : State) (c : Nat) (dst : Option Nat) (n : Nat) : Bool :=
  match dst.bind fun d => s.e2eSrc.get? d with
  | none => true
  | some x =>
    let out := (((x.unacked ++ x.waiting).filter fun u => u.unit.pkt == (UnitId.coll c).pkt && u.pkt.cls == 2).map fun u =>
      u.pkt.len).foldl (· + ·) 0
    out == 0 || decide (out + n ≤ 2 ^ 22)

/-- The bytes of a message as they travel (R417). -/
def msgWire (m : CollMsg) : List Byte := m.bytes ++ m.vals.flatMap fun v => toBytes (wireSize m.op m.ty) (wrap v (8 * wireSize m.op m.ty))

/-- Sends a message to a member, in packets of no more than 256 bytes of which the last completes it (R357), or serves it within the herder
(R412); an absent peer gets nothing. -/
def State.collSend (s : State) (c : Nat) (k : Coll) (dst : Option Nat) (m : CollMsg) : State :=
  match dst with
  | none => s
  | some d =>
    let own := s.part.module
    let u := UnitId.coll c
    if d = own then s.collDeliver m
    else
      let bs := msgWire m
      let parts := (bs.length - 1) / 256
      let send (s : State) (op : PktOp) (i : Nat) : State :=
        let (id, s) := s.freshId
        let chunk := (bs.drop (256 * i)).take 256
        s.sendPkt ⟨u, k.ctx, 0, id, 1, none, 0, false, none⟩ (newPkt own d 2 u.pkt op 0 chunk.length chunk none)
      send ((upFrom 0 parts).foldl (fun s i => send s .part i) s) (.coll m) parts

/-- The next message of a key and kind, and the context without it. -/
def Coll.take (k : Coll) (x : CStep) (kind : Nat) (from_ : Nat → Bool) : Option (CollMsg × Coll) :=
  (k.inbox.find? fun m => m.round == k.next && m.kind == kind && m.tag == x.tag && from_ m.sender).map fun m =>
    (m, { k with inbox := k.inbox.erase m })

/-! ### Reduction (R416 to R418) -/

/-- The elements of bytes of TYPE. -/
def elems (ty : Nat) (bs : List Byte) : List Int := unpackS (8 * elemSize ty) (bs.length / elemSize ty) (ofBytes bs)

/-- Combines two values of an operation exactly. -/
def combine (op : Nat) (a b : Int) : Int := match op with | 0 => a + b | 1 => min a b | _ => max a b

/-- Adds contributors and their exact values. -/
def Bucket.add (b : Bucket) (op : Nat) (incl excl : List Nat) (vals : List Int) : Bucket where
  incl := b.incl ++ incl
  excl := b.excl ++ excl
  vals := if incl.isEmpty then b.vals else if b.incl.isEmpty then vals else (b.vals.zip vals).map fun p => combine op p.1 p.2

/-- Adds a received partial, which is dropped whole where its contributors meet the bucket's (R416). -/
def Bucket.takes (b : Bucket) (m : CollMsg) : Bucket :=
  if (m.incl ++ m.excl).any b.all.contains then b else b.add m.op m.incl m.excl m.vals

/-- Adds own data, which poison excludes whole (R418). -/
def Bucket.own (b : Bucket) (own : Nat) (x : CStep) (data : List (Byte × Bool)) : Bucket :=
  if b.all.contains own then b
  else if data.any (·.2) then b.add x.op [] [own] []
  else b.add x.op [own] [] (elems x.ty (data.map (·.1)))

/-- Whether a partial differs from the step in length or type (R416, R421). -/
def CStep.differs (x : CStep) (m : CollMsg) : Bool :=
  m.ty != x.ty || m.op != x.op || (!m.incl.isEmpty && m.vals.length != x.len / elemSize x.ty)

/-- The result of a bucket (R417): saturated once for SADD; with every contributor excluded, the empty sum, and a free value for
the minimum or maximum of nothing (log 4). -/
def State.bucketBytes (s : State) (x : CStep) (b : Bucket) : State × List Byte :=
  let n := x.len / elemSize x.ty
  if b.incl.isEmpty then
    if x.op = 0 then (s, List.replicate x.len 0)
    else ({ s with free := s.free + n }, (upFrom 0 n).flatMap fun i => toBytes (elemSize x.ty) (Config.freeWord (s.free + i)).toNat)
  else
    let w := 8 * elemSize x.ty
    (s, b.vals.flatMap fun v => toBytes (elemSize x.ty) (wrap (if x.op = 0 then sat v w else v) w))

/-- The context with the ranks a step excluded in the round's exclusion mask (R418). -/
def Coll.without (k : Coll) (ranks : List Nat) : Coll :=
  { k with excl := (upFrom 0 4096).filter fun r => k.excl.contains r || ranks.contains r }

/-- A partial as a message. -/
def Bucket.msg (b : Bucket) (m : CollMsg) : CollMsg := { m with vals := b.vals, incl := b.incl, excl := b.excl }

/-! ### The kinds (R411) -/

/-- Splits log bytes where the region wraps (R425). -/
def logWrites (base : Word) (size at_ : Nat) (bs : List (Byte × Bool)) : List (Word × List (Byte × Bool) × Bool) :=
  let first := bs.take (size - at_)
  let more := bs.drop (size - at_)
  (base + BitVec.ofNat 64 at_, first, false) :: if more.isEmpty then [] else [(base, more, false)]

/-- Drops the oldest rounds until the rest fit the region and are no more than 64 (R425). -/
def dropRounds (size : Nat) : Nat → List (Nat × Nat) → List (Nat × Nat)
  | 0, l => l
  | n + 1, l =>
    if 64 < l.length ∨ size < (l.map (·.2)).foldl (· + ·) 0 then dropRounds size n (l.drop 1) else l

/-- COLL_STEP_END (R404, R411, R422, R425): the round's log entries are written, then the status area; the older rounds whose space they need
are dropped. Of entries longer than the region the last bytes stay (log 75). -/
def execCollStepEnd (c : BitVec 6) (s : State) : Out :=
  match (s.collAt c.toNat).fin with
  | some _ => .next (s.collTend c.toNat)
  | none => .next (s.collGo c.toNat 0 fun s k _ =>
    let k := { k with fin := some .idle, stw := 0, reason := 0, cause := 0, failed := 0
                      entries := k.entries ++ [logEntry 3 k.next 0 0 512 (sound (vectorOf k.excl))] }
    if k.logl2 = 0 then s.setColl c.toNat k
    else
      let size := 2 ^ k.logl2
      let bs := k.entries.flatten
      let past := bs.length - size
      s.setColl c.toNat { k with
        writes := logWrites k.log size ((k.logAt + past) % size) (bs.drop past)
        logged := (dropRounds size 66 (k.logged ++ [(k.next, bs.length - past)])).dropLast })

/-- COLL_STEP_SEND (R411, R418). -/
def execCollStepSend (c : BitVec 6) (s : State) : Out :=
  .next (s.collGo c.toNat 1 fun s k x =>
    let own := s.part.module
    match k.peer own x with
    | none => s.collEnd c.toNat k x 0
    | some p =>
      if k.phase ≠ 0 then s.collEnd c.toNat k x 0
      else if !s.collCredit c.toNat (some p) x.len then s
      else match s.collRead c.toNat k (k.chunk own x x.a1) x.len with
        | (s, none) => s
        | (s, some k) =>
          let bad := ((k.buf.zip (upFrom 0 k.buf.length)).filter fun z => z.1.2).map (·.2)
          (s.setColl c.toNat { k with phase := 1, buf := [] }).collSend c.toNat k (some p)
            { k.msg own x 0 with bytes := k.bytes, bad := bad })

/-- COLL_STEP_RECV (R411, R416, R418). -/
def execCollStepRecv (c : BitVec 6) (s : State) : Out :=
  .next (s.collGo c.toNat 2 fun s k x =>
    let own := s.part.module
    let va := k.chunk own x x.a1
    match k.peer own x with
    | none => s.collEnd c.toNat k x va
    | some p =>
      if k.phase ≠ 0 then s.collEnd c.toNat k x va
      else match k.take x 0 (· == p) with
        | none => s
        | some (m, k) =>
          if m.bytes.length ≠ x.len then (s.setColl c.toNat k).collFail c.toNat 2 0
          else
            let bs := (m.bytes.zip (upFrom 0 x.len)).map fun z => (z.1, m.bad.contains z.2)
            s.setColl c.toNat { k with phase := 1, writes := [(va, bs, false)], out := bs, since := s.cycle.toNat })

/-- COLL_STEP_PSEND (R411, R416, R418). -/
def execCollStepPsend (c : BitVec 6) (s : State) : Out :=
  .next (s.collGo c.toNat 3 fun s k x =>
    let own := s.part.module
    match k.peer own x with
    | none => s.collEnd c.toNat k x 0
    | some p =>
      if k.phase ≠ 0 then s.collEnd c.toNat k x 0
      else if !s.collCredit c.toNat (some p) x.len then s
      else match s.collRead c.toNat k (k.chunk own x x.a1) x.len with
        | (s, none) => s
        | (s, some k) =>
          let b := Bucket.zero.own own x k.buf
          (s.setColl c.toNat { k.without b.excl with phase := 1, buf := [] }).collSend c.toNat k (some p) (b.msg (k.msg own x 1)))

/-- COLL_STEP_RRS (R411, R412, R416): the peer's partial, own data, and the sum to the second peer. -/
def execCollStepRrs (c : BitVec 6) (s : State) : Out :=
  .next (s.collGo c.toNat 4 fun s k x =>
    let own := s.part.module
    match k.phase with
    | 0 => match k.peer own x with
      | none => s.setColl c.toNat { k with phase := 1 }
      | some p => match k.take x 1 (· == p) with
        | none => s
        | some (m, k) =>
          if x.differs m then (s.setColl c.toNat k).collFail c.toNat 2 0
          else s.setColl c.toNat { k with phase := 1, bucket := k.bucket.takes m, since := s.cycle.toNat }
    | 1 =>
      if !s.collCredit c.toNat (k.peer2 own x) x.len then s
      else match s.collRead c.toNat k (k.chunk own x x.a1) x.len with
      | (s, none) => s
      | (s, some k) =>
        let b := k.bucket.own own x k.buf
        (s.setColl c.toNat { k.without b.excl with phase := 2, buf := [] }).collSend c.toNat k (k.peer2 own x) (b.msg (k.msg own x 1))
    | _ => s.collEnd c.toNat k x 0)

/-- COLL_STEP_RED (R411, R416 to R418): own data, then partials until the bucket holds every contributor expected. -/
def execCollStepRed (c : BitVec 6) (s : State) : Out :=
  .next (s.collGo c.toNat 5 fun s k x =>
    let own := s.part.module
    let va := k.chunk own x x.a1
    let want := k.expected own x
    match k.phase with
    | 0 => match s.collRead c.toNat k va x.len with
      | (s, none) => s
      | (s, some k) => s.setColl c.toNat { k with phase := 1, buf := [], bucket := k.bucket.own own x k.buf }
    | 1 =>
      if want.all k.bucket.all.contains && k.bucket.all.all want.contains then
        let (s, bs) := s.bucketBytes x k.bucket
        s.setColl c.toNat { k.without k.bucket.excl with phase := 2, writes := [(va, sound bs, false)], out := sound bs }
      else match k.take x 1 want.contains with
        | none => s
        | some (m, k) =>
          if x.differs m then (s.setColl c.toNat k).collFail c.toNat 2 0
          else s.setColl c.toNat { k with bucket := k.bucket.takes m, since := s.cycle.toNat }
    | _ => s.collEnd c.toNat k x va)

/-- How many bytes of a transfer a herder writes next, up to a 256-byte boundary of the destination, and how many it has read by
then, up to one of the source: no aligned word is read or written in two steps (R126). -/
def transferCut (src dst rest : Nat) : Nat × Nat :=
  let n := Nat.min rest (256 - dst % 256)
  (n, Nat.min rest (n + (256 - (src + n) % 256) % 256))

/-- COLL_STEP_COPY (R411, R413). -/
def execCollStepCopy (c : BitVec 6) (s : State) : Out :=
  .next (s.collGo c.toNat 6 fun s k x =>
    let own := s.part.module
    let dst := k.chunk own x x.a2
    if x.len ≤ k.moved then s.collEnd c.toNat k x dst
    else
      let o := BitVec.ofNat 64 k.moved
      let src := k.chunk own x x.a1 + o
      let cut := transferCut src.toNat (dst + o).toNat (x.len - k.moved)
      match s.collRead c.toNat k src cut.2 with
      | (s, none) => s
      | (s, some k) =>
        let bs := k.buf.take cut.1
        s.setColl c.toNat { k with
          buf := k.buf.drop cut.1, moved := k.moved + bs.length, writes := [(dst + o, bs, false)]
          out := if x.log && k.logl2 != 0 then k.out ++ bs else [] })

/-- COLL_STEP_WAIT (R411): an ACQ load at DEV scope, again each µs (log 31) until the word is at least A2. -/
def execCollStepWait (c : BitVec 6) (s : State) : Out :=
  .next (s.collGo c.toNat 7 fun s k x =>
    if x.a1.toNat % 8 ≠ 0 then s.collFail c.toNat 3 0x08C
    else if k.hold.isNone && k.idx != 0 && s.cycle.toNat + 1 < k.idx + 1400 then s
    else match s.collReadOk c.toNat k x.a1 8 with
      | (s, none) => s
      | (s, some k') =>
        if x.a2.toNat ≤ ofBytes k'.bytes then s.collNext c.toNat k' (k.pc + 1)
        else s.setColl c.toNat { k' with buf := [], idx := s.cycle.toNat + 1, since := k.since })

/-- COLL_STEP_LOOP (R411). -/
def execCollStepLoop (c : BitVec 6) (s : State) : Out :=
  .next (s.collGo c.toNat 8 fun s k x =>
    let k := { k with cnt := k.cnt.set x.csel 0 }
    let past := (upFrom (k.pc + 1) k.prog.length).find? fun j => (cstep (k.prog.getD j [])).kind == 9 && (cstep (k.prog.getD j [])).off == k.pc
    s.collNext c.toNat k (if x.a1 = 0 then past.getD k.pc + 1 else k.pc + 1))

/-- COLL_STEP_ENDL (R411). -/
def execCollStepEndl (c : BitVec 6) (s : State) : Out :=
  .next (s.collGo c.toNat 9 fun s k x =>
    let n := k.cnt.getD x.csel 0 + 1
    let k := { k with cnt := k.cnt.set x.csel n }
    s.collNext c.toNat k (if n < (cstep (k.prog.getD x.off [])).a1.toNat then x.off + 1 else k.pc + 1))

/-- COLL_STEP_APPEND (R423): a row at a time: its destination entry, its bytes, the append, and the reply into the entry. A row to this module
whose queue or slot faults is recorded and held, as a REMOP's access is (R107, R109), and goes again after the FLUSH. -/
def execCollStepAppend (c : BitVec 6) (s : State) : Out :=
  .next (s.collGo c.toNat 10 fun s k x =>
    let own := s.part.module
    let u := UnitId.coll c.toNat
    let rowb := x.len
    let n := x.w3lo
    let ent := x.a1 + BitVec.ofNat 64 (n * rowb + 8 * k.idx)
    let got (s : State) (k : Coll) (r : Nat) : State :=
      s.setColl c.toNat { k with phase := 3, hold := none, buf := [], writes := [(ent + 4, sound (toBytes 4 r), false)]
                                 ovf := if r = 0xFFFFFFFF then k.ovf + 1 else k.ovf, since := s.cycle.toNat }
    if n ≤ k.idx then s.collEnd c.toNat k x 0
    else match k.phase with
    | 0 => match s.collReadOk c.toNat k ent 8 with
      | (s, none) => s
      | (s, some k) => s.setColl c.toNat { k with phase := 1, tmp := [[bits (ofBytes k.bytes) 11 0]], buf := [] }
    | 1 =>
      let d := (k.tmp.getD 0 []).headD 0
      if !k.members.contains d then got s k 0xFFFFFFFF
      else match s.collReadOk c.toNat k (x.a1 + BitVec.ofNat 64 (rowb * k.idx)) rowb with
      | (s, none) => s
      | (s, some k) => match s.translate k.ctx x.a2 permRW with
        | .error e => s.collFail c.toNat 3 e
        | .ok (_, ia) =>
          if d = own then match s.appendTo s.lookIA ia own k.idx u.pkt k.bytes with
            | (s, .done r _ _ _) => got s (s.collAt c.toNat) r.toNat
            | (s, .fail e _) => s.collFail c.toNat 3 e
            | (s, .wait) | (s, .away _ _ _ _) => s
            | (s, .fault e st fia) =>
              let va := if ia ≤ fia ∧ fia < ia + 32 then x.a2 + BitVec.ofNat 64 (fia - ia) else 0
              let (id, s) := (s.record k.ctx ⟨u, e, st, .atomic, true, false, 0, va, own, fia, 8⟩).freshId
              (s.setColl c.toNat { k with phase := 4, hold := some id }).hold { Held.new id u k.ctx (.raw x.a2 0) 0 0 with why := .flush, ia := fia }
          else
            let (id, s) := s.freshId
            let s := s.hold { Held.new id u k.ctx (.reply 4) 0 0 with why := .reply, ia := ia }
            (s.setColl c.toNat { k with phase := 2, hold := some id, buf := [] }).sendPkt
              ⟨u, k.ctx, x.a2, id, 1, some id, 0, false, none⟩ (newPkt own d 2 u.pkt (.appendRow k.idx) ia rowb k.bytes none)
    | 2 => match s.unitAccess u k.ctx (.reply 4) k.hold with
      | (s, _, .ok bs) => got s k (ofBytes (bs.map (·.1)))
      | (s, _, .err e _) => s.collFail c.toNat (if e = 0x148 then 4 else 3) e
      | (s, _, .wait) => s
    | 4 => match s.unitAccess u k.ctx (.raw x.a2 0) k.hold with
      | (s, _, .ok _) => s.setColl c.toNat { k with phase := 1, hold := none }
      | (s, _, .err e _) => s.collFail c.toNat 3 e
      | (s, _, .wait) => s
    | _ => s.setColl c.toNat { k with phase := 0, idx := k.idx + 1 })

/-! ### A2A (R424) -/

/-- The members in the order A2A sends to them (R424): own rotor group by direct slot from the current one, then the rest. -/
def State.a2aOrder (s : State) (k : Coll) : List Nat :=
  let own := s.part.module
  let slot (m : Nat) : Option Nat :=
    if s.part.hasRotor ∧ sameGroup own m = true ∧ m ≠ own then
      (slotOf s.rotor.cal (rotorIndex m)).map fun x => (x.1 + 73 - s.rotor.slot) % 73
    else none
  ((upFrom 0 73).flatMap fun j => k.members.filter fun m => slot m == some j) ++ k.members.filter fun m => (slot m).isNone

/-- The sum of the first n of a list. -/
def sumTo (l : List Nat) (n : Nat) : Nat := (l.take n).foldl (· + ·) 0

/-- Sends a message to every member, with a value for each. -/
def State.collAll (s : State) (c : Nat) (k : Coll) (m : CollMsg) (vals : List Int) : State :=
  (k.members.zip vals).foldl (fun s x => s.collSend c k (some x.1) { m with vals := [x.2] }) s

/-- The values every member has sent of a kind, by ordinal, and the context without them; none until all have come. -/
def Coll.takeAll (k : Coll) (x : CStep) (kind : Nat) : Option (List Int × Coll) :=
  k.members.foldl (fun acc m => match acc with
    | none => none
    | some (vs, k) => (k.take x kind (· == m)).map fun mk => (vs ++ [mk.1.vals.headD 0], mk.2)) (some ([], k))

/-- COLL_STEP_A2A (R424): descriptors and counts; the addresses; the rows, poison with them (R451); the releases. -/
def execCollStepA2a (c : BitVec 6) (s : State) : Out :=
  .next (s.collGo c.toNat 11 fun s k x =>
    let own := s.part.module
    let u := UnitId.coll c.toNat
    let rowb := x.len
    let m := k.members.length
    let words (bs : List Byte) (sz : Nat) : List Nat := (upFrom 0 (bs.length / sz)).map fun i => ofBytes ((bs.drop (sz * i)).take sz)
    let t (i j : Nat) : Nat := (k.tmp.getD i []).getD j 0
    let read (s : State) (va : Word) (n sz phase : Nat) : State × Option Coll :=
      match s.collReadOk c.toNat k va n with
      | (s, none) => (s, none)
      | (s, some k) =>
        let k := { k with tmp := k.tmp ++ [words k.bytes sz], buf := [], phase := phase }
        (s.setColl c.toNat k, some k)
    match k.phase with
    | 0 => (read s x.a1 16 8 1).1
    | 1 => (read s (BitVec.ofNat 64 (t 0 0)) (4 * m) 4 2).1
    | 2 => match read s x.a2 32 8 3 with
      | (s, none) => s
      | (s, some k) => s.collAll c.toNat k (k.msg own x 2) ((k.tmp.getD 1 []).map Int.ofNat)
    | 3 => match k.takeAll x 2 with
      | none => s
      | some (vs, k) =>
        let ns := vs.map Int.toNat
        let arr (l : List Nat) : List (Byte × Bool) := sound (l.flatMap fun n => toBytes 4 n)
        s.setColl c.toNat { k with
          phase := 10, tmp := k.tmp ++ [ns], since := s.cycle.toNat
          writes := [(BitVec.ofNat 64 (t 2 0), arr ns, false), (BitVec.ofNat 64 (t 2 1), arr ((upFrom 0 m).map (sumTo ns)), false)] }
    | 10 =>
        let ns := k.tmp.getD 3 []
        if t 2 3 < sumTo ns m then (s.collAll c.toNat k (k.msg own x 3) (List.replicate m (-1))).collFail c.toNat 6 0
        else
          let offs := (upFrom 0 m).map (sumTo ns)
          let place (o : Nat) : Except Nat Int :=
            match s.translate k.ctx (BitVec.ofNat 64 (t 2 2 + rowb * o)) permW with
            | .ok (mod, ia) => .ok (mod * 2 ^ 52 + ia : Nat)
            | .error e => .error e
          match offs.findSome? fun o => match place o with | .error e => some e | .ok _ => none with
          | some e => s.collFail c.toNat 3 e
          | none => (s.setColl c.toNat { k with phase := 4 }).collAll c.toNat k (k.msg own x 3)
              (offs.map fun o => match place o with | .ok a => a | .error _ => -1)
    | 4 => match k.takeAll x 3 with
      | none => s
      | some (vs, k) =>
        if vs.any (· < 0) then (s.setColl c.toNat k).collFail c.toNat 6 0
        else s.setColl c.toNat { k with phase := 5, idx := 0, moved := 0, tmp := k.tmp ++ [vs.map Int.toNat, s.a2aOrder k]
                                        since := s.cycle.toNat }
    | 5 => match (k.tmp.getD 5 [])[k.idx]? with
      | none => s.setColl c.toNat { k with phase := 6 }
      | some d =>
        let o := k.members.idxOf d
        let n := t 1 o * rowb
        if n ≤ k.moved then s.setColl c.toNat { k with idx := k.idx + 1, moved := 0 }
        else
          let from_ := BitVec.ofNat 64 (t 0 1 + rowb * sumTo (k.tmp.getD 1 []) o + k.moved)
          let ia := t 4 o % 2 ^ 52 + k.moved
          let cut := transferCut from_.toNat ia (n - k.moved)
          match s.collRead c.toNat k from_ cut.2 with
          | (s, none) => s
          | (s, some k) =>
            let bs := k.buf.take cut.1
            let k := { k with moved := k.moved + bs.length, buf := k.buf.drop cut.1 }
            if d = own then
              let va := BitVec.ofNat 64 (t 2 2 + rowb * sumTo (k.tmp.getD 3 []) o + (k.moved - bs.length))
              s.setColl c.toNat { k with writes := [(va, bs, false)] }
            else
              let s := s.setColl c.toNat k
              let dst := t 4 o / 2 ^ 52
              let looks := (upFrom 0 bs.length).map fun i => (⟨i, s.lookAt u dst (ia + i) .write, dst, ia + i⟩ : ByteLook)
              match s.writeLooks k.ctx u from_ (bs.map (·.1)) false false s.nextId looks (badOffs bs) with
              | (s, []) => s
              | (s, e :: _) => s.collFail c.toNat (if e.cause = 0x148 then 4 else 3) e.cause
    | 6 =>
      if !s.unitQuiet u then s
      else (s.setColl c.toNat { k with phase := 7 }).collAll c.toNat k (k.msg own x 4) (List.replicate m 0)
    | 7 => match k.takeAll x 4 with
      | none => s
      | some (_, k) => s.setColl c.toNat { k with phase := 8, since := s.cycle.toNat }
    | _ =>
      let va := BitVec.ofNat 64 (t 2 2)
      if x.log && k.logl2 != 0 && k.phase == 8 then
        match s.collRead c.toNat k va (rowb * sumTo (k.tmp.getD 3 []) m) with
        | (s, none) => s
        | (s, some k) => s.setColl c.toNat { k with phase := 9, out := k.buf, buf := [] }
      else s.collEnd c.toNat k x va)

/-- COLL_STEP_SIGNAL (R411): an atomic add with REL at POD scope; every earlier step's writes are performed and acknowledged. -/
def execCollStepSignal (c : BitVec 6) (s : State) : Out :=
  .next (s.collGo c.toNat 12 fun s k x =>
    let u := UnitId.coll c.toNat
    if x.a1.toNat % 8 ≠ 0 then s.collFail c.toNat 3 0x08C
    else if k.hold.isNone && !(s.older u s.nextId).clear then s
    else match s.unitAccess u k.ctx (.atomic 0 x.a1 8 [x.a2]) k.hold with
      | (s, _, .ok _) => s.collNext c.toNat k (k.pc + 1)
      | (s, _, .err e _) => s.collFail c.toNat (if e = 0x148 then 4 else 3) e
      | (s, hold, .wait) => s.setColl c.toNat { k with hold := hold })

/-! ### SAR (R419) -/

/-- Whether two SAR messages have one key. -/
def sameSar (a b : CollMsg) : Bool := a.gid == b.gid && a.round == b.round && a.tag == b.tag

/-- A message of the routers on its way to a module, on the torus path: no end-to-end number (log 32). -/
def State.sarOut (s : State) (dst : Nat) (m : CollMsg) : State :=
  { s with outq := s.outq ++ [newPkt s.part.module dst 2 (0, 3) (.coll m) 0 (msgLen m) (msgWire m) none] }

/-- What a router remembers of a key. -/
def State.sarKey (s : State) (m : CollMsg) : SarKey :=
  (s.sarKeys.find? fun k => k.gid == m.gid && k.round == m.round && k.tag == m.tag).getD ⟨m.gid, m.round, m.tag, [], []⟩

/-- Replaces it. -/
def State.setSarKey (s : State) (k : SarKey) : State :=
  { s with sarKeys := (s.sarKeys.filter fun x => !(x.gid == k.gid && x.round == k.round && x.tag == k.tag)) ++ [k] }

/-- A partial reaches its root: it joins the bucket, or, where the result is known, is answered alone (R419). -/
def State.sarRoot (s : State) (m : CollMsg) : State :=
  match s.colls.findSome? fun kc => if kc.2.stat ≠ .free ∧ kc.2.gid = m.gid then kc.2.results.find? (sameSar m) else none with
  | some r => if m.sender = s.part.module then s else s.sarOut m.sender r
  | none => s.collDeliver m

/-- Forwards a partial: to the root's herder here, or on towards the root (R419). -/
def State.sarForward (s : State) (dst : Nat) (m : CollMsg) : State :=
  let k := s.sarKey m
  let s := s.setSarKey { k with fwd := k.fwd ++ (m.incl ++ m.excl) }
  if dst = s.part.module then s.sarRoot m else s.sarOut dst m

/-- A partial reaches a router (R419): alone where its set meets what was forwarded; else combined with the one held, or held for
50 ns. -/
def State.sarArrive (s : State) (src dst : Nat) (m : CollMsg) : State :=
  let k := s.sarKey m
  let k := if src = s.part.module ∨ k.from_.contains src = true then k else { k with from_ := k.from_ ++ [src] }
  let s := s.setSarKey k
  if (m.incl ++ m.excl).any k.fwd.contains then s.sarForward dst m
  else match s.sarHolds.find? fun h => sameSar h.msg m with
  | none => { s with sarHolds := s.sarHolds ++ [⟨m, dst, s.cycle.toNat + 70⟩] }
  | some h =>
    let b := (⟨h.msg.incl, h.msg.excl, h.msg.vals⟩ : Bucket).takes m
    { s with sarHolds := s.sarHolds.map fun x => if x = h then { h with msg := b.msg h.msg } else x }

/-- A result reaches a router (R419): it is replicated to where the key's partials came from, and given to the herder. -/
def State.sarResult (s : State) (m : CollMsg) : State :=
  ((s.sarKey m).from_.foldl (fun s d => s.sarOut d m) s).collDeliver m

/-- Forwards the partials that have been held for 50 ns. -/
def State.sarRelease (s : State) : State :=
  let due := s.sarHolds.filter fun h => h.until_ ≤ s.cycle.toNat
  due.foldl (fun s h => s.sarForward h.dst h.msg) { s with sarHolds := s.sarHolds.filter fun h => s.cycle.toNat < h.until_ }

/-- SAR_ROUTER_COMBINE (R419): a SAR message reaches this module's router: a partial to combine and forward, or a result. -/
def execSarRouterCombine (p : Packet) (s : State) : Out :=
  .next (match p.op with
  | .coll m => if m.kind = 6 then (if p.dst = s.part.module then s.sarResult m else s.sarOut p.dst m) else s.sarArrive p.src p.dst m
  | _ => s)

/-- The tag of a SAR of a round: messages of one key are taken in order, so the n-th SAR of a TAG has its own (R416). -/
def Coll.sarTag (k : Coll) (x : CStep) : CStep := { x with tag := x.tag + 4096 * (k.sars.filter (· == x.tag)).length }

/-- COLL_STEP_SAR (R419): own partial to the routers; the root's bucket and the result; the result written. -/
def execCollStepSar (c : BitVec 6) (s : State) : Out :=
  .next (s.collGo c.toNat 13 fun s k x =>
    let own := s.part.module
    let root := k.members.headD 0
    let y := k.sarTag x
    let write (s : State) (k : Coll) (bs : List Byte) (excl : List Nat) : State :=
      s.setColl c.toNat { k.without excl with
        phase := 2, writes := [(x.a1, sound bs, false)], out := sound bs, sars := k.sars ++ [x.tag], since := s.cycle.toNat }
    match k.phase with
    | 0 => match s.collRead c.toNat k x.a1 x.len with
      | (s, none) => s
      | (s, some k) =>
        let b := Bucket.zero.own own x k.buf
        let s := s.setColl c.toNat { k with phase := 1, buf := [], bucket := b, idx := s.cycle.toNat }
        if own = root then s else s.sarArrive own root (b.msg (k.msg own y 5))
    | 1 =>
      if own = root then
        if k.members.all k.bucket.all.contains then
          let (s, bs) := s.bucketBytes x k.bucket
          let m := { k.msg own y 6 with bytes := bs, incl := k.bucket.incl, excl := k.bucket.excl }
          let s := (s.sarKey m).from_.foldl (fun s d => s.sarOut d m) s
          write s { k with results := k.results ++ [m] } bs k.bucket.excl
        else match k.take y 5 (fun _ => true) with
          | none => s
          | some (m, k) =>
            if x.differs m then (s.setColl c.toNat k).collFail c.toNat 2 0
            else s.setColl c.toNat { k with bucket := k.bucket.takes m, since := s.cycle.toNat }
      else match k.take y 6 (fun _ => true) with
        | none => s
        | some (m, k) =>
          if m.bytes.length ≠ x.len then (s.setColl c.toNat k).collFail c.toNat 2 0 else write s k m.bytes m.excl
    | _ => s.collEnd c.toNat k x x.a1)

/-- SAR_PARTIAL_RESEND (R419): no result for RESENDT µs: the partial goes again. -/
def execSarPartialResend (c : BitVec 6) (s : State) : Out :=
  .next (s.collGo c.toNat 13 fun s k x =>
    let own := s.part.module
    let root := k.members.headD 0
    if k.phase = 1 ∧ own ≠ root ∧ k.idx + s.resendClk ≤ s.cycle.toNat then
      (s.setColl c.toNat { k with idx := s.cycle.toNat }).sarArrive own root (k.bucket.msg (k.msg own (k.sarTag x) 5))
    else s)

/-! ### Messages that arrive, timeouts, replay (R416, R421, R426) -/

/-- COLL_MESSAGE_ARRIVAL (R404, R416): a message for a herder of this module. -/
def execCollMessageArrival (m : CollMsg) (s : State) : Out :=
  .next (match m.kind with
  | 5 => s.sarRoot m
  | 6 => s.sarResult m
  | _ => s.collDeliver m)

/-- The ranks a step waits for (R421). -/
def Coll.waitsFor (k : Coll) (own : Nat) : List Nat :=
  let x := k.step
  let lacks (kind : Nat) : List Nat := k.members.filter fun m => (k.take x kind (· == m)).isNone
  match x.kind with
  | 1 | 2 | 3 => (k.peer own x).toList
  | 4 => if k.phase = 0 then (k.peer own x).toList else (k.peer2 own x).toList
  | 5 => (k.expected own x).filter fun m => !k.bucket.all.contains m
  | 11 => match k.phase with
    | 3 => lacks 2
    | 4 => lacks 3
    | 7 => lacks 4
    | _ => []
  | 13 => if own = k.members.headD 0 then k.members.filter fun m => !k.bucket.all.contains m else [k.members.headD 0]
  | _ => []

/-- COLL_STEP_TIMEOUT (R421): TMO × 100 µs without progress. -/
def execCollStepTimeout (c : BitVec 6) (s : State) : Out :=
  .next (match s.colls.get? c.toNat with
  | none => s
  | some k =>
    if k.stat = .running ∧ k.fin = none ∧ k.begun = true ∧ k.tmo ≠ 0 ∧ k.since + k.tmo * 140000 ≤ s.cycle.toNat then
      (s.setColl c.toNat { k with missing := k.waitsFor s.part.module }).collFail c.toNat 1 0
    else s)

/-- COLL_CATCH_COMPLETE (R426): the donor's answer to the reads of its log (log 76). An unreachable donor, or a round from S + 1 on below its
LOGFIRST, fails the replay with REASON 5. Until the donor holds round J - 1 the herder waits on. Then each type-1 entry's bytes of the rounds
S + 1 to J - 1 are written at its VA, in log order; what follows is the status area's (State.collTend). -/
def execCollCatchComplete (c : BitVec 6) (entries : List CatchEntry) (log : CatchLog) (s : State) : Out :=
  .next (match s.colls.get? c.toNat with
  | none => s
  | some k =>
    if k.stat ≠ .catching ∨ k.fin ≠ none then s
    else
      let want (r : Nat) : Bool := k.snap < r && r < k.join
      let es := entries.filter fun e => want e.round
      let k := { k with stw := 0, excl := [], missing := [], ovf := 0, donorMs := log.members }
      if !log.reachable || (want (k.snap + 1) && decide (k.snap + 1 < log.first)) then
        s.setColl c.toNat { k with fin := some .halted, reason := 5, cause := 0, failed := 0 }
      else if want (k.snap + 1) && decide (log.last + 1 < k.join) then s
      else s.setColl c.toNat { k with fin := some .idle, writes := es.map fun e => (BitVec.ofNat 64 e.va, sound e.data, false) })

/-- Whether a context's herder programs are between steps (R84, R404). -/
def State.collsHeld (s : State) (n : Nat) : Bool :=
  s.colls.all fun kc => kc.2.ctx != n || (!(kc.2.stat == .running && kc.2.begun) && kc.2.fin.isNone && kc.2.writes.isEmpty)

end Sys2Proof.Machine
end

