-- ==== Sys2Proof/Machine/Queue.lean ====
section
/-! DEFINITION. Host queues and command graphs: commands, doorbells, the start and check of a graph, its nodes, failure
(R200 to R217). -/

namespace Sys2Proof.Machine

/-! ### Queues (R200, R203) -/

/-- A host queue. -/
def State.queueAt (s : State) (c q : Nat) : HostQueue := s.queues.get .zero (queueKey c q)

/-- Replaces a host queue; a change of its state sends an MSI-X message while the host link is up (R455, log 72). -/
def State.setQueue (s : State) (c q : Nat) (x : HostQueue) : State :=
  let s' := { s with queues := s.queues.put (queueKey c q) x }
  if (s.queueAt c q).stat = x.stat ∨ s.hostUp = false then s' else { s' with msgs := s'.msgs ++ [.msix c q x.stat.num] }

/-- QCFG.LOG2N. -/
def HostQueue.log2n (x : HostQueue) : Nat := x.cfg.f 3 0
/-- QCFG.PRIO. -/
def HostQueue.prio (x : HostQueue) : Nat := x.cfg.f 7 6
/-- HEAD + 1. -/
def HostQueue.nextHead (x : HostQueue) : Nat := (x.head + 1) % 2 ^ x.log2n

/-- The unit of the accesses of a node of a queue's graph, by the run of the graph (R214); 2,047 stands for the reads of the graph
itself. -/
def State.schedUnit (s : State) (c q i : Nat) : UnitId := .sched (queueKey c q) i (((s.queueAt c q).graph.map (·.run)).getD 0)

/-- Drops what a unit of the launch scheduler waits for. -/
def State.dropSched (s : State) (u : UnitId) : State :=
  let ids := (s.held.filter fun h => h.unit == u).map (·.id)
  { s with held := s.held.filter fun h => h.unit != u, answers := s.answers.filter fun x => !ids.contains x.1
           unitErrs := s.unitErrs.filter fun e => e.1 != u }

/-- A graph that starts with its entry's read, as a run of its own. -/
def Graph.start (run : Nat) : Graph := ⟨run, [], [], false, false, none⟩

/-- Sets BADCMD; in BOOTFAIL no access reaches the register (R453). -/
def State.badCmd (s : State) (c q : Nat) : State :=
  if s.modstat.phase = 1 then s else s.setQueue c q { s.queueAt c q with badcmd := true }

/-- Whether commands of queues are admitted: not in BOOTFAIL, nor, until reset, in ERROR (R453, R458, log 71). -/
def State.queuesOpen (s : State) : Bool := s.modstat.phase != 1 && s.modstat.phase != 5

/-- A command of a queue, refused in a context in ERROR (R216) and in other states of the queue or of the module. -/
def State.queueCmd (s : State) (c q : Nat) (ok : HostQueue → Bool) (f : HostQueue → HostQueue) : State :=
  let x := s.queueAt c q
  if s.queuesOpen = true ∧ (s.ctxAt c).stat ≠ .error ∧ ok x = true then s.setQueue c q (f x) else s.badCmd c q

/-- QUEUE_ENABLE (R203). -/
def execQueueEnable (c : BitVec 4) (q : BitVec 6) (s : State) : Out :=
  .next (s.queueCmd c.toNat q.toNat (fun x => x.stat == .disabled && 1 ≤ x.log2n && x.log2n ≤ 12) fun x =>
    { x with head := x.tail, stat := .idle })

/-- QUEUE_DISABLE (R203, R216). -/
def execQueueDisable (c : BitVec 4) (q : BitVec 6) (s : State) : Out :=
  let x := s.queueAt c.toNat q.toNat
  .next (if s.queuesOpen = false then s.badCmd c.toNat q.toNat else match x.stat with
  | .idle => (s.dropSched (s.schedUnit c.toNat q.toNat 2047)).setQueue c.toNat q.toNat { x with stat := .disabled, graph := none }
  | .halted => s.setQueue c.toNat q.toNat { x with stat := .disabled }
  | .running => s.setQueue c.toNat q.toNat { x with off := true }
  | _ => s.badCmd c.toNat q.toNat)

/-- QUEUE_RETRY (R203). -/
def execQueueRetry (c : BitVec 4) (q : BitVec 6) (s : State) : Out :=
  let (run, s) := s.freshId
  .next (s.queueCmd c.toNat q.toNat (fun x => x.stat == .halted) fun x => { x with stat := .running, graph := some (.start run) })

/-- QUEUE_SKIP (R203). -/
def execQueueSkip (c : BitVec 4) (q : BitVec 6) (s : State) : Out :=
  .next (s.queueCmd c.toNat q.toNat (fun x => x.stat == .halted) fun x => { x with stat := .idle, head := x.nextHead })

/-- QCMD_UNDEFINED (R200). -/
def execQcmdUndefined (c : BitVec 4) (q : BitVec 6) (s : State) : Out := .next (s.badCmd c.toNat q.toNat)

/-- QUEUE_CONFIG_WRITE (R200). -/
def execQueueConfigWrite (c : BitVec 4) (q : BitVec 6) (cfg : Bool) (v : Word) (s : State) : Out :=
  let x := s.queueAt c.toNat q.toNat
  .next (if s.modstat.phase = 1 ∨ x.stat ≠ .disabled then s.badCmd c.toNat q.toNat
  else s.setQueue c.toNat q.toNat (if cfg then { x with cfg := x.cfg.merge v 0xCF } else { x with base := x.base.merge v (maskF 56 5) }))

/-- DOORBELL (R201). -/
def execDoorbell (c : BitVec 4) (q : BitVec 6) (v : Word) (s : State) : Out :=
  let x := s.queueAt c.toNat q.toNat
  let st := (s.ctxAt c.toNat).stat
  .next (if s.modstat.phase = 1 then s
  else if v.f 63 12 ≠ 0 ∨ 2 ^ x.log2n ≤ v.f 11 0 then s.setQueue c.toNat q.toNat { x with baddb := true }
  else if st = .free ∨ st = .draining then s
  else s.setQueue c.toNat q.toNat { x with tail := v.f 11 0 })

/-! ### Graphs (R204, R205) -/

/-- A word of an entry or node. -/
def wAt (l : List Word) (k : Nat) : Word := l.getD k 0

/-- NNODES, DONE and GRAPH of an entry. -/
def Graph.nnodes (g : Graph) : Nat := (wAt g.entry 1).f 10 0
def Graph.doneAddr (g : Graph) : Word := wAt g.entry 2
def Graph.nodeAddr (g : Graph) (i : Nat) : Word := BitVec.ofNat 64 ((wAt g.entry 0).f 56 6 * 64 + 64 * i)

/-- Whether an entry breaks R204. -/
def entryBad (e : List Word) : Bool :=
  (wAt e 0).f 63 57 != 0 || (wAt e 0).f 5 0 != 0 || (wAt e 1).f 63 11 != 0 || (wAt e 1).f 10 0 == 0 || 1024 < (wAt e 1).f 10 0
    || (wAt e 2).f 2 0 != 0 || wAt e 3 != 0

/-- The fields of a node (R204). -/
def GNode.kind (n : GNode) : Nat := (wAt n.words 0).f 63 60
def GNode.npred (n : GNode) : Nat := (wAt n.words 0).f 59 58
def GNode.pred (n : GNode) (k : Nat) : Nat := (wAt n.words 0).f (39 - 10 * k) (30 - 10 * k)
def GNode.last (n : GNode) : Nat := (wAt n.words 0).f 9 0
def GNode.opa (n : GNode) : Word := wAt n.words 1
def GNode.opb (n : GNode) : Word := wAt n.words 2
def GNode.opc (n : GNode) : Word := wAt n.words 3
def GNode.controls (n : GNode) : Bool := n.kind == 4 || n.kind == 5
/-- The predecessors a node names. -/
def GNode.preds (n : GNode) : List Nat := (upFrom 0 n.npred).map n.pred

/-- Whether a node breaks R204. -/
def GNode.bad (n : GNode) : Bool :=
  let w := wAt n.words 0
  let word := n.kind == 2 || n.kind == 3 || n.controls
  7 ≤ n.kind || w.f 57 40 != 0 || ((upFrom n.npred (3 - n.npred)).any fun k => n.pred k != 0) || (!n.controls && n.last != 0)
    || ((upFrom 4 4).any fun k => wAt n.words k != 0) || (word && n.opa.f 2 0 != 0)
    || match n.kind with
      | 0 => n.opb != 0 || n.opc != 0
      | 1 => n.opc == 0 || 2 ^ 32 ≤ n.opc.toNat
      | 2 => n.opc.f 63 5 != 0 || n.opc.b 3 || !(n.opc.f 2 0 == 3 || n.opc.f 2 0 == 4)
      | 6 => n.opa != 0 || n.opb != 0 || n.opc != 0
      | _ => (n.kind == 4 && n.opc.f 63 32 != 0) || n.opc.f 31 9 != 0 || (n.kind != 5 && n.opc.b 8) || n.opc.f 7 3 != 0
        || n.opc.b 2

/-- The controlling nodes whose range holds a node: a range begins after its controlling node. -/
def Graph.holders (g : Graph) (i : Nat) : List Nat :=
  ((upFrom 0 g.nodes.length).zip g.nodes).filterMap fun x => if x.2.controls && x.1 < i && i ≤ x.2.last then some x.1 else none

/-- Whether node i makes its graph malformed (R205). A predecessor below its node's index cannot lie after the node's range, so
the last condition of R205 follows from the third. Of two ranges that cross, the later controlling node is the offending one
(R205 does not say, log 55). -/
def Graph.nodeBad (g : Graph) (i : Nat) (n : GNode) : Bool :=
  let last (j : Nat) : Nat := (g.nodes.getD j (.new [])).last
  n.bad || n.preds.any (i ≤ ·) || (n.kind == 6 && i + 1 != g.nodes.length) || (n.kind != 6 && i + 1 == g.nodes.length)
    || (n.controls && (n.last ≤ i || g.nodes.length ≤ n.last || 8 ≤ ((g.holders i).filter fun j => n.last ≤ last j).length
      || (g.holders i).any fun j => i < last j && last j < n.last))

/-- The first offending index of a graph: 1,023 for its entry (log 47), else a node's. -/
def Graph.firstBad (g : Graph) : Option Nat :=
  if entryBad g.entry then some 1023
  else ((upFrom 0 g.nodes.length).zip g.nodes).findSome? fun x => if g.nodeBad x.1 x.2 then some x.1 else none

/-- The places of the node store that are taken (R205). -/
def State.storeUsed (s : State) : Nat :=
  (s.queues.map fun kq => match kq.2.graph with | some g => if g.stored then g.nnodes else 0 | none => 0).foldl (· + ·) 0

/-- The queue whose graph takes its places in the node store next (R205): highest PRIO, then ascending (context, queue). -/
def State.nextStored (s : State) : Option Nat :=
  let ws := s.queues.filter fun kq => (s.ctxAt (kq.1 / 64)).stat == .active && match kq.2.graph with
    | some g => !g.stored && !g.entry.isEmpty
    | none => false
  (ws.foldl (fun best kq => match best with
    | none => some kq
    | some b => if b.2.prio < kq.2.prio then some kq else some b) none).map (·.1)

/-! ### Failure and the end of a graph (R203, R214) -/

/-- Applies a function to every node with its index. -/
def Graph.mapNodes (g : Graph) (f : Nat → GNode → GNode) : Graph :=
  { g with nodes := ((upFrom 0 g.nodes.length).zip g.nodes).map fun x => f x.1 x.2 }

/-- The failure of node i (R214): the queue goes to HALTING with the first failure's cause; reads, waits and evaluations are
abandoned, and so is an end node whose DONE add is still to be made (R214's list does not name it, log 57). -/
def State.failNode (s : State) (c q i cause : Nat) : State :=
  let x := s.queueAt c q
  let x := if x.stat = .halting then x else { x with stat := .halting, cause := cause, node := i }
  let keeps (n : GNode) : Bool := match n.stat with
    | .posted | .moved => n.kind != 5
    | .busy => n.kind == 1 || n.kind == 2
    | _ => false
  let ns := match x.graph with
    | some g => (upFrom 0 g.nodes.length).filter fun j => j == i || !(g.nodes[j]?.map keeps).getD false
    | none => []
  let s := (2047 :: ns).foldl (fun s j => s.dropSched (s.schedUnit c q j)) s
  let stop (j : Nat) (n : GNode) : GNode := if ns.contains j then { n with stat := .done, hold := none } else n
  s.setQueue c q { x with graph := x.graph.map (·.mapNodes stop) }

/-- The queue after its graph ended (R203): DISABLED where DISABLE came while it ran. Nodes that are still at work when the end node
completes end with their graph (R206 does not say, log 56). -/
def HostQueue.endGraph (x : HostQueue) (st : QStat) : HostQueue :=
  { x with stat := if x.off then .disabled else st, off := false, graph := none }

/-- GRAPH_HALT_COMPLETE (R203): the last started node has completed or is abandoned. -/
def execGraphHaltComplete (c : BitVec 4) (q : BitVec 6) (s : State) : Out :=
  let x := s.queueAt c.toNat q.toNat
  let busy := match x.graph with
    | some g => g.nodes.any fun n => n.stat != .idle && n.stat != .done
    | none => false
  .next (if x.stat = .halting ∧ busy = false then s.setQueue c.toNat q.toNat (x.endGraph .halted) else s)

/-! ### The start of a graph (R202, R205) -/

/-- The little-endian words of bytes read. -/
def readWords (bs : List (Byte × Bool)) : List Word := (upFrom 0 (bs.length / 8)).map fun k => wordOf (bs.map (·.1)) (8 * k)

/-- GRAPH_START (R202, R205, R215): the entry is read, then places of the node store are taken, then each node is read once, then
the entry and the graph are checked. -/
def execGraphStart (c : BitVec 4) (q : BitVec 6) (s : State) : Out :=
  let cn := c.toNat
  let qn := q.toNat
  let x := s.queueAt cn qn
  let u := s.schedUnit cn qn 2047
  let set (s : State) (g : Graph) : State := s.setQueue cn qn { s.queueAt cn qn with graph := some g }
  let read (s : State) (g : Graph) (va : Word) (n : Nat) (k : State → List Word → State) : State :=
    match s.unitAccess u cn (.raw va n) g.hold with
    | (s, _, .ok bs) => if bs.any (·.2) then s.failNode cn qn 1023 0x150 else k s (readWords bs)
    | (s, _, .err e _) => s.failNode cn qn 1023 e
    | (s, hold, .wait) => set s { g with hold := hold }
  .next (if (s.ctxAt cn).stat ≠ .active then s
  else match x.stat, x.graph with
  | .idle, none => if x.head = x.tail then s else let (run, s) := s.freshId; set s (.start run)
  | .idle, some g | .running, some g =>
    if g.entry.isEmpty then
      read s g (x.base + BitVec.ofNat 64 (32 * x.head)) 32 fun s e => set s { g with entry := e, hold := none }
    else if !g.stored then
      if s.nextStored = some (queueKey cn qn) ∧ s.storeUsed + g.nnodes ≤ 16384 then
        s.setQueue cn qn { x with stat := .running, graph := some { g with stored := true } }
      else s
    else if g.loaded then s
    else if g.nodes.length < g.nnodes then
      read s g (g.nodeAddr g.nodes.length) 64 fun s w => set s { g with nodes := g.nodes ++ [.new w], hold := none }
    else match g.firstBad with
      | some i => s.failNode cn qn i 0x117
      | none => set s { g with loaded := true }
  | _, _ => s)

/-! ### Readiness and choice (R206, R213) -/

/-- A node of a graph. -/
def Graph.node (g : Graph) (i : Nat) : GNode := g.nodes.getD i (.new [])

/-- Whether node p counts as a complete predecessor of node i (R206). -/
def Graph.predDone (g : Graph) (i p : Nat) : Bool :=
  (g.holders i).contains p
    || ((g.node p).stat == .done && (g.holders p).all fun h => (g.holders i).contains h || (g.node h).stat == .done)

/-- Whether a node that has not started is ready (R206). -/
def Graph.ready (g : Graph) (i : Nat) : Bool :=
  let n := g.node i
  n.stat == .idle && n.preds.all (g.predDone i) && (g.holders i).all fun h => (g.node h).stat == .range

/-- Whether a node waits to start: it is ready, or a kernel node whose record is being read or waits for an entry of the pool
(R208). -/
def Graph.waits (g : Graph) (i : Nat) : Bool :=
  let n := g.node i
  g.ready i || (n.kind == 0 && (n.stat == .busy || n.stat == .checked))

/-- The nodes of the module that wait to start: priority, queue, index. -/
def State.readyNodes (s : State) : List (Nat × Nat × Nat) :=
  s.queues.flatMap fun kq => match kq.2.graph with
    | some g =>
      if kq.2.stat == .running && g.loaded && (s.ctxAt (kq.1 / 64)).stat == .active then
        (upFrom 0 g.nodes.length).filterMap fun i =>
          if g.waits i then some (if 256 ≤ (g.node i).passed then 3 else kq.2.prio, kq.1, i) else none
      else []
    | none => []

/-- Whether a waiting node can start now: a kernel node can once its record is checked and the level-0 pool and its context's share
have an entry (R158, R208). -/
def State.canStart (s : State) (k i : Nat) : Bool :=
  match (s.queues.get .zero k).graph with
  | some g => (g.node i).kind != 0 || ((g.node i).stat == .checked && s.poolFree (k / 64) 0)
  | none => false

/-- The node that starts next (R213), of those that can: highest PRIO, then the queue after the one last served, then the lowest
index. -/
def State.nextNode (s : State) : Option (Nat × Nat) :=
  let rank (k : Nat) : Nat := (k + 1024 - (s.lastQueue + 1)) % 1024
  let better (a b : Nat × Nat × Nat) : Bool :=
    b.1 < a.1 || (a.1 == b.1 && (rank a.2.1 < rank b.2.1 || (a.2.1 == b.2.1 && a.2.2 < b.2.2)))
  ((s.readyNodes.filter fun r => s.canStart r.2.1 r.2.2).foldl (fun best x => match best with
    | none => some x
    | some b => if better x b then some x else some b) none).map (·.2)

/-- Replaces a node. -/
def State.setNode (s : State) (c q i : Nat) (n : GNode) : State :=
  let x := s.queueAt c q
  s.setQueue c q { x with graph := x.graph.map fun g => { g with nodes := g.nodes.set i n } }

/-- A chosen node starts: the other nodes that wait to start are passed over once (R213). -/
def State.startNode (s : State) (c q i : Nat) : State :=
  let rs := s.readyNodes
  let pass (k i : Nat) (n : GNode) : GNode := if rs.any fun r => r.2.1 == k && r.2.2 == i then { n with passed := n.passed + 1 } else n
  let s := { s with
    lastQueue := queueKey c q
    queues := s.queues.map fun (kq : Nat × HostQueue) => (kq.1, { kq.2 with graph := kq.2.graph.map fun (g : Graph) => g.mapNodes (pass kq.1) }) }
  match (s.queueAt c q).graph with
  | some g => s.setNode c q i { g.node i with stat := .busy }
  | none => s

/-- Runs a piece of node i of one kind: it starts where it is the one chosen; a kernel node reads and checks its record as soon as it
is ready, before it is chosen (R208, log 48); a node already started goes on, also while its queue is HALTING (R214); an error of
its writes fails it. -/
def State.nodeGo (s : State) (c q i kind : Nat) (body : State → Graph → GNode → State) : State :=
  let x := s.queueAt c q
  match x.graph with
  | none => s
  | some g =>
    match g.nodes[i]? with
    | none => s
    | some n =>
      if n.kind ≠ kind ∨ g.loaded = false ∨ (x.stat ≠ .running ∧ x.stat ≠ .halting) then s
      else if n.stat = .idle then
        if kind = 0 then
          if g.ready i && x.stat == .running && (s.ctxAt c).stat == .active then
            let n := { n with stat := .busy }
            body (s.setNode c q i n) g n
          else s
        else if s.nextNode = some (queueKey c q, i) then
          let s := s.startNode c q i
          body s g ((((s.queueAt c q).graph.map fun g => g.node i)).getD n)
        else s
      else match s.takeErr (s.schedUnit c q i) with
        | (s, some r) => s.failNode c q i r.cause
        | (s, none) => if n.stat = .done then s else body s g n

/-- Completes a node. -/
def State.nodeDone (s : State) (c q i : Nat) (n : GNode) : State := s.setNode c q i { n with stat := .done, hold := none }

/-- A node's read of n bytes. -/
def State.nodeRead (s : State) (c q i : Nat) (n : GNode) (va : Word) (len : Nat) (k : State → GNode → List Word → State) : State :=
  match s.unitAccess (s.schedUnit c q i) c (.raw va len) n.hold with
  | (s, _, .ok bs) => if bs.any (·.2) then s.failNode c q i 0x150 else k s { n with hold := none } (readWords bs)
  | (s, _, .err e _) => s.failNode c q i e
  | (s, hold, .wait) => s.setNode c q i { n with hold := hold }

/-! ### Nodes by kind (R207 to R212) -/

/-- KERNEL_NODE (R208): reads the record and checks it; later, the retirement of its kernel completes it. -/
def execKernelNode (c : BitVec 4) (q : BitVec 6) (i : Nat) (s : State) : Out :=
  let cn := c.toNat
  let qn := q.toNat
  .next (s.nodeGo cn qn i 0 fun s _ n =>
    match n.stat with
    | .busy => s.nodeRead cn qn i n n.opa 160 fun s n r =>
      match checkRec s.part (s.ctxAt cn) r n.opa.toNat 0 with
      | some e => s.failNode cn qn i e
      | none => s.setNode cn qn i { n with stat := .checked, rec_ := r }
    | .posted => match n.kernel with
      | some id => match s.kernels.get? id with
        | some kn => if kn.stat = .retired then ({ s with kernels := s.kernels.del id }).nodeDone cn qn i n else s
        | none => s
      | none => s
    | _ => s)

/-- KERNEL_NODE_ADMIT (R158, R208, R213): a kernel node that is the one chosen starts: its checked record takes an entry of the level-0
pool. -/
def execKernelNodeAdmit (c : BitVec 4) (q : BitVec 6) (i : Nat) (s : State) : Out :=
  let cn := c.toNat
  let qn := q.toNat
  .next (s.nodeGo cn qn i 0 fun s _ n =>
    if n.stat = .checked ∧ s.nextNode = some (queueKey cn qn, i) then
      let s' := (s.startNode cn qn i).postKernel cn n.rec_ (some (queueKey cn qn, i))
      s'.setNode cn qn i { n with stat := .posted, kernel := some s.nextId }
    else s)

/-- COPY_NODE (R209): a copy reads to a 256-byte boundary of its source, or writes to one of its destination what it has read: no
aligned word is read or written in two steps (R126); poison travels along (R451). -/
def execCopyNode (c : BitVec 4) (q : BitVec 6) (i : Nat) (s : State) : Out :=
  let cn := c.toNat
  let qn := q.toNat
  .next (s.nodeGo cn qn i 1 fun s _ n =>
    let u := s.schedUnit cn qn i
    let src := n.opa + BitVec.ofNat 64 n.moved
    let dst := n.opb + BitVec.ofNat 64 n.moved
    let cut := transferCut src.toNat dst.toNat (n.opc.toNat - n.moved)
    if n.stat ≠ .busy then s
    else if n.opc.toNat ≤ n.moved then s.setNode cn qn i { n with stat := .moved }
    else if n.buf.length < cut.2 then
      let at_ := src + BitVec.ofNat 64 n.buf.length
      match s.unitAccess u cn (.raw at_ (Nat.min (cut.2 - n.buf.length) (256 - at_.toNat % 256))) n.hold with
      | (s, _, .err e _) => s.failNode cn qn i e
      | (s, hold, .wait) => s.setNode cn qn i { n with hold := hold }
      | (s, _, .ok bs) => s.setNode cn qn i { n with hold := none, buf := n.buf ++ bs }
    else
      let bs := n.buf.take cut.1
      let ls := s.looks u cn dst cut.1 .write
      let o := s.older u s.nextId
      if o.stuck || s.noRoom u cn dst false s.nextId ls then s
      else
        let locs := ls.map fun b => if s.wClass o false false b = .write then b.look.loc? else none
        let r := s.writeVA cn u dst (bs.map (·.1)) false false
        let tl := (locs.zip bs).filterMap fun (x : Option Loc × Byte × Bool) => x.1.map fun l => (l, x.2.2)
        let s := { r.1 with mem := r.1.mem.taint tl }
        match r.2 with
        | e :: _ => s.failNode cn qn i e.cause
        | [] => s.setNode cn qn i { n with
            buf := n.buf.drop cut.1, moved := n.moved + cut.1, stat := if n.opc.toNat ≤ n.moved + cut.1 then .moved else .busy })

/-- SIGNAL_NODE (R209): a store or an atomic add with release, behind every access of the scheduler (R147). -/
def execSignalNode (c : BitVec 4) (q : BitVec 6) (i : Nat) (s : State) : Out :=
  let cn := c.toNat
  let qn := q.toNat
  .next (s.nodeGo cn qn i 2 fun s _ n =>
    let u := s.schedUnit cn qn i
    if n.stat ≠ .busy ∨ (n.hold = none ∧ (s.older u s.nextId).clear = false) then s
    else if n.opc.b 4 then match s.unitAccess u cn (.atomic 0 n.opa 8 [n.opb]) n.hold with
      | (s, _, .ok _) => s.setNode cn qn i { n with hold := none, stat := .moved }
      | (s, _, .err e _) => s.failNode cn qn i e
      | (s, hold, .wait) => s.setNode cn qn i { n with hold := hold }
    else
      let r := s.writeVA cn u n.opa (toBytes 8 n.opb.toNat) false true
      match r.2 with
      | e :: _ => r.1.failNode cn qn i e.cause
      | [] => r.1.setNode cn qn i { n with stat := .moved })

/-- COPY_NODE_COMPLETE (R207): a copy or signal node's writes are performed and acknowledged. -/
def execCopyNodeComplete (c : BitVec 4) (q : BitVec 6) (i : Nat) (s : State) : Out :=
  let cn := c.toNat
  let qn := q.toNat
  let fin (s : State) (_ : Graph) (n : GNode) : State :=
    if n.stat = .moved ∧ s.unitQuiet (s.schedUnit cn qn i) = true then s.nodeDone cn qn i n else s
  .next (match (s.queueAt cn qn).graph with
  | some g => if (g.node i).stat = .moved then s.nodeGo cn qn i (if (g.node i).kind = 1 then 1 else 2) fin else s
  | none => s)

/-- TEST of a predicate word (R204). -/
def GNode.test (n : GNode) (w : Word) : Bool :=
  match n.opc.f 2 0 with
  | 0 => w == n.opb
  | 1 => w != n.opb
  | 2 => decide (n.opb.toNat ≤ w.toNat)
  | _ => decide (w.toNat < n.opb.toNat)

/-- WAIT_NODE_READ (R210): the word is read again a µs after a read that did not end the wait. -/
def execWaitNodeRead (c : BitVec 4) (q : BitVec 6) (i : Nat) (s : State) : Out :=
  let cn := c.toNat
  let qn := q.toNat
  .next (s.nodeGo cn qn i 3 fun s _ n =>
    let now := s.cycle.toNat
    if n.stat ≠ .busy ∨ (n.hold = none ∧ n.firstAt.isSome = true ∧ now < n.readAt + 1400) then s
    else
      let n := { n with firstAt := some (n.firstAt.getD now), readAt := now }
      s.nodeRead cn qn i n n.opa 8 fun s n w => if n.test (wAt w 0) then s.nodeDone cn qn i n else s.setNode cn qn i n)

/-- WAIT_NODE_TIMEOUT (R210). -/
def execWaitNodeTimeout (c : BitVec 4) (q : BitVec 6) (i : Nat) (s : State) : Out :=
  let cn := c.toNat
  let qn := q.toNat
  .next (match (s.queueAt cn qn).graph with
  | some g => match (g.node i).firstAt with
    | some t =>
      if (s.queueAt cn qn).stat = .running ∧ (g.node i).kind = 3 ∧ (g.node i).stat = .busy ∧ (g.node i).opc.f 63 32 ≠ 0
          ∧ t + (g.node i).opc.f 63 32 * 1400 ≤ s.cycle.toNat then s.failNode cn qn i 0x118 else s
    | none => s
  | none => s)

/-- The nodes of a range. -/
def GNode.range (n : GNode) (i : Nat) : List Nat := upFrom (i + 1) (n.last - i)

/-- Marks the nodes of a range: complete, or as new for a pass (R211, R212). -/
def State.markRange (s : State) (c q i : Nat) (n : GNode) (done : Bool) : State :=
  (n.range i).foldl (fun s j => match (s.queueAt c q).graph with
    | some g => s.setNode c q j (if done then { g.node j with stat := .done } else .new (g.node j).words)
    | none => s) s

/-- Whether every node of a range is complete. -/
def Graph.rangeDone (g : Graph) (i : Nat) (n : GNode) : Bool := (n.range i).all fun j => (g.node j).stat == .done

/-- CONDITIONAL_NODE (R211). -/
def execConditionalNode (c : BitVec 4) (q : BitVec 6) (i : Nat) (s : State) : Out :=
  let cn := c.toNat
  let qn := q.toNat
  .next (s.nodeGo cn qn i 4 fun s g n =>
    match n.stat with
    | .busy => s.nodeRead cn qn i n n.opa 8 fun s n w =>
      if n.test (wAt w 0) then s.setNode cn qn i { n with stat := .range }
      else (s.markRange cn qn i n true).nodeDone cn qn i n
    | _ => if g.rangeDone i n then s.nodeDone cn qn i n else s)

/-- LOOP_NODE_EVALUATE (R212): busy stands at the head of the loop, range runs a pass, moved reads the word after one. -/
def execLoopNodeEvaluate (c : BitVec 4) (q : BitVec 6) (i : Nat) (s : State) : Out :=
  let cn := c.toNat
  let qn := q.toNat
  .next (s.nodeGo cn qn i 5 fun s g n =>
    let mode := n.opc.b 8
    let finish (s : State) (n : GNode) : State := (s.markRange cn qn i n true).nodeDone cn qn i n
    let pass (s : State) (n : GNode) : State :=
      (s.markRange cn qn i n false).setNode cn qn i { n with stat := .range, iter := n.iter + 1 }
    let after (s : State) (n : GNode) : State :=
      if n.opc.f 63 32 ≠ 0 ∧ n.iter = n.opc.f 63 32 then
        finish (s.setQueue cn qn { s.queueAt cn qn with limit := true }) n
      else s.setNode cn qn i { n with stat := .busy }
    match n.stat with
    | .busy =>
      if mode then pass s n
      else s.nodeRead cn qn i n n.opa 8 fun s n w => if n.test (wAt w 0) then pass s n else finish s n
    | .range =>
      if !g.rangeDone i n then s
      else if mode then s.setNode cn qn i { n with stat := .moved }
      else after s n
    | .moved => s.nodeRead cn qn i n n.opa 8 fun s n w => if n.test (wAt w 0) then after s n else finish s n
    | _ => s)

/-- END_NODE (R206): the add on DONE with release, then HEAD advances. -/
def execEndNode (c : BitVec 4) (q : BitVec 6) (s : State) : Out :=
  let cn := c.toNat
  let qn := q.toNat
  let i := match (s.queueAt cn qn).graph with | some g => g.nodes.length - 1 | none => 0
  .next (s.nodeGo cn qn i 6 fun s g n =>
    let u := s.schedUnit cn qn i
    let fin (s : State) : State :=
      let x := s.queueAt cn qn
      s.setQueue cn qn { x.endGraph .idle with head := x.nextHead }
    if g.doneAddr = 0 then fin s
    else if n.hold = none ∧ (s.older u s.nextId).clear = false then s
    else match s.unitAccess u cn (.atomic 0 g.doneAddr 8 [1]) n.hold with
      | (s, _, .ok _) => fin s
      | (s, _, .err e _) => s.failNode cn qn i e
      | (s, hold, .wait) => s.setNode cn qn i { n with hold := hold })

end Sys2Proof.Machine
end

