-- ==== Sys2Proof/Machine/Context.lean ====
section
/-! DEFINITION. Contexts: their commands, the ends of QUIESCING and DRAINING, the writes of their configuration registers
(R81 to R90, R234). -/

namespace Sys2Proof.Machine

/-! ### Commands (R83) -/

/-- Whether a command may be written now: no command is pending, and the module is neither in BOOTFAIL nor in ERROR (R83, R453, R458). -/
def State.cmdOpen (s : State) (n : Nat) : Bool := !(s.ctxAt n).pending && s.modstat.phase != 1 && s.modstat.phase != 5

/-- A refused command sets BADCMD (R82), also one that a module in ERROR does not admit (log 71); in BOOTFAIL none reaches the register
(R453). -/
def State.ctxBadCmd (s : State) (n : Nat) : State := if s.modstat.phase = 1 then s else s.setCtxAt n { s.ctxAt n with badcmd := true }

/-- Returns every queue register of a context to its reset value (R200); a queue that this disables says so (R455). -/
def State.resetQueues (s : State) (n : Nat) : State :=
  let mine := s.queues.filter fun kq => kq.1 / 64 == n && kq.2.stat != .disabled
  let msgs := if s.hostUp then mine.map fun kq => OutMsg.msix n (kq.1 % 64) 0 else []
  { s with queues := s.queues.filter fun kq => kq.1 / 64 != n, msgs := s.msgs ++ msgs }

/-- CTX_CREATE (R83, R200): the generation counter is not a configuration register and stays; FRCTL becomes 0 whole, HEAD, TAIL and OVF
with LOG2N (log 49). -/
def execCtxCreate (n : BitVec 4) (s : State) : Out :=
  let c := s.ctxAt n.toNat
  .next (if c.stat ≠ .free ∨ s.cmdOpen n.toNat = false then s.ctxBadCmd n.toNat
  else (s.resetQueues n.toNat).setCtxAt n.toNat { Ctx.zero with stat := .building, badcmd := c.badcmd, badwr := c.badwr, gen := c.gen })

/-- The time a context was stopped does not count as absence (R196): what began while it was stopped begins at its START. -/
def State.skipStopped (s : State) (n : Nat) : State :=
  let on (a : Nat) : Nat := a + (s.cycle.toNat - Nat.max a (s.ctxAt n).stopAt)
  let late (t : Task) : Task := if t.place.ctx = n then { t with offAt := t.offAt.map on } else t
  let mine (k : Nat) : Bool := match s.kernels.get? k with | some kn => kn.ctx == n | none => false
  { s with
    tasks := s.tasks.map fun kt => (kt.1, if kt.1 < 1024 * 16 then late kt.2 else kt.2)
    offs := s.offs.map fun o => { o with task := late o.task }
    cores := s.cores.map fun cx => (cx.1, { cx.2 with bars := cx.2.bars.map fun (nb : Nat × Barrier) =>
      (nb.1, if mine nb.2.owner then { nb.2 with since := on nb.2.since } else nb.2) }) }

/-- CTX_START (R83): admission begins, or goes on with the records that wait; held tasks and programs resume by their own events. -/
def execCtxStart (n : BitVec 4) (s : State) : Out :=
  let c := s.ctxAt n.toNat
  .next (if s.cmdOpen n.toNat = false then s.ctxBadCmd n.toNat
  else match c.stat with
  | .building => s.setCtxAt n.toNat { c with stat := .active }
  | .stopped =>
    let s := (s.skipStopped n.toNat).setCtxAt n.toNat { c with stat := .active }
    s.unparkAll
  | _ => s.ctxBadCmd n.toNat)

/-- CTX_STOP (R83, R230). -/
def execCtxStop (n : BitVec 4) (s : State) : Out :=
  let c := s.ctxAt n.toNat
  .next (if c.stat ≠ .active ∨ s.cmdOpen n.toNat = false then s.ctxBadCmd n.toNat
  else (s.setCtxAt n.toNat { c with stat := .quiescing, pending := true, toError := false, stopAt := s.cycle.toNat }).preemptCtx n.toNat)

/-- Whether an engine unit works for a context. -/
def UnitId.ofQueue (u : UnitId) (n : Nat) : Bool :=
  match u with
  | .sched k _ _ => k / 64 == n
  | _ => false

/-- Discards the work of a context (R83): its tasks, launches, herder programs, side-log entries, held accesses and fault records not
delivered; its threads stop (R390); the pool entries freed go to records that are parked (R157). -/
def State.discardCtx (s : State) (n : Nat) : State :=
  let kernel (k : Nat) : Bool := match s.kernels.get? k with | some kn => kn.ctx == n | none => false
  let gone := (s.held.filter fun h => h.ctx == n).map (·.id)
  let threads := s.rts.filter fun rt => rt.2.ctl.b 63 && rt.2.ctl.f 3 0 == n
  let bars := (s.kernels.filter fun k => k.2.ctx == n).map (·.1)
  let s := { s with
    tasks := s.tasks.filter fun kt => kt.2.place.ctx != n || 1024 * 16 ≤ kt.1
    offs := s.offs.filter fun o => o.task.place.ctx != n
    arrivals := s.arrivals.filter fun a => !kernel a.kernel
    launches := s.launches.filter fun l => l.ctx != n
    collCmds := s.collCmds.filter fun q => q.ctx != n
    parked := s.parked.filter fun l => l.ctx != n
    held := s.held.filter fun h => h.ctx != n
    answers := s.answers.filter fun x => !gone.contains x.1
    unitErrs := s.unitErrs.filter fun e => !e.1.ofQueue n
    repWait := s.repWait.filter fun e => !e.1.ofQueue n
    cores := s.cores.map fun (cx : Nat × CoreSt) => (cx.1, { cx.2 with
      side := cx.2.side.filter fun e => e.ctx != n
      rawSt := cx.2.rawSt.filter fun w => !kernel w.kernel
      deps := cx.2.deps.filter fun ed => ed.2.ctx != n }) }
  let s := bars.foldl (fun s k => s.freeBars k) s
  let s := { s with kernels := s.kernels.filter fun k => k.2.ctx != n }
  (threads.foldl (fun s rt => s.stopThread (rt.1 / 8) (rt.1 % 8)) ((s.dropColls n).resetQueues n)).unparkAll

/-- CTX_DESTROY (R83, R90, R398): the configuration stays until CREATE. -/
def execCtxDestroy (n : BitVec 4) (s : State) : Out :=
  let c := s.ctxAt n.toNat
  .next (if (c.stat ≠ .building ∧ c.stat ≠ .stopped ∧ c.stat ≠ .error) ∨ s.cmdOpen n.toNat = false then s.ctxBadCmd n.toNat
  else (((s.releaseLeases n.toNat).discardCtx n.toNat).setCtxAt n.toNat
    { c with stat := .draining, pending := true, flushAfter := [], recs := [] }).settle)

/-- CTXCMD_UNDEFINED (R82, R83). -/
def execCtxcmdUndefined (n : BitVec 4) (s : State) : Out := .next (s.ctxBadCmd n.toNat)

/-- Whether a started copy node of a context has not completed (R83, R209). -/
def State.copiesLeft (s : State) (n : Nat) : Bool :=
  s.queues.any fun kq => kq.1 / 64 == n && match kq.2.graph with
    | some g => g.nodes.any fun x => x.kind == 1 && (x.stat == .busy || x.stat == .moved)
    | none => false

/-- Whether nothing of a context runs (R83): tasks pre-empted, copies complete or failed, programs held. -/
def State.quiet (s : State) (n : Nat) : Bool :=
  (s.tasks.all fun kt => kt.2.place.ctx != n || 1024 * 16 ≤ kt.1 || (kt.2.stat == .held && !kt.2.saving))
    && (s.cores.all fun cx => cx.2.deps.all fun ed => ed.2.ctx != n || !isCopyIns ed.2.ins
        || match ed.2.stat with | .failed _ _ => true | _ => false)
    && !s.copiesLeft n && s.collsHeld n

/-- CTX_QUIESCE_COMPLETE (R83). -/
def execCtxQuiesceComplete (n : BitVec 4) (s : State) : Out :=
  let c := s.ctxAt n.toNat
  .next (if c.stat ≠ .quiescing ∨ s.quiet n.toNat = false then s
  else if c.toError then s.enterError n.toNat c.cause
  else s.setCtxAt n.toNat { c with stat := .stopped, pending := false })

/-- Whether every discard and release of a context is acknowledged (R83). -/
def State.drained (s : State) (n : Nat) : Bool :=
  !(s.e2eSrc.any fun p => (p.2.unacked ++ p.2.waiting).any fun u => u.ctx == n)
    && (s.ctxAt n).leasebind.all fun kw => !kw.2.b 63 || let b := s.borrower (kw.2.f 15 0); !(b.stat == .evicting && b.rel)

/-- CTX_DRAIN_COMPLETE (R83). -/
def execCtxDrainComplete (n : BitVec 4) (s : State) : Out :=
  let c := s.ctxAt n.toNat
  .next (if c.stat = .draining ∧ s.drained n.toNat = true then s.setCtxAt n.toNat { c with stat := .free, pending := false } else s)

/-! ### Configuration registers (R84, R85, R88, R89, R90, R234) -/

/-- A range register as its fields exist (R85). -/
def rangeMask (k : Nat) : Nat := if k % 2 = 0 then maskF 63 63 + maskF 56 6 else maskF 63 11 + 7

/-- A write to a configuration register of a context; none for an offset that has none. -/
def Ctx.configured (c : Ctx) (off : Nat) (v : Word) : Option Ctx :=
  if off = 0x010 then some { c with quota := c.quota.merge v (maskF 40 32 + maskF 26 8) }
  else if off = 0x018 then some { c with frbase := c.frbase.merge v (maskF 51 5) }
  else if off = 0x028 then some { c with satlim := c.satlim.merge v (maskF 15 15 + maskF 9 0) }
  else if 0x100 ≤ off ∧ off < 0x200 then
    let k := (off - 0x100) / 8
    some { c with range := c.range.set 0 k (BitVec.ofNat 64 (v.toNat &&& rangeMask k)) }
  else if 0x200 ≤ off ∧ off < 0x400 then
    some { c with leasebind := c.leasebind.set 0 ((off - 0x200) / 8) (BitVec.ofNat 64 (v.toNat &&& (maskF 63 63 + maskF 19 0))) }
  else none

/-- The context and offset of a configuration register in BAR0: its control page (R81), or SAVEBASE (R234) as offset 0x1000. -/
def configAt (off : Nat) : Option (Nat × Nat) :=
  if 0x400000 ≤ off ∧ off < 0x410000 then some ((off - 0x400000) / 0x1000, off % 0x1000)
  else if 0x700000 ≤ off ∧ off < 0x700080 then some ((off - 0x700000) / 8, 0x1000)
  else none

/-- CONFIG_REGISTER_WRITE (R84, R234). -/
def execConfigRegisterWrite (off : Nat) (v : Word) (s : State) : Out :=
  .next (match configAt (off / 8 * 8) with
  | none => s
  | some (n, o) =>
    let c := s.ctxAt n
    let new := if o = 0x1000 then some { c with savebase := c.savebase.merge v (maskF 63 63 + maskF 51 33) } else c.configured o v
    match new with
    | none => s
    | some c' => if c.stat = .building ∨ c.stat = .stopped then s.setCtxAt n c' else s.setCtxAt n { c with badwr := true })

/-- FRCTL_WRITE (R84, R89). A LOG2N write leaves HEAD as it is, also where the ring it makes is no larger (R89 does not say, log 68). -/
def execFrctlWrite (n : BitVec 4) (v : Word) (s : State) : Out :=
  let c := s.ctxAt n.toNat
  let cfg := c.stat = .building ∨ c.stat = .stopped
  let open_ := c.stat ≠ .free ∧ c.stat ≠ .draining
  let f := if open_ then (c.frctl.setF 19 0 (v.f 19 0)).setF 40 40 (b2n (c.frctl.b 40 && !v.b 40)) else c.frctl
  let f := if cfg then f.setF 63 59 (v.f 63 59) else f
  .next (s.setCtxAt n.toNat { c with frctl := f, badwr := c.badwr || (decide (¬ cfg) && v.f 63 59 != c.frctl.f 63 59) })

end Sys2Proof.Machine
end

