-- ==== Sys2Proof/Machine/Power.lean ====
section
/-! DEFINITION. Power, background work, boot, management and the host link (R447 to R459). -/

namespace Sys2Proof.Machine

/-! ### The arbiter (R9, R11, R447, R456, R457) -/

/-- The package power of the part, in mW (R11). -/
def Part.power (p : Part) : Nat := if p.variant = 0 then 2600000 else if p.variant = 1 then 2400000 else 1300000

/-- The islands of the part (R11): MESHX compute islands, a quarter as many of each other kind. -/
def Part.islands (p : Part) : Nat := 2 * p.meshX

/-- The kind of an island (R9): compute, optical, memory, and ring and service, which have one share; in this order (log 50). -/
def Part.islandKind (p : Part) (k : Nat) : Nat :=
  if k < p.meshX then 0 else if k < p.meshX + p.meshX / 4 then 1 else if k < p.meshX + p.meshX / 2 then 2 else 3

/-- The share of the islands of a kind, in mW (R9); of a part with half the islands, half (log 50). -/
def Part.share (p : Part) (kind : Nat) : Nat :=
  (match kind with | 0 => 1700000 | 1 => 410000 | 2 => 180000 | _ => 300000) * p.meshX / 32

/-- The n-th service island (R9). -/
def Part.service (p : Part) (n : Nat) : Nat := p.meshX + 3 * (p.meshX / 4) + n % (p.meshX / 4)

/-- What is left of each kind's share and of the package budget after the grants of the islands before k, and those grants: no grant
takes more than either (R9). -/
def Part.grantsTo (p : Part) (budget : Nat) (ask : List Nat) : Nat → List Nat × Nat × List Nat
  | 0 => ((upFrom 0 4).map p.share, budget, [])
  | k + 1 =>
    let (shares, left, gs) := p.grantsTo budget ask k
    let kind := p.islandKind k
    let g := Nat.min (ask.getD k 0) (Nat.min (shares.getD kind 0) left)
    (shares.set kind (shares.getD kind 0 - g), left - g, gs ++ [g])

/-- The grants of the islands out of a budget (R9, R447). -/
def Part.grants (p : Part) (budget : Nat) (ask : List Nat) : List Nat := (p.grantsTo budget ask p.islands).2.2

/-- Changes every island of the part. -/
def State.setIslands (s : State) (f : Nat → Island → Island) : State :=
  { s with islands := (upFrom 0 s.part.islands).map fun k => (k, f k (s.island k)) }

/-- The clks between two re-grants (R447). -/
def grantPeriod : Nat := 5600

/-- POWER_REGRANT (R9, R447, R456): once a period is over, the arbiter divides the package budget among the islands, each within its kind's share, and
chooses their throttling; a limit that I3C wrote takes effect. -/
def execPowerRegrant (grants duties : List Nat) (s : State) : Out :=
  let now := s.cycle.toNat
  let early : Bool := match s.modstat.grantAt with | some a => now < a + grantPeriod | none => false
  if early then .next s
  else
    let limit := s.modstat.nextLimit.getD s.modstat.limit
    let gs := s.part.grants limit grants
    .next ({ s with modstat := { s.modstat with limit := limit, nextLimit := none, grantAt := some now } }.setIslands fun k i =>
      { i with grant := gs.getD k 0, duty := duties.getD k 0 % 16 })

/-- ISLAND_GRANT_EXCEEDED (R447): the island runs g of every 16 clocks for the rest of the period. -/
def execIslandGrantExceeded (island g : Nat) (s : State) : Out :=
  .next (if 1 ≤ g ∧ g ≤ 15 then s.setIslands fun k i => if k = island then { i with duty := g } else i else s)

/-- COOLANT_LIMIT (R457): g = 1 on every island. -/
def execCoolantLimit (s : State) : Out :=
  .next ({ s with modstat := { s.modstat with therm := true } }.setIslands fun _ i => { i with duty := 1 })

/-- I3C_POWER_LIMIT_WRITE (R11, R456): the limit, in mW, of no more than the part's package power (log 50), takes effect at the next
re-grant. -/
def execI3cPowerLimitWrite (w : Nat) (s : State) : Out :=
  .next { s with modstat := { s.modstat with nextLimit := some (Nat.min w s.part.power) } }

/-- What an attestation message carries (R453, R454): the report, of the measurements of the images admitted, the fuse state and the
nonce, then its signatures, 384 bytes of RSASSA-PSS and 16,224 of SLH-DSA-SHA2-192s. -/
def OutMsg.attested : OutMsg → List Byte × List (List Byte)
  | .attest images nonce =>
    let r := (upFrom 0 images).flatMap (fun k => (upFrom 0 48).map (Config.measurement k)) ++ (upFrom 0 32).map Config.fuseByte ++ nonce
    (r, [(upFrom 0 384).map (Config.signature 0 r), (upFrom 0 16224).map (Config.signature 1 r)])
  | _ => ([], [])

/-- ATTESTATION_REQUEST (R454): a report with the requester's nonce of 32 bytes leaves the module, with the images admitted: the three
of R453, none in BOOTFAIL. A nonce of another length is no request (log 73). -/
def execAttestationRequest (nonce : List Byte) (s : State) : Out :=
  .next (if nonce.length = 32 then s.say (.attest (if s.modstat.phase ≤ 1 then 0 else 3) nonce) else s)

/-- Adds a line to a list of poisoned lines. -/
def addLine (ls : List Nat) (l : Nat) : List Nat := if ls.contains l then ls else ls ++ [l]

/-- PATROL_SCRUB (R450, R451): the 64-byte line at an address of the ring (0), of LPDDR6 (1), or of the tile stores (2) or mask stores
(3), which follow one another in the cores' order (log 70). An uncorrectable error poisons it; a correctable one is corrected, and
counted. -/
def execPatrolScrub (sp : BitVec 2) (line : Nat) (err : BitVec 2) (s : State) : Out :=
  let l := line / 64 * 64
  .next (if err = 0 then s
  else if err = 1 then { s with modstat := { s.modstat with corrected := s.modstat.corrected + 1 } }
  else match sp.toNat with
  | 2 =>
    let c := s.coreAt (l / 0x80000)
    s.setCoreAt (l / 0x80000) { c with poisonTile := addLine c.poisonTile (l % 0x80000) }
  | 3 =>
    let c := s.coreAt (l / 0x8000)
    s.setCoreAt (l / 0x8000) { c with poisonMask := addLine c.poisonMask (l % 0x8000) }
  | k =>
    let p := (k, l)
    if s.mem.poison.contains p then s else { s with mem := { s.mem with poison := s.mem.poison ++ [p] } })

/-- LPDDR6_REFRESH (R450): its only visible effect is latency. -/
def execLpddr6Refresh (s : State) : Out := .next s

/-- HOST_LINK_DOWN (R455). -/
def execHostLinkDown (s : State) : Out := .next { s with hostUp := false }

/-- HOST_LINK_UP (R455). -/
def execHostLinkUp (s : State) : Out := .next { s with hostUp := true }

/-- MODULE_RESET (R146, R453, R459): everything returns to reset; where both signatures of every image verify, the module goes on to
MEMTRAIN, else it stays in BOOTFAIL (log 73). What is not the module's stays: host memory, the words the host has read, the inputs
still to come, and the counters of free values and identifiers. -/
def execModuleReset (verified : Bool) (s : State) : Out :=
  .next { State.reset with
    part := s.part, inputs := s.inputs, hostUp := s.hostUp, free := s.free, nextId := s.nextId
    hostReads := s.hostReads
    mem := { State.reset.mem with host := s.mem.host, poison := s.mem.poison.filter fun p => p.1 == 2 }
    modstat := { State.reset.modstat with limit := s.part.power, phase := if verified then 2 else 1 } }

/-- The firmware's part of bring-up (R459): LPDDR6 trained, the torus links begin to train; once each of them runs or has failed, the
module is READY, and retriever thread 0 serves (R385). -/
def State.bringUp (s : State) : State :=
  let torus := (upFrom 0 144).filter s.part.fitted
  if s.modstat.phase = 2 then
    { s with
      links := torus.foldl (fun l n => l.put n { Link.zero with stat := .training, heardAt := s.cycle.toNat, since := s.cycle.toNat }) s.links
      modstat := { s.modstat with phase := 3 } }
  else if s.modstat.phase = 3 ∧ torus.all (fun n => let l := (s.linkAt n).stat; l != .down && l != .training) = true then
    { s with modstat := { s.modstat with phase := 4 } }
  else s

end Sys2Proof.Machine
end

