-- ==== Sys2Proof/Machine/Csr.lean ====
section
/-! DEFINITION. CSRR and CSRW (R265 to R267). -/

namespace Sys2Proof.Machine

/-- The value a CSRR finds; none for an undefined number (R267). The bits of a unit that is absent read zero (R13). -/
def State.csr (s : State) (c : Nat) : Option Word :=
  let t := s.task
  let island := s.island (s.part.island s.iss.core)
  let ctx := s.ctxAt t.place.ctx
  if c = 0x010 then some s.part.cap
  else if c = 0x011 then some s.cycle
  else if c = 0x048 ∨ (0x020 ≤ c ∧ c ≤ 0x023) ∨ c = 0x028 ∨ (0x030 ≤ c ∧ c ≤ 0x038) ∨ (0x040 ≤ c ∧ c ≤ 0x045) then
    some (s.taskCsr s.iss.core s.iss.slot t c)
  else if 0x080 ≤ c ∧ c < 0x0A0 then some (ctx.range.get 0 (c - 0x080))
  else if c = 0x0A0 then some (BitVec.ofNat 64 t.place.groups)
  else if c = 0x0A1 then some (if s.part.hasDecoder then 16 else 0)
  else if c = 0x0C0 then some t.csr.vrot
  else if c = 0x100 then some (if s.part.hasRotor then s.rotor.stat else 0)
  else if c = 0x101 then some s.flowcfg
  else if 0x180 ≤ c ∧ c ≤ 0x1C8 then some (if s.part.hasRotor then s.rotor.cal.get 0 (c - 0x180) else 0)
  else if c = 0x200 then some t.csr.leaseev
  else if c = 0x300 then some (BitVec.ofNat 64 (island.duty * 2 ^ 60 + island.gated % 2 ^ 48))
  else none

/-- CSRR (R265, R267). -/
def execCsrr (d : BitVec 6) (c : BitVec 12) (s : State) : Out :=
  .next (match s.csr c.toNat with
  | none => s.raise 0x053
  | some w => s.result (.g d.toNat) (d == 0) 1 (imgW w))

/-- The value of a CSR of the task after a CSRW (R186, R265): writable fields take the bits of v; those of TASKST are cleared by a 1,
as its table's W1C says, although R168's text calls it read-only (log 51). -/
def csrAfter (c : Nat) (old v : Word) : Word :=
  match c with
  | 0x021 => old &&& ~~~(v &&& 7)
  | 0x030 => old.merge v (maskF 62 62 + maskF 58 56)
  | 0x033 => old.merge v (maskF 7 4)
  | 0x034 | 0x038 => old
  | 0x040 => if v.f 1 0 = 3 then old else old.merge v 3
  | 0x0C0 => old.merge v ((if v.f 18 16 = 7 then 0 else maskF 18 16) + maskF 12 8 + maskF 4 0)
  | 0x045 => clampKen v
  | _ => old.merge v (csrBits c)

/-- The trap CSRs and TASKST take a CSRW at once, so that a trap of the same bundle finds it; the others take it as a result with
λ = 1 (log 52). -/
def Task.writeCsrNow (t : Task) (c : Nat) (w : Word) : Option Task :=
  let r := t.trap
  match c with
  | 0x021 => some { t with csr := { t.csr with taskst := w } }
  | 0x030 => some { t with trap := { r with cause := w } }
  | 0x031 => some { t with trap := { r with pc := w } }
  | 0x032 => some { t with trap := { r with tgt := w } }
  | 0x033 => some { t with trap := { r with slots := w } }
  | 0x034 => some { t with trap := { r with val := w } }
  | 0x035 => some { t with trap := { r with vec := w } }
  | 0x036 => some { t with trap := { r with scr0 := w } }
  | 0x037 => some { t with trap := { r with scr1 := w } }
  | 0x038 => some { t with trap := { r with ipc := w } }
  | _ => none

/-- Whether a CSR number is one a CSRW can change: a task's own register that is not read-only. -/
def csrWritable (c : Nat) : Bool :=
  c == 0x021 || c == 0x028 || (0x030 ≤ c && c ≤ 0x038) || (0x040 ≤ c && c ≤ 0x045) || c == 0x0C0

/-- CSRW (R265, R267): a write to a read-only CSR is ignored and raises no trap. -/
def execCsrw (a : BitVec 6) (c : BitVec 12) (s : State) : Out :=
  .next (match s.csr c.toNat with
  | none => s.raise 0x053
  | some old =>
    let t := s.task
    let w := csrAfter c.toNat old (t.gReg a.toNat)
    if !csrWritable c.toNat || (s.inRetr && c == 0x0C0) then s
    else match t.writeCsrNow c.toNat w with
    | some t' => s.setTask t'
    | none => s.issueTo (.csr c.toNat) 1 (.ready (imgW w)))

end Sys2Proof.Machine
end

