-- ==== Sys2Proof/Machine/Host.lean ====
section
/-! DEFINITION. The host interface: register writes and what they command, host accesses through a BAR (R81, R93, R102, R149,
R200, R201, R234, R362, R363, R390, R394, R395, R457). -/

namespace Sys2Proof.Machine

/-- The state a meaning leaves; the same state where it does not go on. -/
def State.after (s : State) (o : Out) : State :=
  match o with
  | .next s' => s'
  | _ => s

/-! ### Registers without a behaviour of their own -/

/-- The writes of the page control block that only set fields (R102). -/
def State.writePageReg (s : State) (off : Nat) (v : Word) : State :=
  let p := s.page
  if off = 0x000 then { s with page := { p with ptbase := p.ptbase.merge v (maskF 63 63 + maskF 41 7) } }
  else if off = 0x010 then { s with page := { p with lost := p.lost && !v.b 1 } }
  else if 0x200 ≤ off ∧ off < 0x400 then
    let k := (off - 0x200) / 8
    if s.part.hasRotor ∧ 60 ≤ k then s else { s with page := { p with ringattr := p.ringattr.set 0 k (v &&& 0x1F) } }
  else s

/-- The same of the module link registers (R363). -/
def State.writeLinkBlock (s : State) (off : Nat) (v : Word) : State :=
  let r := s.rotor
  if off = 0x000 then
    if s.part.hasRotor ∧ v.b 0 = false then ({ s with rotor := { r with en := false, guard := false } }).unlock else s
  else if off = 0x008 then { s with flowcfg := s.flowcfg.merge v (maskF 47 32 + maskF 15 0) }
  else if off = 0x010 then { s with linkcfg := s.linkcfg.merge v (maskF 39 0) }
  else if 0x100 ≤ off ∧ off < 0x348 then
    if s.part.hasRotor ∧ r.en = false then { s with rotor := { r with calw := r.calw.set 0 ((off - 0x100) / 8) v } } else s
  else if 0x400 ≤ off ∧ off < 0x600 then { s with podmap := s.podmap.set 0 ((off - 0x400) / 8) v }
  else s

/-- The same of a link (R362). -/
def State.writeLinkReg (s : State) (n off : Nat) (v : Word) : State :=
  let l := s.linkAt n
  if !s.part.fitted n then s
  else if off = 0x00 then s.setLinkAt n { l with auto := v.b 0 }
  else if off = 0x10 then s.setLinkAt n { l with replays := v.f 63 32, uncorr := v.f 31 0 }
  else s

/-- The same of a retriever's registers (R390, R394). -/
def State.writeRetrReg (s : State) (r off : Nat) (v : Word) : State :=
  let t := off / 0x100
  let o := off % 0x100
  if 1 ≤ t ∧ t < 8 then
    let x := s.rtAt r t
    if o = 0x00 then
      (s.setRt r t { x with ctl := x.ctl.merge v 0xF }).onThread r t fun k => { k with place := { k.place with ctx := v.f 3 0 } }
    else if x.ctl.b 63 then s
    else if o = 0x08 then s.setRt r t { x with entry := x.entry.merge v (maskF 56 4) }
    else if o = 0x10 then s.setRt r t { x with win := x.win.merge v (maskF 51 6) }
    else if o = 0x18 then s.setRt r t { x with sram := x.sram.merge v (maskF 13 0) }
    else if o = 0x20 then s.setRt r t { x with kick := x.kick.merge v (maskF 63 63 + maskF 51 3) }
    else s
  else if t = 8 then
    let m := s.migAt r
    if m.busy then s
    else if o = 0x00 then s.setMig r { m with src := m.src.merge v (maskF 51 12) }
    else if o = 0x08 then s.setMig r { m with dst := m.dst.merge v (maskF 63 62 + maskF 51 12) }
    else if o = 0x10 then s.setMig r { m with tab := m.tab.merge v (maskF 51 0) }
    else s
  else s

/-- The same of a lender entry (R395). -/
def Lender.write (l : Lender) (o : Nat) (v : Word) : Lender :=
  if l.stat ≠ .free then l
  else if o = 0x00 then { l with base := l.base.merge v (maskF 63 30 + maskF 15 0) }
  else if o = 0x08 then { l with cfg := l.cfg.merge v (maskF 63 32 + maskF 6 0) }
  else l

/-- The same of a borrower entry (R395). -/
def Borrower.write (b : Borrower) (o : Nat) (v : Word) : Borrower :=
  if o = 0x00 then (if b.stat = .free then { b with src := b.src.merge v (maskF 63 8) } else b)
  else if o = 0x08 then
    if b.stat = .free ∨ b.stat = .expect ∨ b.stat = .active then { b with fall := b.fall.merge v (maskF 63 62 + maskF 51 30) } else b
  else b

/-- REGISTER_WRITE (R82, R102, R200, R362, R363, R390, R394, R395, R457): a write to a register of BAR0 that has no behaviour of
its own sets its writable fields and clears those that clear on 1; an offset that no chapter lists ignores it. -/
def execRegisterWrite (off : Nat) (v : Word) (s : State) : Out :=
  .next (
    if 0x400000 ≤ off ∧ off < 0x410000 then
      let n := (off - 0x400000) / 0x1000
      let c := s.ctxAt n
      if off % 0x1000 = 8 then s.setCtxAt n { c with badcmd := c.badcmd && !v.b 8, badwr := c.badwr && !v.b 10 } else s
    else if 0x500000 ≤ off ∧ off < 0x501000 then s.writePageReg (off - 0x500000) v
    else if 0x600000 ≤ off ∧ off < 0x610000 then
      let c := (off - 0x600000) / 0x1000
      let q := off % 0x1000 / 0x40
      let x := s.queueAt c q
      if off % 0x40 = 0x18 then
        s.setQueue c q { x with limit := x.limit && !v.b 3, baddb := x.baddb && !v.b 2, badcmd := x.badcmd && !v.b 1 }
      else s
    else if 0x800000 ≤ off ∧ off < 0x810000 then s.writeLinkReg ((off - 0x800000) / 0x100) (off % 0x100) v
    else if 0x810000 ≤ off ∧ off < 0x811000 then s.writeLinkBlock (off - 0x810000) v
    else if 0xA00000 ≤ off ∧ off < 0xA02000 then
      let m := (off - 0xA00000) / 0x20
      { s with lenders := s.lenders.put m ((s.lenders.get .zero m).write (off % 0x20) v) }
    else if 0xA10000 ≤ off ∧ off < 0xA18000 then
      let n := (off - 0xA10000) / 0x20
      { s with borrowers := s.borrowers.put n ((s.borrowers.get .zero n).write (off % 0x20) v) }
    else if off = 0xB00000 then { s with modstat := { s.modstat with therm := s.modstat.therm && !v.b 0 } }
    else match s.retrOf off with
    | some r => s.writeRetrReg r (off % 0x1000) v
    | none => s)

/-! ### Every write of a BAR -/

/-- A write to CTXCMD (R82). -/
def ctxCommand (n : BitVec 4) (v : Word) (s : State) : Out :=
  match v.f 7 0 with
  | 1 => execCtxCreate n s
  | 2 => execCtxStart n s
  | 3 => execCtxStop n s
  | 4 => execCtxDestroy n s
  | _ => execCtxcmdUndefined n s

/-- A write to QCMD (R200). -/
def queueCommand (c : BitVec 4) (q : BitVec 6) (v : Word) (s : State) : Out :=
  match v.f 7 0 with
  | 1 => execQueueEnable c q s
  | 2 => execQueueDisable c q s
  | 3 => execQueueRetry c q s
  | 4 => execQueueSkip c q s
  | _ => execQcmdUndefined c q s

/-- A write to LNKCTL (R362): AUTO, then DOWN, then TRAIN. -/
def linkCommand (n : Nat) (v : Word) (s : State) : State :=
  let l := BitVec.ofNat 8 n
  let s := s.writeLinkReg n 0 v
  let s := if v.b 1 then s.after (execLnkctlDown l s) else s
  if v.b 2 then s.after (execLnkctlTrain l s) else s

/-- A write to RTCTL (R390): CTX, then a start or a stop. -/
def threadCommand (r t : Nat) (v : Word) (s : State) : State :=
  let on := (s.rtAt r t).ctl.b 63
  let s := s.writeRetrReg r (0x100 * t) v
  if v.b 63 && !on then s.after (execRtThreadStart (BitVec.ofNat 4 r) (BitVec.ofNat 3 t) s)
  else if !v.b 63 && on then s.after (execRtThreadStop (BitVec.ofNat 4 r) (BitVec.ofNat 3 t) s)
  else s

/-- An 8-byte write to a BAR (R81, R201, R453, R458): each register takes it as its chapter states. In BOOTFAIL no access
reaches a register; the commands that a module in ERROR does not admit change nothing, or set BADCMD. -/
def State.barWrite (s : State) (bar off : Nat) (v : Word) : State :=
  let ctx (base : Nat) : BitVec 4 := BitVec.ofNat 4 ((off - base) / 0x1000)
  let o := off % 0x1000
  let plain : State := s.after (execRegisterWrite off v s)
  if s.modstat.phase = 1 then s
  else if bar ≠ 0 then
    if off < 0x10000 ∧ o < 0x200 then s.after (execDoorbell (ctx 0) (BitVec.ofNat 6 (o / 8)) v s) else s
  else if 0x400000 ≤ off ∧ off < 0x410000 then
    let n := ctx 0x400000
    if o = 0x000 then s.after (ctxCommand n v s)
    else if o = 0x008 then plain
    else if o = 0x020 then s.after (execFrctlWrite n v s)
    else s.after (execConfigRegisterWrite off v s)
  else if 0x500000 ≤ off ∧ off < 0x501000 then
    if o = 0x008 then s.after (execPtinv v s)
    else if o = 0x018 then s.after (execPgabort v s)
    else if 0x100 ≤ o ∧ o < 0x180 then (if v.b 8 then s.after (execFgenFlush (BitVec.ofNat 4 ((o - 0x100) / 8)) s) else s)
    else plain
  else if 0x600000 ≤ off ∧ off < 0x610000 then
    let n := ctx 0x600000
    let q := BitVec.ofNat 6 (o / 0x40)
    if o % 0x40 = 0x00 then s.after (execQueueConfigWrite n q false v s)
    else if o % 0x40 = 0x08 then s.after (execQueueConfigWrite n q true v s)
    else if o % 0x40 = 0x20 then s.after (queueCommand n q v s)
    else plain
  else if 0x700000 ≤ off ∧ off < 0x701000 then
    if o = 0x100 then s.after (execPreempt v s) else s.after (execConfigRegisterWrite off v s)
  else if 0x800000 ≤ off ∧ off < 0x810000 then
    if off % 0x100 = 0 then linkCommand ((off - 0x800000) / 0x100) v s else plain
  else if off = 0x810000 then (if v.b 0 then s.after (execRotorEnable s) else plain)
  else if 0xA00000 ≤ off ∧ off < 0xA02000 then
    let m := BitVec.ofNat 8 ((off - 0xA00000) / 0x20)
    if off % 0x20 = 0x10 then
      match v.f 1 0 with
      | 1 => s.after (execLlcmdGrant m s)
      | 2 => s.after (execLlcmdReclaim m s)
      | _ => s
    else plain
  else if 0xA10000 ≤ off ∧ off < 0xA18000 then
    let n := BitVec.ofNat 10 ((off - 0xA10000) / 0x20)
    if off % 0x20 = 0x10 then
      match v.f 1 0 with
      | 1 => s.after (execBlcmdExpect n s)
      | 2 => s.after (execBlcmdRelease n s)
      | 3 => s.after (execBlcmdClear n s)
      | _ => s
    else plain
  else match s.retrOf off with
  | some r =>
    if o = 0x818 then (if v.b 0 then s.after (execMiggo (BitVec.ofNat 4 r) s) else s)
    else if o % 0x100 = 0 ∧ 0x100 ≤ o ∧ o < 0x800 then threadCommand r (o / 0x100) v s
    else plain
  | none => plain

/-- HOST_BAR_ACCESS (R81, R93, R149, R453): a host's 8-byte access through a BAR, an aligned offset; a read's word goes to the
host. In BOOTFAIL the access completes with Unsupported Request: a read without a word, a write without effect. -/
def execHostBarAccess (wr : Bool) (bar off : Nat) (v : Word) (s : State) : Out :=
  .next (if wr then s.barWrite bar (off / 8 * 8) v
  else { s with hostReads := s.hostReads ++ [if s.modstat.phase = 1 then none else some (s.barRead bar (off / 8 * 8))] })

/-- Performs the oldest register access that waits at the host interface: a core's store to the device aperture (R93, R149);
what waited behind it goes on, and the core's sleeping WAITEs read again (R261). -/
def State.drainBar (s : State) : State :=
  match s.barq with
  | [] => s
  | a :: rest => (({ s with barq := rest }.barWrite a.bar a.off a.val).settle).rereadFor a.unit

end Sys2Proof.Machine
end

