-- ==== Sys2Proof/Machine/Scalar.lean ====
section
/-! DEFINITION. The scalar ALU and predicate instructions (R239 to R249). -/

namespace Sys2Proof.Machine

/-! ### The operations (R241): n the width, x and y the operands' low n bits -/

/-- Clamp to the range of an n-bit signed value. -/
def clampN (r : Int) (n : Nat) : Int :=
  max (-((2 ^ (n - 1) : Nat) : Int)) (min (((2 ^ (n - 1) : Nat) : Int) - 1) r)

/-- The number of leading bits, below the highest, equal to the sign bit of an n-bit value (R43 rsb). -/
def rsbN (x n : Nat) : Nat := if bit x (n - 1) then n - 1 - bitLen n (2 ^ n - 1 - x % 2 ^ n) else n - 1 - bitLen n x

/-- The operation of ADD (R241). -/
def aluAdd (n x y : Nat) : Int :=
  let sx := sext x n
  let sy := sext y n
  sx + sy

/-- The operation of SUB (R241). -/
def aluSub (n x y : Nat) : Int :=
  let sx := sext x n
  let sy := sext y n
  sx - sy

/-- The operation of SADD (R241). -/
def aluSadd (n x y : Nat) : Int :=
  let sx := sext x n
  let sy := sext y n
  clampN (sx + sy) n

/-- The operation of SSUB (R241). -/
def aluSsub (n x y : Nat) : Int :=
  let sx := sext x n
  let sy := sext y n
  clampN (sx - sy) n

/-- The operation of MUL (R241). -/
def aluMul (n x y : Nat) : Int :=
  let sx := sext x n
  let sy := sext y n
  sx * sy

/-- The operation of MULH (R241). -/
def aluMulh (n x y : Nat) : Int :=
  let sx := sext x n
  let sy := sext y n
  (sx * sy) / ((2 ^ n : Nat) : Int)

/-- The operation of MULHU (R241). -/
def aluMulhu (n x y : Nat) : Int :=
  ((x * y / 2 ^ n : Nat) : Int)

/-- The operation of DIV (R241). -/
def aluDiv (n x y : Nat) : Int :=
  let sx := sext x n
  let sy := sext y n
  Int.tdiv sx sy

/-- The operation of DIVU (R241). -/
def aluDivu (_n x y : Nat) : Int :=
  ((x / y : Nat) : Int)

/-- The operation of REM (R241). -/
def aluRem (n x y : Nat) : Int :=
  let sx := sext x n
  let sy := sext y n
  sx - sy * Int.tdiv sx sy

/-- The operation of REMU (R241). -/
def aluRemu (_n x y : Nat) : Int :=
  ((x % y : Nat) : Int)

/-- The operation of AND (R241). -/
def aluAnd (_n x y : Nat) : Int :=
  ((x &&& y : Nat) : Int)

/-- The operation of OR (R241). -/
def aluOr (_n x y : Nat) : Int :=
  ((x ||| y : Nat) : Int)

/-- The operation of XOR (R241). -/
def aluXor (_n x y : Nat) : Int :=
  ((x ^^^ y : Nat) : Int)

/-- The operation of SHL (R241). -/
def aluShl (n x y : Nat) : Int :=
  ((x * 2 ^ (y % n) : Nat) : Int)

/-- The operation of SHR (R241). -/
def aluShr (n x y : Nat) : Int :=
  ((x / 2 ^ (y % n) : Nat) : Int)

/-- The operation of SRA (R241). -/
def aluSra (n x y : Nat) : Int :=
  let sx := sext x n
  sx / ((2 ^ (y % n) : Nat) : Int)

/-- The operation of MIN (R241). -/
def aluMin (n x y : Nat) : Int :=
  let sx := sext x n
  let sy := sext y n
  min sx sy

/-- The operation of MAX (R241). -/
def aluMax (n x y : Nat) : Int :=
  let sx := sext x n
  let sy := sext y n
  max sx sy

/-- The operation of MINU (R241). -/
def aluMinu (_n x y : Nat) : Int :=
  ((Nat.min x y : Nat) : Int)

/-- The operation of MAXU (R241). -/
def aluMaxu (_n x y : Nat) : Int :=
  ((Nat.max x y : Nat) : Int)

/-- A two-source scalar instruction of format RR: sources narrowed to the width, the result sign-extended (R240,
R241). -/
def State.alu2 (s : State) (w : Bool) (d : Dst) (a b : Src) (lam : Nat) (f : Nat → Nat → Nat → Int) : State :=
  let t := s.task
  let n := opWidth w
  (s.touch [a, b]).retG d lam (narrow (f n ((t.srcG a).toNat % 2 ^ n) ((t.srcG b).toNat % 2 ^ n)) n)

/-- A division: a zero divisor raises 0x0C3 and writes nothing (R241). -/
def State.aluDiv (s : State) (w : Bool) (d : Dst) (a b : Src) (f : Nat → Nat → Nat → Int) : State :=
  if (s.task.srcG b).toNat % 2 ^ opWidth w = 0 then (s.touch [a, b]).raise 0x0C3 else s.alu2 w d a b 20 f

/-- A one-source scalar instruction (R241). -/
def State.alu1 (s : State) (w : Bool) (d : Dst) (a : Src) (f : Nat → Nat → Int) : State :=
  let n := opWidth w
  (s.touch [a]).retG d 1 (narrow (f n ((s.task.srcG a).toNat % 2 ^ n)) n)

/-- An immediate form: the operation on source a and the immediate c, at 64 bits (R242). -/
def State.aluI (s : State) (d : Dst) (a : Src) (c : Int) (f : Nat → Nat → Nat → Int) : State :=
  (s.touch [a]).retG d 1 (narrow (f 64 (s.task.srcG a).toNat (wrap c 64)) 64)

/-! ### The meanings -/

/-- ADD (R241). -/
def execAdd (w : Bool) (d : Dst) (a b : Src) (s : State) : Out := .next (s.alu2 w d a b 1 aluAdd)

/-- SUB (R241). -/
def execSub (w : Bool) (d : Dst) (a b : Src) (s : State) : Out := .next (s.alu2 w d a b 1 aluSub)

/-- SADD (R241). -/
def execSadd (w : Bool) (d : Dst) (a b : Src) (s : State) : Out := .next (s.alu2 w d a b 1 aluSadd)

/-- SSUB (R241). -/
def execSsub (w : Bool) (d : Dst) (a b : Src) (s : State) : Out := .next (s.alu2 w d a b 1 aluSsub)

/-- MUL (R241). -/
def execMul (w : Bool) (d : Dst) (a b : Src) (s : State) : Out := .next (s.alu2 w d a b 3 aluMul)

/-- MULH (R241). -/
def execMulh (w : Bool) (d : Dst) (a b : Src) (s : State) : Out := .next (s.alu2 w d a b 3 aluMulh)

/-- MULHU (R241). -/
def execMulhu (w : Bool) (d : Dst) (a b : Src) (s : State) : Out := .next (s.alu2 w d a b 3 aluMulhu)

/-- DIV (R241). -/
def execDiv (w : Bool) (d : Dst) (a b : Src) (s : State) : Out := .next (s.aluDiv w d a b aluDiv)

/-- DIVU (R241). -/
def execDivu (w : Bool) (d : Dst) (a b : Src) (s : State) : Out := .next (s.aluDiv w d a b aluDivu)

/-- REM (R241). -/
def execRem (w : Bool) (d : Dst) (a b : Src) (s : State) : Out := .next (s.aluDiv w d a b aluRem)

/-- REMU (R241). -/
def execRemu (w : Bool) (d : Dst) (a b : Src) (s : State) : Out := .next (s.aluDiv w d a b aluRemu)

/-- AND (R241). -/
def execAnd (d : Dst) (a b : Src) (s : State) : Out := .next (s.alu2 false d a b 1 aluAnd)

/-- OR (R241). -/
def execOr (d : Dst) (a b : Src) (s : State) : Out := .next (s.alu2 false d a b 1 aluOr)

/-- XOR (R241). -/
def execXor (d : Dst) (a b : Src) (s : State) : Out := .next (s.alu2 false d a b 1 aluXor)

/-- SHL (R241). -/
def execShl (w : Bool) (d : Dst) (a b : Src) (s : State) : Out := .next (s.alu2 w d a b 1 aluShl)

/-- SHR (R241). -/
def execShr (w : Bool) (d : Dst) (a b : Src) (s : State) : Out := .next (s.alu2 w d a b 1 aluShr)

/-- SRA (R241). -/
def execSra (w : Bool) (d : Dst) (a b : Src) (s : State) : Out := .next (s.alu2 w d a b 1 aluSra)

/-- MIN (R241). -/
def execMin (w : Bool) (d : Dst) (a b : Src) (s : State) : Out := .next (s.alu2 w d a b 1 aluMin)

/-- MAX (R241). -/
def execMax (w : Bool) (d : Dst) (a b : Src) (s : State) : Out := .next (s.alu2 w d a b 1 aluMax)

/-- MINU (R241). -/
def execMinu (w : Bool) (d : Dst) (a b : Src) (s : State) : Out := .next (s.alu2 w d a b 1 aluMinu)

/-- MAXU (R241). -/
def execMaxu (w : Bool) (d : Dst) (a b : Src) (s : State) : Out := .next (s.alu2 w d a b 1 aluMaxu)

/-- ADDI (R242). -/
def execAddi (d : Dst) (a : Src) (imm : BitVec 19) (s : State) : Out := .next (s.aluI d a (immI imm) aluAdd)

/-- ANDI (R242). -/
def execAndi (d : Dst) (a : Src) (imm : BitVec 19) (s : State) : Out := .next (s.aluI d a (immI imm) aluAnd)

/-- ORI (R242). -/
def execOri (d : Dst) (a : Src) (imm : BitVec 19) (s : State) : Out := .next (s.aluI d a (immI imm) aluOr)

/-- XORI (R242). -/
def execXori (d : Dst) (a : Src) (imm : BitVec 19) (s : State) : Out := .next (s.aluI d a (immI imm) aluXor)

/-- SHLI (R242). -/
def execShli (d : Dst) (a : Src) (amt : BitVec 6) (s : State) : Out := .next (s.aluI d a amt.toNat aluShl)

/-- SHRI (R242). -/
def execShri (d : Dst) (a : Src) (amt : BitVec 6) (s : State) : Out := .next (s.aluI d a amt.toNat aluShr)

/-- SRAI (R242). -/
def execSrai (d : Dst) (a : Src) (amt : BitVec 6) (s : State) : Out := .next (s.aluI d a amt.toNat aluSra)

/-- CLZ (R241): leading zeros. -/
def execClz (w : Bool) (d : Dst) (a : Src) (s : State) : Out := .next (s.alu1 w d a fun n x => ((n - bitLen n x : Nat) : Int))

/-- CLS (R241): redundant sign bits. -/
def execCls (w : Bool) (d : Dst) (a : Src) (s : State) : Out := .next (s.alu1 w d a fun n x => ((rsbN x n : Nat) : Int))

/-- POPC (R241): set bits. -/
def execPopc (w : Bool) (d : Dst) (a : Src) (s : State) : Out := .next (s.alu1 w d a fun n x => ((popcount n x : Nat) : Int))

/-- The width SEXT extends from: 8, 16 or 32 (R243). -/
def sextWidth (n : BitVec 2) : Nat := 8 * 2 ^ n.toNat

/-- SEXT (R243): the low 8, 16 or 32 bits, sign- or zero-extended. -/
def execSext (u : Bool) (n : BitVec 2) (d : Dst) (a : Src) (s : State) : Out := .next (
    let x := (s.task.srcG a).toNat
    let k := sextWidth n
    (s.touch [a]).retG d 1 (if u then BitVec.ofNat 64 (x % 2 ^ k) else toWord (sext x k)))

/-- LUI (R244): the source shifted by the immediate's width, plus the unsigned immediate. -/
def execLui (wide : Bool) (d : Dst) (a : Src) (imm : BitVec 19) (s : State) : Out := .next (
    (s.touch [a]).retG d 1 (((s.task.srcG a) <<< (if wide then 19 else 11)) + BitVec.ofNat 64 imm.toNat))

/-- CMP (R245). -/
def execCmp (c : BitVec 4) (d : Dst) (a b : Src) (s : State) : Out := .next ((s.touch [a, b]).retQ d (cmpHolds c.toNat (s.task.srcG a) (s.task.srcG b)))

/-- CMPI (R246): all four conditions are signed. -/
def execCmpi (c : BitVec 2) (d : Dst) (a : Src) (imm : BitVec 19) (s : State) : Out := .next ((s.touch [a]).retQ d (cmpHolds c.toNat (s.task.srcG a) (toWord (immI imm))))

/-- QOP (R247). -/
def execQop (o : BitVec 4) (d : Dst) (a b : Src) (s : State) : Out := .next ((s.touch [a, b]).retQ d (qopVal o.toNat (s.task.srcQ a) (s.task.srcQ b)))

/-- QMOV Qd, Ga (R248). -/
def execQmovQFromG (d : Dst) (a : Src) (s : State) : Out := .next ((s.touch [a]).retQ d (s.task.srcG a != 0))

/-- QMOV Gd, Qa (R248). -/
def execQmovGFromQ (d : Dst) (a : Src) (s : State) : Out := .next ((s.touch [a]).retG d 1 (BitVec.ofNat 64 (b2n (s.task.srcQ a))))

/-- QMOV.ALLG (R248). -/
def execQmovAllg (d : Dst) (s : State) : Out := .next (s.retG d 1 (BitVec.ofNat 64 s.task.qImage))

/-- QMOV.ALLQ (R248): Q1-Q15 take bits 1-15; the latch receives the predicate image it leaves. -/
def execQmovAllq (sup : Bool) (a : Src) (s : State) : Out := .next (
    (s.touch [a]).result .qAll sup 1 (imgW (BitVec.ofNat 64 ((s.task.srcG a).f 15 1 * 2 + 1))))

/-- SEL (R249). -/
def execSel (d : Dst) (a b : Src) (c : BitVec 4) (s : State) : Out := .next (
    (s.touch [a, b]).retG d 1 (if s.task.qReg c.toNat then s.task.srcG a else s.task.srcG b))

end Sys2Proof.Machine
end

