-- ==== Sys2Proof/Machine/Dispatch.lean ====
section
/-! DEFINITION. exec: one arm for each constructor of Instr, each a direct call of its meaning. -/

namespace Sys2Proof.Machine

def exec (i : Instr) (s : State) : Host.Outcome State Fault Refusal :=
  match i with
  | .nop => Sys2Proof.Machine.execNop s
  | .add a0 a1 a2 a3 => Sys2Proof.Machine.execAdd a0 a1 a2 a3 s
  | .addi a0 a1 a2 => Sys2Proof.Machine.execAddi a0 a1 a2 s
  | .sub a0 a1 a2 a3 => Sys2Proof.Machine.execSub a0 a1 a2 a3 s
  | .sadd a0 a1 a2 a3 => Sys2Proof.Machine.execSadd a0 a1 a2 a3 s
  | .ssub a0 a1 a2 a3 => Sys2Proof.Machine.execSsub a0 a1 a2 a3 s
  | .mul a0 a1 a2 a3 => Sys2Proof.Machine.execMul a0 a1 a2 a3 s
  | .mulh a0 a1 a2 a3 => Sys2Proof.Machine.execMulh a0 a1 a2 a3 s
  | .mulhu a0 a1 a2 a3 => Sys2Proof.Machine.execMulhu a0 a1 a2 a3 s
  | .div a0 a1 a2 a3 => Sys2Proof.Machine.execDiv a0 a1 a2 a3 s
  | .divu a0 a1 a2 a3 => Sys2Proof.Machine.execDivu a0 a1 a2 a3 s
  | .rem a0 a1 a2 a3 => Sys2Proof.Machine.execRem a0 a1 a2 a3 s
  | .remu a0 a1 a2 a3 => Sys2Proof.Machine.execRemu a0 a1 a2 a3 s
  | .and a0 a1 a2 => Sys2Proof.Machine.execAnd a0 a1 a2 s
  | .andi a0 a1 a2 => Sys2Proof.Machine.execAndi a0 a1 a2 s
  | .or a0 a1 a2 => Sys2Proof.Machine.execOr a0 a1 a2 s
  | .ori a0 a1 a2 => Sys2Proof.Machine.execOri a0 a1 a2 s
  | .xor a0 a1 a2 => Sys2Proof.Machine.execXor a0 a1 a2 s
  | .xori a0 a1 a2 => Sys2Proof.Machine.execXori a0 a1 a2 s
  | .shl a0 a1 a2 a3 => Sys2Proof.Machine.execShl a0 a1 a2 a3 s
  | .shli a0 a1 a2 => Sys2Proof.Machine.execShli a0 a1 a2 s
  | .shr a0 a1 a2 a3 => Sys2Proof.Machine.execShr a0 a1 a2 a3 s
  | .shri a0 a1 a2 => Sys2Proof.Machine.execShri a0 a1 a2 s
  | .sra a0 a1 a2 a3 => Sys2Proof.Machine.execSra a0 a1 a2 a3 s
  | .srai a0 a1 a2 => Sys2Proof.Machine.execSrai a0 a1 a2 s
  | .min a0 a1 a2 a3 => Sys2Proof.Machine.execMin a0 a1 a2 a3 s
  | .max a0 a1 a2 a3 => Sys2Proof.Machine.execMax a0 a1 a2 a3 s
  | .minu a0 a1 a2 a3 => Sys2Proof.Machine.execMinu a0 a1 a2 a3 s
  | .maxu a0 a1 a2 a3 => Sys2Proof.Machine.execMaxu a0 a1 a2 a3 s
  | .clz a0 a1 a2 => Sys2Proof.Machine.execClz a0 a1 a2 s
  | .cls a0 a1 a2 => Sys2Proof.Machine.execCls a0 a1 a2 s
  | .popc a0 a1 a2 => Sys2Proof.Machine.execPopc a0 a1 a2 s
  | .sext a0 a1 a2 a3 => Sys2Proof.Machine.execSext a0 a1 a2 a3 s
  | .lui a0 a1 a2 a3 => Sys2Proof.Machine.execLui a0 a1 a2 a3 s
  | .cmp a0 a1 a2 a3 => Sys2Proof.Machine.execCmp a0 a1 a2 a3 s
  | .cmpi a0 a1 a2 a3 => Sys2Proof.Machine.execCmpi a0 a1 a2 a3 s
  | .qop a0 a1 a2 a3 => Sys2Proof.Machine.execQop a0 a1 a2 a3 s
  | .qmovQFromG a0 a1 => Sys2Proof.Machine.execQmovQFromG a0 a1 s
  | .qmovGFromQ a0 a1 => Sys2Proof.Machine.execQmovGFromQ a0 a1 s
  | .qmovAllg a0 => Sys2Proof.Machine.execQmovAllg a0 s
  | .qmovAllq a0 a1 => Sys2Proof.Machine.execQmovAllq a0 a1 s
  | .sel a0 a1 a2 a3 => Sys2Proof.Machine.execSel a0 a1 a2 a3 s
  | .br a0 => Sys2Proof.Machine.execBr a0 s
  | .brt a0 a1 => Sys2Proof.Machine.execBrt a0 a1 s
  | .brf a0 a1 => Sys2Proof.Machine.execBrf a0 a1 s
  | .call a0 => Sys2Proof.Machine.execCall a0 s
  | .callt a0 a1 a2 => Sys2Proof.Machine.execCallt a0 a1 a2 s
  | .ret a0 => Sys2Proof.Machine.execRet a0 s
  | .jmpt a0 a1 a2 => Sys2Proof.Machine.execJmpt a0 a1 a2 s
  | .lpad a0 => Sys2Proof.Machine.execLpad a0 s
  | .loop a0 a1 => Sys2Proof.Machine.execLoop a0 a1 s
  | .loopi a0 a1 => Sys2Proof.Machine.execLoopi a0 a1 s
  | .lbrk a0 a1 => Sys2Proof.Machine.execLbrk a0 a1 s
  | .yield => Sys2Proof.Machine.execYield s
  | .waitc a0 => Sys2Proof.Machine.execWaitc a0 s
  | .waite a0 a1 a2 a3 => Sys2Proof.Machine.execWaite a0 a1 a2 a3 s
  | .twaitAll a0 => Sys2Proof.Machine.execTwaitAll a0 s
  | .twait a0 a1 => Sys2Proof.Machine.execTwait a0 a1 s
  | .twaitZ a0 a1 => Sys2Proof.Machine.execTwaitZ a0 a1 s
  | .endTask => Sys2Proof.Machine.execEndTask s
  | .trapi a0 => Sys2Proof.Machine.execTrapi a0 s
  | .eret => Sys2Proof.Machine.execEret s
  | .csrr a0 a1 => Sys2Proof.Machine.execCsrr a0 a1 s
  | .csrw a0 a1 => Sys2Proof.Machine.execCsrw a0 a1 s
  | .fence a0 => Sys2Proof.Machine.execFence a0 s
  | .launch a0 a1 => Sys2Proof.Machine.execLaunch a0 a1 s
  | .launchW a0 a1 => Sys2Proof.Machine.execLaunchW a0 a1 s
  | .barinit a0 a1 a2 => Sys2Proof.Machine.execBarinit a0 a1 a2 s
  | .bararr a0 a1 a2 => Sys2Proof.Machine.execBararr a0 a1 a2 s
  | .barwait a0 a1 a2 => Sys2Proof.Machine.execBarwait a0 a1 a2 s
  | .barwaitA a0 a1 => Sys2Proof.Machine.execBarwaitA a0 a1 s
  | .barq a0 a1 a2 => Sys2Proof.Machine.execBarq a0 a1 a2 s
  | .ldb a0 a1 a2 a3 => Sys2Proof.Machine.execLdb a0 a1 a2 a3 s
  | .lds a0 a1 a2 a3 => Sys2Proof.Machine.execLds a0 a1 a2 a3 s
  | .ldw a0 a1 a2 a3 => Sys2Proof.Machine.execLdw a0 a1 a2 a3 s
  | .ldd a0 a1 a2 a3 => Sys2Proof.Machine.execLdd a0 a1 a2 a3 s
  | .stb a0 a1 a2 a3 => Sys2Proof.Machine.execStb a0 a1 a2 a3 s
  | .sts a0 a1 a2 a3 => Sys2Proof.Machine.execSts a0 a1 a2 a3 s
  | .stw a0 a1 a2 a3 => Sys2Proof.Machine.execStw a0 a1 a2 a3 s
  | .std a0 a1 a2 a3 => Sys2Proof.Machine.execStd a0 a1 a2 a3 s
  | .ldAcq a0 a1 a2 a3 a4 a5 => Sys2Proof.Machine.execLdAcq a0 a1 a2 a3 a4 a5 s
  | .stRel a0 a1 a2 a3 a4 => Sys2Proof.Machine.execStRel a0 a1 a2 a3 a4 s
  | .ldh a0 a1 a2 a3 a4 a5 => Sys2Proof.Machine.execLdh a0 a1 a2 a3 a4 a5 s
  | .chkh a0 a1 a2 a3 a4 a5 => Sys2Proof.Machine.execChkh a0 a1 a2 a3 a4 a5 s
  | .aadd a0 a1 a2 a3 a4 a5 => Sys2Proof.Machine.execAadd a0 a1 a2 a3 a4 a5 s
  | .asadd a0 a1 a2 a3 a4 a5 => Sys2Proof.Machine.execAsadd a0 a1 a2 a3 a4 a5 s
  | .amin a0 a1 a2 a3 a4 a5 => Sys2Proof.Machine.execAmin a0 a1 a2 a3 a4 a5 s
  | .amax a0 a1 a2 a3 a4 a5 => Sys2Proof.Machine.execAmax a0 a1 a2 a3 a4 a5 s
  | .aand a0 a1 a2 a3 a4 a5 => Sys2Proof.Machine.execAand a0 a1 a2 a3 a4 a5 s
  | .aor a0 a1 a2 a3 a4 a5 => Sys2Proof.Machine.execAor a0 a1 a2 a3 a4 a5 s
  | .axchg a0 a1 a2 a3 a4 a5 => Sys2Proof.Machine.execAxchg a0 a1 a2 a3 a4 a5 s
  | .acas a0 a1 a2 a3 a4 a5 => Sys2Proof.Machine.execAcas a0 a1 a2 a3 a4 a5 s
  | .acas2 a0 a1 a2 a3 a4 => Sys2Proof.Machine.execAcas2 a0 a1 a2 a3 a4 s
  | .remop a0 a1 a2 a3 a4 => Sys2Proof.Machine.execRemop a0 a1 a2 a3 a4 s
  | .pgdisc a0 a1 => Sys2Proof.Machine.execPgdisc a0 a1 s
  | .pgpref a0 a1 => Sys2Proof.Machine.execPgpref a0 a1 s
  | .pgprefRec a0 a1 => Sys2Proof.Machine.execPgprefRec a0 a1 s
  | .pgprefRecw a0 a1 => Sys2Proof.Machine.execPgprefRecw a0 a1 s
  | .pkget a0 a1 => Sys2Proof.Machine.execPkget a0 a1 s
  | .pkreply a0 a1 => Sys2Proof.Machine.execPkreply a0 a1 s
  | .pkfwd a0 a1 => Sys2Proof.Machine.execPkfwd a0 a1 s
  | .pkdone a0 a1 => Sys2Proof.Machine.execPkdone a0 a1 s
  | .vadd a0 a1 a2 a3 => Sys2Proof.Machine.execVadd a0 a1 a2 a3 s
  | .vsub a0 a1 a2 a3 => Sys2Proof.Machine.execVsub a0 a1 a2 a3 s
  | .vsadd a0 a1 a2 a3 => Sys2Proof.Machine.execVsadd a0 a1 a2 a3 s
  | .vssub a0 a1 a2 a3 => Sys2Proof.Machine.execVssub a0 a1 a2 a3 s
  | .vmul a0 a1 a2 a3 => Sys2Proof.Machine.execVmul a0 a1 a2 a3 s
  | .vmulh a0 a1 a2 a3 => Sys2Proof.Machine.execVmulh a0 a1 a2 a3 s
  | .vmulhQ a0 a1 a2 a3 => Sys2Proof.Machine.execVmulhQ a0 a1 a2 a3 s
  | .vmac a0 a1 a2 a3 => Sys2Proof.Machine.execVmac a0 a1 a2 a3 s
  | .vmin a0 a1 a2 a3 => Sys2Proof.Machine.execVmin a0 a1 a2 a3 s
  | .vmax a0 a1 a2 a3 => Sys2Proof.Machine.execVmax a0 a1 a2 a3 s
  | .vabs a0 a1 a2 => Sys2Proof.Machine.execVabs a0 a1 a2 s
  | .vneg a0 a1 a2 => Sys2Proof.Machine.execVneg a0 a1 a2 s
  | .vand a0 a1 a2 a3 => Sys2Proof.Machine.execVand a0 a1 a2 a3 s
  | .vor a0 a1 a2 a3 => Sys2Proof.Machine.execVor a0 a1 a2 a3 s
  | .vxor a0 a1 a2 a3 => Sys2Proof.Machine.execVxor a0 a1 a2 a3 s
  | .vshl a0 a1 a2 a3 => Sys2Proof.Machine.execVshl a0 a1 a2 a3 s
  | .vshlS a0 a1 a2 a3 => Sys2Proof.Machine.execVshlS a0 a1 a2 a3 s
  | .vshr a0 a1 a2 a3 => Sys2Proof.Machine.execVshr a0 a1 a2 a3 s
  | .vsra a0 a1 a2 a3 => Sys2Proof.Machine.execVsra a0 a1 a2 a3 s
  | .vnshr a0 a1 a2 a3 a4 => Sys2Proof.Machine.execVnshr a0 a1 a2 a3 a4 s
  | .vcmp a0 a1 a2 a3 a4 => Sys2Proof.Machine.execVcmp a0 a1 a2 a3 a4 s
  | .vsel a0 a1 a2 a3 => Sys2Proof.Machine.execVsel a0 a1 a2 a3 s
  | .vkopAnd a0 a1 a2 => Sys2Proof.Machine.execVkopAnd a0 a1 a2 s
  | .vkopOr a0 a1 a2 => Sys2Proof.Machine.execVkopOr a0 a1 a2 s
  | .vkopXor a0 a1 a2 => Sys2Proof.Machine.execVkopXor a0 a1 a2 s
  | .vkopAndn a0 a1 a2 => Sys2Proof.Machine.execVkopAndn a0 a1 a2 s
  | .vkopFromv a0 a1 => Sys2Proof.Machine.execVkopFromv a0 a1 s
  | .vkopTov a0 a1 => Sys2Proof.Machine.execVkopTov a0 a1 s
  | .vkopFromg a0 a1 => Sys2Proof.Machine.execVkopFromg a0 a1 s
  | .vkopTog a0 a1 => Sys2Proof.Machine.execVkopTog a0 a1 s
  | .vkopPopc a0 a1 => Sys2Proof.Machine.execVkopPopc a0 a1 s
  | .vcvt a0 a1 a2 a3 a4 => Sys2Proof.Machine.execVcvt a0 a1 a2 a3 a4 s
  | .vwiden a0 a1 a2 a3 a4 => Sys2Proof.Machine.execVwiden a0 a1 a2 a3 a4 s
  | .vpack a0 a1 a2 a3 => Sys2Proof.Machine.execVpack a0 a1 a2 a3 s
  | .vunpk a0 a1 a2 a3 a4 => Sys2Proof.Machine.execVunpk a0 a1 a2 a3 a4 s
  | .vshuf a0 a1 a2 a3 => Sys2Proof.Machine.execVshuf a0 a1 a2 a3 s
  | .vpld a0 a1 => Sys2Proof.Machine.execVpld a0 a1 s
  | .vpsw a0 => Sys2Proof.Machine.execVpsw a0 s
  | .vpswAll a0 => Sys2Proof.Machine.execVpswAll a0 s
  | .vreds a0 a1 a2 => Sys2Proof.Machine.execVreds a0 a1 a2 s
  | .vredsSq a0 a1 a2 => Sys2Proof.Machine.execVredsSq a0 a1 a2 s
  | .vredmMax a0 a1 a2 => Sys2Proof.Machine.execVredmMax a0 a1 a2 s
  | .vredmMin a0 a1 a2 => Sys2Proof.Machine.execVredmMin a0 a1 a2 s
  | .vredmAmax a0 a1 a2 => Sys2Proof.Machine.execVredmAmax a0 a1 a2 s
  | .vscan a0 a1 a2 => Sys2Proof.Machine.execVscan a0 a1 a2 s
  | .vscanEx a0 a1 a2 => Sys2Proof.Machine.execVscanEx a0 a1 a2 s
  | .vbcast a0 a1 a2 => Sys2Proof.Machine.execVbcast a0 a1 a2 s
  | .vbcastV a0 a1 a2 a3 => Sys2Proof.Machine.execVbcastV a0 a1 a2 a3 s
  | .vextr a0 a1 a2 a3 => Sys2Proof.Machine.execVextr a0 a1 a2 a3 s
  | .vmovi a0 a1 a2 => Sys2Proof.Machine.execVmovi a0 a1 a2 s
  | .vld a0 a1 a2 a3 => Sys2Proof.Machine.execVld a0 a1 a2 a3 s
  | .vst a0 a1 a2 a3 => Sys2Proof.Machine.execVst a0 a1 a2 a3 s
  | .vgath a0 a1 a2 a3 a4 => Sys2Proof.Machine.execVgath a0 a1 a2 a3 a4 s
  | .vscat a0 a1 a2 a3 => Sys2Proof.Machine.execVscat a0 a1 a2 a3 s
  | .vtld a0 a1 a2 => Sys2Proof.Machine.execVtld a0 a1 a2 s
  | .vtst a0 a1 a2 => Sys2Proof.Machine.execVtst a0 a1 a2 s
  | .vldr a0 a1 => Sys2Proof.Machine.execVldr a0 a1 s
  | .vstr a0 a1 a2 => Sys2Proof.Machine.execVstr a0 a1 a2 s
  | .vdefer a0 a1 a2 a3 a4 => Sys2Proof.Machine.execVdefer a0 a1 a2 a3 a4 s
  | .vdrain a0 a1 a2 a3 => Sys2Proof.Machine.execVdrain a0 a1 a2 a3 s
  | .vcls a0 a1 a2 => Sys2Proof.Machine.execVcls a0 a1 a2 s
  | .vclsMin a0 a1 a2 => Sys2Proof.Machine.execVclsMin a0 a1 a2 s
  | .vrnds a0 a1 a2 a3 => Sys2Proof.Machine.execVrnds a0 a1 a2 a3 s
  | .vrndsNar a0 a1 a2 a3 a4 => Sys2Proof.Machine.execVrndsNar a0 a1 a2 a3 a4 s
  | .vexp2 a0 a1 a2 => Sys2Proof.Machine.execVexp2 a0 a1 a2 s
  | .vexp2Q a0 a1 a2 => Sys2Proof.Machine.execVexp2Q a0 a1 a2 s
  | .vlog2 a0 a1 a2 => Sys2Proof.Machine.execVlog2 a0 a1 a2 s
  | .vrcp a0 a1 => Sys2Proof.Machine.execVrcp a0 a1 s
  | .vrsq a0 a1 => Sys2Proof.Machine.execVrsq a0 a1 s
  | .vdivq a0 a1 a2 => Sys2Proof.Machine.execVdivq a0 a1 a2 s
  | .voptm a0 a1 a2 a3 => Sys2Proof.Machine.execVoptm a0 a1 a2 a3 s
  | .voptv a0 a1 a2 a3 => Sys2Proof.Machine.execVoptv a0 a1 a2 a3 s
  | .vopts a0 a1 a2 a3 => Sys2Proof.Machine.execVopts a0 a1 a2 a3 s
  | .voptmL a0 a1 a2 => Sys2Proof.Machine.execVoptmL a0 a1 a2 s
  | .voptvL a0 a1 a2 => Sys2Proof.Machine.execVoptvL a0 a1 a2 s
  | .voptsL a0 a1 a2 => Sys2Proof.Machine.execVoptsL a0 a1 a2 s
  | .tdset a0 a1 => Sys2Proof.Machine.execTdset a0 a1 s
  | .tscl a0 a1 => Sys2Proof.Machine.execTscl a0 a1 s
  | .tsclZ a0 a1 => Sys2Proof.Machine.execTsclZ a0 a1 s
  | .tcens a0 a1 a2 => Sys2Proof.Machine.execTcens a0 a1 a2 s
  | .tmma a0 a1 a2 => Sys2Proof.Machine.execTmma a0 a1 a2 s
  | .tmmas a0 a1 a2 => Sys2Proof.Machine.execTmmas a0 a1 a2 s
  | .tmmao a0 a1 a2 => Sys2Proof.Machine.execTmmao a0 a1 a2 s
  | .algld a0 a1 => Sys2Proof.Machine.execAlgld a0 a1 s
  | .tmmaa a0 a1 a2 a3 => Sys2Proof.Machine.execTmmaa a0 a1 a2 a3 s
  | .tmmaaSw a0 a1 a2 a3 => Sys2Proof.Machine.execTmmaaSw a0 a1 a2 a3 s
  | .tconj a0 a1 a2 => Sys2Proof.Machine.execTconj a0 a1 a2 s
  | .tnorm a0 a1 a2 => Sys2Proof.Machine.execTnorm a0 a1 a2 s
  | .tacc a0 a1 => Sys2Proof.Machine.execTacc a0 a1 s
  | .taccZ a0 a1 => Sys2Proof.Machine.execTaccZ a0 a1 s
  | .tzero a0 => Sys2Proof.Machine.execTzero a0 s
  | .tdrain a0 a1 => Sys2Proof.Machine.execTdrain a0 a1 s
  | .tdrainZ a0 a1 => Sys2Proof.Machine.execTdrainZ a0 a1 s
  | .tresc a0 a1 a2 => Sys2Proof.Machine.execTresc a0 a1 a2 s
  | .trescZ a0 a1 a2 => Sys2Proof.Machine.execTrescZ a0 a1 a2 s
  | .txps a0 a1 a2 => Sys2Proof.Machine.execTxps a0 a1 a2 s
  | .tld a0 a1 a2 => Sys2Proof.Machine.execTld a0 a1 a2 s
  | .tst a0 a1 a2 => Sys2Proof.Machine.execTst a0 a1 a2 s
  | .tstx a0 a1 a2 => Sys2Proof.Machine.execTstx a0 a1 a2 s
  | .dset a0 a1 a2 => Sys2Proof.Machine.execDset a0 a1 a2 s
  | .tcpyMm a0 a1 a2 => Sys2Proof.Machine.execTcpyMm a0 a1 a2 s
  | .tcpyTm a0 a1 a2 => Sys2Proof.Machine.execTcpyTm a0 a1 a2 s
  | .tcpyMt a0 a1 a2 => Sys2Proof.Machine.execTcpyMt a0 a1 a2 s
  | .tcpyTt a0 a1 a2 => Sys2Proof.Machine.execTcpyTt a0 a1 a2 s
  | .tcpyd a0 a1 a2 => Sys2Proof.Machine.execTcpyd a0 a1 a2 s
  | .tmskld a0 a1 a2 => Sys2Proof.Machine.execTmskld a0 a1 a2 s
  | .noise a0 a1 => Sys2Proof.Machine.execNoise a0 a1 s
  | .collOpen a0 a1 => Sys2Proof.Machine.execCollOpen a0 a1 s
  | .collRun a0 a1 => Sys2Proof.Machine.execCollRun a0 a1 s
  | .collShrink a0 a1 => Sys2Proof.Machine.execCollShrink a0 a1 s
  | .collJoin a0 a1 => Sys2Proof.Machine.execCollJoin a0 a1 s
  | .collCatch a0 a1 => Sys2Proof.Machine.execCollCatch a0 a1 s
  | .collClose a0 a1 => Sys2Proof.Machine.execCollClose a0 a1 s
  | .takePendingTrap a0 a1 => Sys2Proof.Machine.execTakePendingTrap a0 a1 s
  | .ctxCreate a0 => Sys2Proof.Machine.execCtxCreate a0 s
  | .ctxStart a0 => Sys2Proof.Machine.execCtxStart a0 s
  | .ctxStop a0 => Sys2Proof.Machine.execCtxStop a0 s
  | .ctxDestroy a0 => Sys2Proof.Machine.execCtxDestroy a0 s
  | .ctxcmdUndefined a0 => Sys2Proof.Machine.execCtxcmdUndefined a0 s
  | .ctxQuiesceComplete a0 => Sys2Proof.Machine.execCtxQuiesceComplete a0 s
  | .ctxDrainComplete a0 => Sys2Proof.Machine.execCtxDrainComplete a0 s
  | .configRegisterWrite a0 a1 => Sys2Proof.Machine.execConfigRegisterWrite a0 a1 s
  | .frctlWrite a0 a1 => Sys2Proof.Machine.execFrctlWrite a0 a1 s
  | .registerWrite a0 a1 => Sys2Proof.Machine.execRegisterWrite a0 a1 s
  | .hostBarAccess a0 a1 a2 a3 => Sys2Proof.Machine.execHostBarAccess a0 a1 a2 a3 s
  | .accessAtHomeController a0 => Sys2Proof.Machine.execAccessAtHomeController a0 s
  | .memoryReplyArrival a0 a1 a2 a3 => Sys2Proof.Machine.execMemoryReplyArrival a0 a1 a2 a3 s
  | .ptinv a0 => Sys2Proof.Machine.execPtinv a0 s
  | .ptinvComplete => Sys2Proof.Machine.execPtinvComplete s
  | .pgabort a0 => Sys2Proof.Machine.execPgabort a0 s
  | .fgenFlush a0 => Sys2Proof.Machine.execFgenFlush a0 s
  | .miggo a0 => Sys2Proof.Machine.execMiggo a0 s
  | .migrationComplete a0 => Sys2Proof.Machine.execMigrationComplete a0 s
  | .launchRecordArrival => Sys2Proof.Machine.execLaunchRecordArrival s
  | .kernelPlacement a0 => Sys2Proof.Machine.execKernelPlacement a0 s
  | .taskEndComplete a0 a1 => Sys2Proof.Machine.execTaskEndComplete a0 a1 s
  | .monopolyWatchdogExpiry a0 => Sys2Proof.Machine.execMonopolyWatchdogExpiry a0 s
  | .freezeConversion a0 => Sys2Proof.Machine.execFreezeConversion a0 s
  | .tileTaskStart a0 a1 => Sys2Proof.Machine.execTileTaskStart a0 a1 s
  | .tileTaskComplete a0 a1 => Sys2Proof.Machine.execTileTaskComplete a0 a1 s
  | .copyBurstReply a0 a1 => Sys2Proof.Machine.execCopyBurstReply a0 a1 s
  | .missedPromise a0 a1 => Sys2Proof.Machine.execMissedPromise a0 a1 s
  | .waiteReread a0 a1 => Sys2Proof.Machine.execWaiteReread a0 a1 s
  | .barrierArrival => Sys2Proof.Machine.execBarrierArrival s
  | .barrierBreak a0 a1 a2 => Sys2Proof.Machine.execBarrierBreak a0 a1 a2 s
  | .queueEnable a0 a1 => Sys2Proof.Machine.execQueueEnable a0 a1 s
  | .queueDisable a0 a1 => Sys2Proof.Machine.execQueueDisable a0 a1 s
  | .queueRetry a0 a1 => Sys2Proof.Machine.execQueueRetry a0 a1 s
  | .queueSkip a0 a1 => Sys2Proof.Machine.execQueueSkip a0 a1 s
  | .qcmdUndefined a0 a1 => Sys2Proof.Machine.execQcmdUndefined a0 a1 s
  | .queueConfigWrite a0 a1 a2 a3 => Sys2Proof.Machine.execQueueConfigWrite a0 a1 a2 a3 s
  | .doorbell a0 a1 a2 => Sys2Proof.Machine.execDoorbell a0 a1 a2 s
  | .graphStart a0 a1 => Sys2Proof.Machine.execGraphStart a0 a1 s
  | .kernelNode a0 a1 a2 => Sys2Proof.Machine.execKernelNode a0 a1 a2 s
  | .kernelNodeAdmit a0 a1 a2 => Sys2Proof.Machine.execKernelNodeAdmit a0 a1 a2 s
  | .copyNode a0 a1 a2 => Sys2Proof.Machine.execCopyNode a0 a1 a2 s
  | .copyNodeComplete a0 a1 a2 => Sys2Proof.Machine.execCopyNodeComplete a0 a1 a2 s
  | .signalNode a0 a1 a2 => Sys2Proof.Machine.execSignalNode a0 a1 a2 s
  | .waitNodeRead a0 a1 a2 => Sys2Proof.Machine.execWaitNodeRead a0 a1 a2 s
  | .waitNodeTimeout a0 a1 a2 => Sys2Proof.Machine.execWaitNodeTimeout a0 a1 a2 s
  | .conditionalNode a0 a1 a2 => Sys2Proof.Machine.execConditionalNode a0 a1 a2 s
  | .loopNodeEvaluate a0 a1 a2 => Sys2Proof.Machine.execLoopNodeEvaluate a0 a1 a2 s
  | .endNode a0 a1 => Sys2Proof.Machine.execEndNode a0 a1 s
  | .graphHaltComplete a0 a1 => Sys2Proof.Machine.execGraphHaltComplete a0 a1 s
  | .preempt a0 => Sys2Proof.Machine.execPreempt a0 s
  | .preemptionLanding a0 a1 => Sys2Proof.Machine.execPreemptionLanding a0 a1 s
  | .preemptionForced a0 a1 => Sys2Proof.Machine.execPreemptionForced a0 a1 s
  | .saveComplete a0 a1 => Sys2Proof.Machine.execSaveComplete a0 a1 s
  | .taskResume a0 a1 => Sys2Proof.Machine.execTaskResume a0 a1 s
  | .lnkctlTrain a0 => Sys2Proof.Machine.execLnkctlTrain a0 s
  | .lnkctlDown a0 => Sys2Proof.Machine.execLnkctlDown a0 s
  | .linkTrainingComplete a0 a1 => Sys2Proof.Machine.execLinkTrainingComplete a0 a1 s
  | .linkTrainingTimeout a0 => Sys2Proof.Machine.execLinkTrainingTimeout a0 s
  | .laneLost a0 a1 => Sys2Proof.Machine.execLaneLost a0 a1 s
  | .linkWidthAgreed a0 => Sys2Proof.Machine.execLinkWidthAgreed a0 s
  | .laneThresholdCrossed a0 a1 a2 => Sys2Proof.Machine.execLaneThresholdCrossed a0 a1 a2 s
  | .laneRetrainComplete a0 => Sys2Proof.Machine.execLaneRetrainComplete a0 s
  | .laneRetrainTimeout a0 => Sys2Proof.Machine.execLaneRetrainTimeout a0 s
  | .linkWiden a0 => Sys2Proof.Machine.execLinkWiden a0 s
  | .laneBackgroundCheck a0 a1 a2 => Sys2Proof.Machine.execLaneBackgroundCheck a0 a1 a2 s
  | .codewordReceived a0 a1 a2 a3 a4 => Sys2Proof.Machine.execCodewordReceived a0 a1 a2 a3 a4 s
  | .replayRequestReceived a0 a1 => Sys2Proof.Machine.execReplayRequestReceived a0 a1 s
  | .replayAckTimeout a0 => Sys2Proof.Machine.execReplayAckTimeout a0 s
  | .packetRoute => Sys2Proof.Machine.execPacketRoute s
  | .farDepthTimeout a0 => Sys2Proof.Machine.execFarDepthTimeout a0 s
  | .rotorEnable => Sys2Proof.Machine.execRotorEnable s
  | .rotorDwellStart a0 a1 => Sys2Proof.Machine.execRotorDwellStart a0 a1 s
  | .rotorGuardStart => Sys2Proof.Machine.execRotorGuardStart s
  | .rotorLockTimeout => Sys2Proof.Machine.execRotorLockTimeout s
  | .packetArrivalAtTarget a0 => Sys2Proof.Machine.execPacketArrivalAtTarget a0 s
  | .e2eAckArrival a0 a1 a2 a3 a4 => Sys2Proof.Machine.execE2eAckArrival a0 a1 a2 a3 a4 s
  | .e2eResendTimeout a0 a1 => Sys2Proof.Machine.execE2eResendTimeout a0 a1 s
  | .resetNoticeArrival a0 => Sys2Proof.Machine.execResetNoticeArrival a0 s
  | .rtThreadStart a0 a1 => Sys2Proof.Machine.execRtThreadStart a0 a1 s
  | .rtThreadStop a0 a1 => Sys2Proof.Machine.execRtThreadStop a0 a1 s
  | .llcmdGrant a0 => Sys2Proof.Machine.execLlcmdGrant a0 s
  | .llcmdReclaim a0 => Sys2Proof.Machine.execLlcmdReclaim a0 s
  | .blcmdExpect a0 => Sys2Proof.Machine.execBlcmdExpect a0 s
  | .blcmdRelease a0 => Sys2Proof.Machine.execBlcmdRelease a0 s
  | .blcmdClear a0 => Sys2Proof.Machine.execBlcmdClear a0 s
  | .leaseGrantArrival a0 a1 a2 a3 a4 => Sys2Proof.Machine.execLeaseGrantArrival a0 a1 a2 a3 a4 s
  | .leaseAcceptArrival a0 => Sys2Proof.Machine.execLeaseAcceptArrival a0 s
  | .leaseRefusalArrival a0 => Sys2Proof.Machine.execLeaseRefusalArrival a0 s
  | .leaseGrantTimeout a0 => Sys2Proof.Machine.execLeaseGrantTimeout a0 s
  | .leaseTermExpiry a0 => Sys2Proof.Machine.execLeaseTermExpiry a0 s
  | .leaseRenewalSend a0 => Sys2Proof.Machine.execLeaseRenewalSend a0 s
  | .leaseRenewalArrival a0 => Sys2Proof.Machine.execLeaseRenewalArrival a0 s
  | .leaseLapse a0 => Sys2Proof.Machine.execLeaseLapse a0 s
  | .reclaimNoticeArrival a0 a1 => Sys2Proof.Machine.execReclaimNoticeArrival a0 a1 s
  | .evictionComplete a0 => Sys2Proof.Machine.execEvictionComplete a0 s
  | .evictionReportArrival a0 a1 => Sys2Proof.Machine.execEvictionReportArrival a0 a1 s
  | .reclaimForceTimeout a0 => Sys2Proof.Machine.execReclaimForceTimeout a0 s
  | .collStepEnd a0 => Sys2Proof.Machine.execCollStepEnd a0 s
  | .collStepSend a0 => Sys2Proof.Machine.execCollStepSend a0 s
  | .collStepRecv a0 => Sys2Proof.Machine.execCollStepRecv a0 s
  | .collStepPsend a0 => Sys2Proof.Machine.execCollStepPsend a0 s
  | .collStepRrs a0 => Sys2Proof.Machine.execCollStepRrs a0 s
  | .collStepRed a0 => Sys2Proof.Machine.execCollStepRed a0 s
  | .collStepCopy a0 => Sys2Proof.Machine.execCollStepCopy a0 s
  | .collStepWait a0 => Sys2Proof.Machine.execCollStepWait a0 s
  | .collStepLoop a0 => Sys2Proof.Machine.execCollStepLoop a0 s
  | .collStepEndl a0 => Sys2Proof.Machine.execCollStepEndl a0 s
  | .collStepAppend a0 => Sys2Proof.Machine.execCollStepAppend a0 s
  | .collStepA2a a0 => Sys2Proof.Machine.execCollStepA2a a0 s
  | .collStepSignal a0 => Sys2Proof.Machine.execCollStepSignal a0 s
  | .collStepSar a0 => Sys2Proof.Machine.execCollStepSar a0 s
  | .collMessageArrival a0 => Sys2Proof.Machine.execCollMessageArrival a0 s
  | .collStepTimeout a0 => Sys2Proof.Machine.execCollStepTimeout a0 s
  | .collCatchComplete a0 a1 a2 => Sys2Proof.Machine.execCollCatchComplete a0 a1 a2 s
  | .appendRowArrival a0 a1 a2 a3 => Sys2Proof.Machine.execAppendRowArrival a0 a1 a2 a3 s
  | .sarRouterCombine a0 => Sys2Proof.Machine.execSarRouterCombine a0 s
  | .sarPartialResend a0 => Sys2Proof.Machine.execSarPartialResend a0 s
  | .powerRegrant a0 a1 => Sys2Proof.Machine.execPowerRegrant a0 a1 s
  | .i3cPowerLimitWrite a0 => Sys2Proof.Machine.execI3cPowerLimitWrite a0 s
  | .coolantLimit => Sys2Proof.Machine.execCoolantLimit s
  | .attestationRequest a0 => Sys2Proof.Machine.execAttestationRequest a0 s
  | .moduleReset a0 => Sys2Proof.Machine.execModuleReset a0 s
  | .hostLinkDown => Sys2Proof.Machine.execHostLinkDown s
  | .patrolScrub a0 a1 a2 => Sys2Proof.Machine.execPatrolScrub a0 a1 a2 s
  | .lpddr6Refresh => Sys2Proof.Machine.execLpddr6Refresh s
  | .hostLinkUp => Sys2Proof.Machine.execHostLinkUp s
  | .islandGrantExceeded a0 a1 => Sys2Proof.Machine.execIslandGrantExceeded a0 a1 s

end Sys2Proof.Machine
end

