-- ==== Sys2Proof/Machine/Issue.lean ====
section
/-! DEFINITION. The run queue and the issue of one bundle (R48 to R68, R170 to R172, R220 to R229, R256, R282, R384). -/

namespace Sys2Proof.Machine

/-! ### The run queue (R170, R171, R384) -/

/-- The READY tasks of a core, by slot. -/
def State.readyOn (s : State) (core : Nat) : List (Nat × Task) := (s.tasksOn core).filter fun x => x.2.stat == .ready

/-- The first of a list of slots after a slot, wrapping from 15 to 0. -/
def firstAfter (xs : List (Nat × Task)) (last : Option Nat) : Option (Nat × Task) :=
  let rank (slot : Nat) : Nat := match last with | some l => (slot + 15 - l) % 16 | none => slot
  xs.foldl (fun best x => match best with
    | none => some x
    | some b => if rank x.1 < rank b.1 then some x else some b) none

/-- The task the run queue of a core chooses (R170): the one aged first, else the deepest level's next in slot order. Of several that
aged at one choice the lowest slot goes first (R170 does not say, log 63). -/
def State.chosen (s : State) (core : Nat) : Option (Nat × Task) :=
  let rs := s.readyOn core
  let aged := rs.foldl (fun (best : Option ((Nat × Task) × Nat)) x => match best, x.2.agedAt with
    | none, some a => some (x, a)
    | some b, some a => if a < b.2 then some (x, a) else some b
    | b, none => b) none
  match aged with
  | some x => some x.1
  | none =>
    let level := rs.foldl (fun m x => Nat.max m x.2.place.level) 0
    firstAfter (rs.filter fun x => x.2.place.level == level) ((s.coreAt core).lastSlot.get? level)

/-- A task passed over in a choice (R171). -/
def Task.passOver (t : Task) (now : Nat) : Task :=
  { t with passes := t.passes + 1, agedAt := if t.passes + 1 = 64 then some now else t.agedAt }

/-- A task that a core chooses (R58, R169, R171): ISSUING; its latches are lost where another task has issued since it did. -/
def Task.chosenNow (t : Task) (other : Bool) : Task :=
  { t with stat := .issuing, passes := 0, agedAt := none, latch := if other then .lost else t.latch }

/-- The choice of a core (R58, R170 to R172, R174): the task becomes ISSUING, the others that are READY are passed over. Its first
bundle issues 2 clk after the last bundle of the core, unless it is the task that yielded. -/
def State.choose (s : State) (core slot : Nat) : State :=
  let c := s.coreAt core
  let s := (s.readyOn core).foldl (fun s x =>
    s.setTaskAt core x.1 (if x.1 = slot then x.2.chosenNow (c.lastIssuer != some slot) else x.2.passOver s.cycle.toNat)) s
  let at_ := if c.lastIssuer.isNone || c.yielded == some slot then c.pauseTill else Nat.max c.pauseTill (c.lastAt + 2)
  s.setCoreAt core { c with mono := 0, pauseTill := at_ }

/-- The next thread of a retriever (R384): running and not waiting for a reply. -/
def State.nextThread (s : State) (core : Nat) : Option (Nat × Task) :=
  let last := (s.coreAt core).lastIssuer.getD 7
  let xs := (s.tasksOn core).filter fun x => x.2.stat == .ready && !x.2.late && x.2.fetchHold.isNone
  xs.foldl (fun best x => match best with
    | none => some x
    | some b => if (x.1 + 7 - last) % 8 < (b.1 + 7 - last) % 8 then some x else some b) none

/-- The task whose bundle comes next on a core, and the state once it is chosen. A thread that goes on after another thread has issued on
the retriever finds its latches lost, as a task on a core does (R58, R384, log 59). -/
def State.pick (s : State) (core : Nat) : Option (State × Nat) :=
  if 1024 ≤ core then (s.nextThread core).map fun x =>
    (if (s.coreAt core).lastIssuer = some x.1 then s else s.setTaskAt core x.1 { x.2 with latch := .lost }, x.1)
  else match s.issuerOf core with
  | some x => some (s, x.1)
  | none => (s.chosen core).map fun x => (s.choose core x.1, x.1)

/-! ### Traps of a whole bundle (R60, R63, R68, R223, R227, R253) -/

/-- A precise cause of a bundle none of whose slots executes: COMMIT holds the slots that an earlier issue committed, none for an
illegal bundle (R220). -/
def State.raiseBundle (s : State) (cause mask : Nat) (tval : Word) : State :=
  let t := s.task
  if t.inTrap || !t.hasHandler then s.fatal s.iss.core s.iss.slot cause
  else
    let commit := if cause < 0x040 then 0 else t.skip.toNat
    (s.setTask (t.enterTrap 0 false cause t.pc mask commit tval 0).afterTrap).trapped s.iss.core

/-! ### The slots (R48, R50, R222) -/

/-- The slots of a bundle that execute: its predicate holds, they are not NOP, and no earlier issue committed them (R50,
R225). -/
def Bundle.running (b : Bundle) (t : Task) (skip : BitVec 4) : List (Nat × Instr) :=
  let on := match b.hdr with | some q => t.qReg q | none => true
  ((upFrom 0 4).zip b.instrs).filter fun x => x.2 != .nop && (x.1 == 0 || on) && !skip.getLsbD x.1

/-- Executes one slot (R222): a slot that raises nothing commits; one that raises changes nothing, so a lost latch that it reads leaves
LATCHLOST as it was (R58 does not say, log 60). -/
def execSlot (n : Nat) (i : Instr) (s : State) : Out :=
  match exec i { s with iss := { s.iss with pos := n, slotRaised := false } } with
  | .next r => .next (if r.iss.slotRaised then
      r.setTask { r.task with csr := { r.task.csr with taskst := s.task.csr.taskst } }
    else { r with iss := { r.iss with commit := r.iss.commit ||| (1#4 <<< n) } })
  | r => r

/-- Executes slots in order. -/
def execSlots : List (Nat × Instr) → State → Out
  | [], s => .next s
  | (n, i) :: rest, s => match execSlot n i s with
    | .next s => execSlots rest s
    | r => r

/-- The results in flight an instruction adds (R227): a register pair counts as one, VSTR's physical register and the tile-side
registers that TDSET, TSCL, DSET, VPLD and VPSW write too; KENCNT is no result of VDEFER and VDRAIN (R315). -/
def resultsOf (vm : Nat → Nat) (i : Instr) : Nat :=
  let ws := (writesOf vm i).filter fun w => w.1 < 4 || w.1 == 5 && match i with | .csrw _ _ => true | _ => false
  let pair := match i with
    | .acas2 _ _ _ _ _ | .txps _ _ _ | .tld _ _ _ | .tst _ _ _ | .tstx _ _ _ | .tcpyMm _ _ _ | .tcpyTm _ _ _
    | .tcpyMt _ _ _ | .tcpyTt _ _ _ | .tcpyd _ _ _ | .tmskld _ _ _ => true
    | _ => false
  let direct := match i with
    | .vstr sup _ _ => b2n (!sup)
    | .vpld d _ | .vpsw d => b2n (!d.s)
    | .vpswAll sup => b2n (!sup)
    | .tdset _ _ | .tscl _ _ | .tsclZ _ _ | .dset _ _ _ => 1
    | _ => 0
  direct + if pair && 1 < ws.length then ws.length - 1 else ws.length

/-- How many results in flight a result counts as: the predicates of QMOV.ALLQ are 15. -/
def Pend.weight (p : Pend) : Nat := match p.dest with
  | .qAll => 15
  | d => b2n d.counts

/-- The slot that would bring the results in flight above 64 (R227). -/
def overSlot (vm : Nat → Nat) : List (Nat × Instr) → Nat → Option Nat
  | [], _ => none
  | (n, i) :: rest, k =>
    let k := k + resultsOf vm i
    if 64 < k then some n else overSlot vm rest k

/-! ### The end of a bundle (R56, R64, R68, R169, R225, R256, R282) -/

/-- The window after a back edge of the loop-stack entry at depth n (R282). -/
def Task.rotate (t : Task) (n : Nat) : Task :=
  let w := t.csr.vrot
  if w.f 18 16 = n then { t with csr := { t.csr with vrot := w.setF 4 0 (w.f 4 0 + 32 - w.f 12 8) } } else t

/-- The task at the bundle after one at pc that is no delay bundle of a taken branch (R256): a back edge, the end of a loop, or
the next bundle. -/
def Task.advance (t : Task) (pc : Word) (retr : Bool) : Task :=
  match t.loops with
  | l :: rest =>
    if l.last ≠ pc then { t with pc := pc + 16, atHead := false }
    else if 1 < l.rem then
      let t := { t with pc := l.first, atHead := true, loops := { l with rem := l.rem - 1 } :: rest }
      if retr then t else t.rotate t.loops.length
    else { t with pc := l.last + 16, atHead := false, loops := rest }
  | [] => { t with pc := pc + 16, atHead := false }

/-- The task after the bundle at pc, whose flow action is `act`; `old` is the task before it (R64, R255, R256). -/
def Task.follow (t old : Task) (act : Act) (pc : Word) (retr : Bool) : Task :=
  let t : Task := { t with waitFlow := match old.delay with | .taken f => some (f, t.loops) | _ => none }
  match old.delay with
  | .taken f => { t with pc := f.tgt, loops := t.loops.drop f.pops, label := f.label, delay := .no, atHead := false }
  | _ => match act with
    | .next p => { t with pc := p, label := none, delay := .no, atHead := t.loops.head?.any fun l => l.first == p }
    | _ => { t.advance pc retr with label := none, delay := .no }

/-- The latches after a bundle (R56): every slot deposits, so none of them is lost. -/
def Task.relatch (t : Task) (i : Issue) : Task :=
  { t with latch := ⟨i.near.map some, t.latch.next, i.far.map some⟩ }

/-- The flow action of a bundle that is complete (R64, R169, R220, R225, R252, R262 to R264): the entry that TRAPI asks for comes
before the next bundle; ERET's task leaves its handler. -/
def State.flow (s : State) (act : Act) (pc : Word) (kept : Bool) : State :=
  let core := s.iss.core
  let slot := s.iss.slot
  let t := s.task
  match act with
  | .branch none => s.setTask { t with delay := .untaken }
  | .branch (some f) => s.setTask { t with delay := .taken f }
  | .branchWait => s.setTask { t with delay := .untaken, jtCommit := s.iss.commit }
  | .yield =>
    if s.inRetr then s
    else (s.setTask { t with stat := .ready }).setCoreAt core { s.coreAt core with yielded := some slot }
  | .sleep w =>
    let s := s.setTask { t with stat := .sleeping, wait := w, waitPc := pc }
    if kept then (s.setTask (s.recheckBar s.task)).settleWaits core else s
  | .ended =>
    let t := { t with loops := [], hoist := [], waitPc := pc, trap := { t.trap with cause := t.trap.cause.setF 63 63 0 } }
    if s.inRetr then
      let k := (core - 1024) * 8 + slot
      { s.setTask { t with stat := .held } with rts := s.rts.put k { s.rts.get .zero k with stat := 2 } }
    else s.setTask { t with stat := .ending }
  | .trapi c =>
    if kept then
      if t.inTrap || !t.hasHandler then s.fatal core slot c
      else s.setTask { t.enterTrap 3 false c t.pc 0 0 0 0 with entering := true }
    else s.setTask { t with entering := true }
  | .eret => s.setTask { t.leaveTrap with latch := .lost, atHead := false }
  | _ => s

/-- A task that has issued a bundle (R58, R163, R170, R171): it is its core's last issuer, and its kernel runs. -/
def State.issuedBy (s : State) (core slot : Nat) (t : Task) : State :=
  let c := s.coreAt core
  let s := s.setCoreAt core { c with
    lastIssuer := some slot, lastAt := s.cycle.toNat, yielded := none
    lastSlot := if 1024 ≤ core then c.lastSlot else c.lastSlot.put t.place.level slot }
  match s.kernels.get? t.place.kernel with
  | some k => if k.stat = .placed ∧ core < 1024 then { s with kernels := s.kernels.put t.place.kernel { k with stat := .running } } else s
  | none => s

/-- The end of a bundle a slot of which raised a cause (R222, R223): the trap record takes the slots that committed; a flow action
of a slot 0 that committed waits for the return (log 8); a jump-table entry still awaited is read again. -/
def State.endTrapped (s : State) (pc : Word) : State :=
  let t := s.task
  let waits := s.iss.act = .branchWait
  let ids := t.inflight.filterMap fun p => match p.dest, p.val with
    | .jump _, .await id => some id
    | _, _ => none
  let commit := if waits then s.iss.commit &&& 14#4 else s.iss.commit
  let t := if waits then { t with inflight := t.inflight.filter fun p => match p.dest with | .jump _ => false | _ => true } else t
  let t := { t with
    trap := { t.trap with slots := BitVec.ofNat 64 (commit.toNat * 16 + t.trap.slots.f 3 0) }
    kept := if waits then .none else s.iss.act
    keptPc := pc }.afterTrap
  ({ s.setTask t with held := if waits then s.held.filter fun h => !ids.contains h.id else s.held }).trapped s.iss.core

/-- The end of a bundle: its latches, its successor, its flow action; a trap or the end of the task's context otherwise. old is
the task before it. -/
def State.endBundle (s : State) (old : Task) (kept : Bool) : State :=
  let core := s.iss.core
  let slot := s.iss.slot
  let pc := old.pc
  let act := s.iss.act
  let s := s.issuedBy core slot old
  let t := s.task
  if t.stat = .held ∨ t.stat = .free then s
  else if s.iss.raised then s.endTrapped pc
  else
    let t := { t with fetchGot := [], fetchErr := none }
    match act with
    | .eret => (s.setTask t).flow act pc kept
    | .trapi _ => if kept then (s.setTask ((t.relatch s.iss).follow old .none pc s.inRetr)).flow act pc true else (s.setTask t).flow act pc false
    | _ => (s.setTask ((t.relatch s.iss).follow old act pc s.inRetr)).flow act pc kept

/-! ### One bundle -/

/-- Marks a core whose bundle could not issue in this clk (R176). -/
def State.stall (s : State) (core : Nat) : State := { s with stalled := core :: s.stalled }

/-- The task as its bundle finds it (R222, R225, R229, R233): the part of the shadow buffer that is its own replays from this clk; a
flow action kept over a trap lasts to the next bundle of main. -/
def Task.atIssue (t : Task) : Task :=
  let t := { t with skip := 0, kept := if t.inTrap then t.kept else .none }
  if !t.replay then t
  else if t.inTrap then { t with inflight := t.inflight ++ t.hshadow, hshadow := [], replay := false }
  else { t with inflight := t.inflight ++ t.shadow, shadow := [], replay := false }

/-- Whether a bundle may hold no flow instruction (R65). -/
def Task.noFlow (t : Task) : Bool := t.delay != .no || t.loops.any fun l => l.last == t.pc

/-- Whether the landing check of a jump-table target fails (R68). -/
def Task.badLanding (t : Task) (b : Bundle) : Bool :=
  match t.label with
  | some l => b.instrs.headD .nop != .lpad (BitVec.ofNat 12 l)
  | none => false

/-- Issues a decoded bundle that breaks no rule (R48, R50, R222): its slots execute on the state before it; where one of them
cannot issue yet, nothing of the bundle has happened (R176). -/
def State.runBundle (s : State) (core slot : Nat) (b : Bundle) : Out :=
  let old := s.taskAt core slot
  let keeps := old.skip.getLsbD 0 && old.keptPc == old.pc && old.kept != .none
  let run := b.running old old.skip
  let s' := s.setTaskAt core slot old.atIssue
  let s' := { s' with iss := { s'.iss with
    commit := old.skip, act := if keeps then old.kept else .none
    seq0 := (s.coreAt core).depSeq, infl := old.atIssue.inflight.length } }
  match overSlot old.vMap run (s'.task.inflight.foldl (fun k p => k + p.weight) 0) with
  | some n => .next (s.raiseBundle 0x05A (2 ^ n) 0)
  | none => match execSlots run s' with
    | .next r => .next (if r.iss.stall then s.stall core else r.endBundle old keeps)
    | r => r

/-- Fetches, decodes and issues the next bundle of a task (R46, R60, R63, R68, R253): the decoder's checks come before the landing
check (log 62). -/
def State.issueBundle (s : State) (core slot : Nat) : Out :=
  let t := s.taskAt core slot
  let s := { s with iss := { Issue.zero with core := core, slot := slot, pc := t.pc, inTrap := t.inTrap } }
  match s.fetch core slot with
  | (s, .wait) => .next (s.stall core)
  | (s, .fail c tv) => .next (s.raiseBundle c 0 tv)
  | (s, .ok bs) =>
    let b := decodeBundle (1024 ≤ core) bs
    match b.illegal t.vMap t.noFlow with
    | some (r, m) => .next (s.raiseBundle (16 * r + m) m 0)
    | none => if t.badLanding b then .next (s.raiseBundle 0x059 1 0) else s.runBundle core slot b

/-- Whether the bundle a task has waited for in an issue freeze still cannot issue: no trap is taken, and no pre-emption lands or is
forced, meanwhile (R223, R231, R232, R237). -/
def State.stillStalled (s : State) (core slot : Nat) : Bool :=
  ((s.coreAt core).frozen != 0 || (s.taskAt core slot).forcedAt s.cycle.toNat) && match s.peekFetch core slot with
    | some bs =>
      let t := s.taskAt core slot
      let b := decodeBundle false bs
      let s := (s.setTaskAt core slot t.atIssue)
      let s := { s with iss := { Issue.zero with
        core := core, slot := slot, pc := t.pc, inTrap := t.inTrap, seq0 := (s.coreAt core).depSeq, infl := t.atIssue.inflight.length } }
      (b.illegal t.vMap t.noFlow).isNone && !t.badLanding b && match execSlots (b.running t t.skip) s with
        | .next r => r.iss.stall
        | _ => false
    | none => false

/-- Whether something is to be taken before a task's next bundle (R237). -/
def State.trapDue (s : State) (core slot : Nat) : Bool :=
  let t := s.taskAt core slot
  t.entering || t.jumpErr.isSome || t.nextTrap.isSome
    || (s.preDue core slot true fun t => s.atLanding core slot || t.forcedAt s.cycle.toNat).isSome

/-- A task chosen whose wait was not over when it left its core or was held (R195, R236): it sleeps again, unless its condition is
met by now, or an event wakes it to take a trap. -/
def State.sleepAgain (s : State) (core slot : Nat) : State :=
  let t : Task := { s.taskAt core slot with stat := .sleeping }
  let s := (s.setTaskAt core slot (if t.wait = .met then t.endWait else s.recheckBar t)).settleWaits core
  let t := s.taskAt core slot
  if t.stat == .sleeping && !t.inTrap && !t.events.isEmpty then
    s.setTaskAt core slot { t with stat := .ready, wait := .none, woke := true }
  else s

/-- The run queue's choice at the moment when issue is given up (R170): where no task of the core holds issue any more, the next one
is chosen among those that are READY. -/
def State.chooseNext (s : State) (core : Nat) : State :=
  if 1024 ≤ core || (s.issuerOf core).isSome then s
  else match s.chosen core with
  | some x => s.choose core x.1
  | none => s

/-- The freeze watchdog of a core, and the choice of the next task where the one that holds issue leaves (R170, R179). -/
def State.convertOn (s : State) (core : Nat) : State :=
  let r := s.after (execFreezeConversion core s)
  if (s.issuerOf core).isSome then r.chooseNext core else r

/-- What a core does in its turn (R172, R223, R225, R237): the pending trap of the task that issues next, or its bundle; while the
results of a handler that has returned are in flight, nothing issues, and the pipelines go on. -/
def State.turnOn (s : State) (core : Nat) : Out :=
  let s := { s with turn := core + 1 }
  match s.pick core with
  | none => .next s
  | some (s, slot) =>
    let c := s.coreAt core
    let t := s.taskAt core slot
    let now := s.cycle.toNat
    if now < c.pauseTill then .next s
    else if t.wait ≠ .none then .next (s.sleepAgain core slot)
    else if t.returning && !t.entering && t.jumpErr.isNone && t.nextTrap.isNone then .next s
    else if s.stillStalled core slot then .next (s.stall core)
    else if s.trapDue core slot then execTakePendingTrap core slot s
    else s.issueBundle core slot

/-- A core's turn in a clk, and the choice of the next task where it gives issue up (R170). -/
def State.issueOn (s : State) (core : Nat) : Out :=
  match s.turnOn core with
  | .next s => .next (s.chooseNext core)
  | r => r

end Sys2Proof.Machine
end

