-- ==== Sys2Proof/Machine/Step.lean ====
section
/-! DEFINITION. One step: an input that arrives, an action of a unit of the module, the turn of a core, or the end of a clk
(R170 to R178, log 3); where the host puts a word it wants to run. -/

namespace Sys2Proof.Machine

/-! ### What the units of the module do by themselves -/

/-- Whether a core's engines and its pipelines stand still (R175, R176, R447). -/
def State.stopped (s : State) (core : Nat) : Bool := s.coreFrozen core || s.gatedCore core

/-- The cores that hold a task, each once. -/
def State.busyCores (s : State) : List Nat := once (s.tasks.map fun kt => kt.1 / 16)

/-- Whether the test of a sleeping WAITE holds on what memory holds now. -/
def State.waiteOver (s : State) (core slot : Nat) : Bool :=
  let t := s.taskAt core slot
  match t.wait with
  | .reread id ts _ va cmp _ =>
    !(s.held.any fun h => h.id == id && h.why != .poll)
      && match s.readLooks (s.looks (unitOf core slot t.place.kernel) t.place.ctx va 8 .read) [] [] true with
        | .ok bs => waiteHolds ts (BitVec.ofNat 64 (ofBytes bs)) cmp
        | _ => false
  | _ => false

/-- The actions of a task that is not about to issue. -/
def State.taskActs (s : State) (core slot : Nat) (t : Task) : List (State → State) :=
  let now := s.cycle.toNat
  let go (b : Bool) (f : State → Out) : List (State → State) := if b then [fun s : State => s.after (f s)] else []
  let promised : Bool := match t.wait with
    | .copy _ _ p | .tiles _ _ _ p _ => p != 0 && p.toNat ≤ now
    | _ => false
  let rereads : Bool := match t.wait with
    | .met => true
    | .reread _ _ _ _ _ _ => now % 1400 == 0 || s.waiteOver core slot | _ => false
  let pre (f : Nat → Bool) : Bool := match t.pre with | some p => f p.at_ | none => false
  go (t.stat == .ending) (execTaskEndComplete core slot)
    ++ go t.saving (execSaveComplete core slot)
    ++ go (t.stat == .held && !t.saving) (execTaskResume core slot)
    ++ go (t.stat == .sleeping && promised) (execMissedPromise core slot)
    ++ go (t.stat == .sleeping && rereads) (execWaiteReread core slot)
    ++ go ((t.stat == .sleeping || t.stat == .ready) && pre fun _ => true) (execPreemptionLanding core slot)
    ++ go (t.stat != .issuing && pre fun a => a + 2 ^ 20 ≤ now) (execPreemptionForced core slot)

/-- The actions of the tasks off their cores. -/
def State.offActs (s : State) (o : OffTask) : List (State → State) :=
  (if s.canResume o then [fun s : State => s.after (execTaskResume o.core o.slot s)] else [])
    ++ (if o.task.lateSaves.isEmpty then [] else [fun s : State => s.after (execSaveComplete o.core o.slot s)])

/-- The actions of a core's engines, raw writes and watchdogs; a full freeze stops the engines and the dependency table, and copies
begin no access (R175). -/
def State.coreActs (s : State) (core : Nat) (c : CoreSt) : List (State → State) :=
  let stop := s.stopped core
  let starts := if stop then [] else [EngineId.matrix, .copy, .vector].filterMap fun en =>
    (s.nextDep core en).map fun ed => fun s : State => s.after (execTileTaskStart core ed.1 s)
  let runs := (c.deps.filter fun ed => ed.2.isRunning).flatMap fun ed =>
    if stop then []
    else if isCopyIns ed.2.ins then (if ed.2.hold.isSome then [] else [fun s : State => s.after (execCopyBurstReply core ed.1 s)])
    else if ed.2.done < ed.2.total then [] else [fun s : State => s.after (execTileTaskComplete core ed.1 s)]
  starts ++ runs ++ (if c.rawSt.isEmpty then [] else [fun s : State => s.flushRaw core])
    ++ (if c.mono = 2 ^ 24 then [fun s : State => s.after (execMonopolyWatchdogExpiry core s)] else [])
    ++ (if c.frozen = 0 then [] else [fun s : State => s.convertOn core])

/-- The actions of a host queue (R202 to R214): an idle kernel node reads its record once it is ready, another node starts where it is
the one chosen next. -/
def State.queueActs (s : State) (k : Nat) (x : HostQueue) : List (State → State) :=
  let c := BitVec.ofNat 4 (k / 64)
  let q := BitVec.ofNat 6 k
  let next := s.nextNode
  let node (g : Graph) (i : Nat) : List (State → State) :=
    let n := g.node i
    let run (f : BitVec 4 → BitVec 6 → Nat → State → Out) : State → State := fun s : State => s.after (f c q i s)
    if n.stat == .done || (n.stat == .idle && n.kind != 0 && next != some (k, i)) then []
    else match n.kind with
    | 0 => [run execKernelNode, run execKernelNodeAdmit]
    | 1 => [run execCopyNode, run execCopyNodeComplete]
    | 2 => [run execSignalNode, run execCopyNodeComplete]
    | 3 => [run execWaitNodeRead, run execWaitNodeTimeout]
    | 4 => [run execConditionalNode]
    | 5 => [run execLoopNodeEvaluate]
    | _ => [fun s : State => s.after (execEndNode c q s)]
  let nodes : List (State → State) := match x.graph with
    | some g => if g.loaded then (upFrom 0 g.nodes.length).flatMap (node g) else []
    | none => []
  let start : Bool := match x.graph with
    | some g => !g.loaded
    | none => x.stat == .idle && x.head != x.tail
  (if start then [fun s : State => s.after (execGraphStart c q s)] else []) ++ nodes
    ++ (if x.stat = .halting then [fun s : State => s.after (execGraphHaltComplete c q s)] else [])

/-- The actions of a collective context (R404, R411). -/
def State.collActs (s : State) (c : Nat) (k : Coll) : List (State → State) :=
  let n := BitVec.ofNat 6 c
  let go (f : BitVec 6 → State → Out) : State → State := fun s : State => s.after (f n s)
  let steps : List (State → State) := if !s.collMay k then [] else match k.step.kind with
    | 0 => [go execCollStepEnd]
    | 1 => [go execCollStepSend]
    | 2 => [go execCollStepRecv]
    | 3 => [go execCollStepPsend]
    | 4 => [go execCollStepRrs]
    | 5 => [go execCollStepRed]
    | 6 => [go execCollStepCopy]
    | 7 => [go execCollStepWait]
    | 8 => [go execCollStepLoop]
    | 9 => [go execCollStepEndl]
    | 10 => [go execCollStepAppend]
    | 11 => [go execCollStepA2a]
    | 12 => [go execCollStepSignal]
    | _ => [go execCollStepSar, go execSarPartialResend]
  (fun s : State => s.collTend c) :: (steps ++ [go execCollStepTimeout])

/-- The collective contexts in the order their herders take them (R403). -/
def State.collOrder (s : State) : List (Nat × Coll) :=
  let cs := s.colls.filter fun kc => kc.2.stat != .free
  (upFrom 0 8).flatMap fun h =>
    let mine := cs.filter fun kc => kc.1 % 8 == h
    match s.herdLast.get? h with
    | some l => (mine.filter fun kc => l < kc.1) ++ mine.filter fun kc => kc.1 ≤ l
    | none => mine

/-- The actions that wait behind nothing but time: links, packets, leases. -/
def State.timedActs (s : State) : List (State → State) :=
  let now := s.cycle.toNat
  let link (nl : Nat × Link) : List (State → State) :=
    let n := BitVec.ofNat 8 nl.1
    (if nl.2.sent ≠ [] ∧ nl.2.ackAt + 2800 ≤ now then [fun s : State => s.after (execReplayAckTimeout n s)] else [])
      ++ (if nl.2.heardAt + 1400 ≤ now then [fun s : State => s.after (execFarDepthTimeout n s)] else [])
      ++ (if nl.2.stat = .training ∧ nl.2.since + tenMs ≤ now then [fun s : State => s.after (execLinkTrainingTimeout n s)] else [])
      ++ (if nl.2.stat = .retrain ∧ nl.2.since + 140000 ≤ now then [fun s : State => s.after (execLaneRetrainTimeout n s)] else [])
      ++ (((upFrom 0 16).filter fun k => 2 ^ 32 ≤ (nl.2.lanes.get .zero k).bits).map fun k => fun s : State =>
        s.after (execLaneThresholdCrossed n (BitVec.ofNat 4 k) 0 s))
      ++ (if nl.2.queue.isEmpty then [] else [fun s : State => s.pump nl.1])
  let lender (ml : Nat × Lender) : List (State → State) :=
    let m := BitVec.ofNat 8 ml.1
    match ml.2.stat with
    | .granting => [fun s : State => s.after (execLeaseGrantTimeout m s)]
    | .active => [fun s : State => s.after (execLeaseTermExpiry m s)]
    | .recalling => [fun s : State => s.after (execReclaimForceTimeout m s)]
    | .free => []
  let borrower (nb : Nat × Borrower) : List (State → State) :=
    let n := BitVec.ofNat 10 nb.1
    match nb.2.stat with
    | .active => [fun s : State => s.after (execLeaseLapse n s), fun s : State => s.after (execLeaseRenewalSend n s)]
    | .evicting => [fun s : State => s.after (execEvictionComplete n s)]
    | _ => []
  let resends := s.e2eSrc.flatMap fun (tp : Nat × E2ESrc) => (tp.2.unacked.filter fun u => u.sentAt.any fun x => x + s.resendClk ≤ now).map fun u =>
    fun s : State => s.after (execE2eResendTimeout (BitVec.ofNat 12 tp.1) (BitVec.ofNat 32 u.pkt.seq) s)
  s.links.flatMap link ++ resends ++ s.lenders.flatMap lender ++ s.borrowers.flatMap borrower
    ++ (if s.rotor.lock then [fun s : State => s.after (execRotorLockTimeout s)] else [])
    ++ (if s.sarHolds.any fun h => h.until_ ≤ now then [State.sarRelease] else [])

/-- Whether the service island of the n-th herder is gated; the launch scheduler and the host interface stand in the first (R447,
log 50). -/
def State.serviceStill (s : State) (n : Nat) : Bool := (s.island (s.part.service n)).still s.cycle.toNat

/-- Everything that the units of the module may do now, in the order the model takes it (log 3); those of a gated service island
wait (R447). -/
def State.allActs (s : State) : List (State → State) :=
  let sched := !s.serviceStill 0
  let go (b : Bool) (f : State → Out) : List (State → State) := if b then [fun s : State => s.after (f s)] else []
  let waits := s.held.any (fun h => h.why == .side || h.why == .migration)
    || (s.cores.any fun cx => !cx.2.fences.isEmpty || cx.2.side.any (·.quiet)) || !s.repWait.isEmpty || s.ctxs.any fun nc => !nc.2.recs.isEmpty
  (if s.modstat.phase = 2 ∨ s.modstat.phase = 3 then [State.bringUp] else [])
    ++ (if s.barq.isEmpty || !sched then [] else [State.drainBar])
    ++ go (!s.page.ptinv.isEmpty) execPtinvComplete
    ++ (s.migs.filter fun rm => rm.2.busy).map (fun rm => fun s : State => s.after (execMigrationComplete (BitVec.ofNat 4 rm.1) s))
    ++ (if waits then [State.settle] else [])
    ++ go (!s.outq.isEmpty) execPacketRoute
    ++ s.cores.flatMap (fun cx => s.coreActs cx.1 cx.2)
    ++ s.tasks.flatMap (fun kt => s.taskActs (kt.1 / 16) (kt.1 % 16) kt.2)
    ++ s.offs.flatMap s.offActs
    ++ go (sched && !s.launches.isEmpty) execLaunchRecordArrival
    ++ (match s.nextKernel with | some k => go sched (execKernelPlacement k) | none => [])
    ++ (if sched then s.queues.flatMap fun kq => s.queueActs kq.1 kq.2 else [])
    ++ (s.collCmds.filter fun q => !s.serviceStill q.herder).map (fun q => fun s : State => s.cmdGo q)
    ++ (s.collOrder.filter fun kc => !s.serviceStill (kc.1 % 8)).flatMap (fun kc => s.collActs kc.1 kc.2)
    ++ s.timedActs
    ++ s.ctxs.flatMap fun nc =>
      go (nc.2.stat == .quiescing) (execCtxQuiesceComplete (BitVec.ofNat 4 nc.1))
        ++ go (nc.2.stat == .draining) (execCtxDrainComplete (BitVec.ofNat 4 nc.1))

/-- How many actions of the units a clk holds at most (log 3). -/
def actsPerClk : Nat := 1024

/-- The first of a list of actions that changes anything, done. -/
def State.firstAct (s : State) : List (State → State) → Option State
  | [] => none
  | f :: rest => let s' := f s; if s' = s then s.firstAct rest else some { s' with acts := s.acts + 1 }

/-- The next action of a unit of the module, where one is left in this clk. -/
def State.unitAct (s : State) : Option State := if actsPerClk ≤ s.acts then none else s.firstAct s.allActs

/-! ### The turns of the cores and the end of a clk -/

/-- Whether a task may take the turn of its core or retriever. -/
def State.mayTurn (s : State) (core : Nat) (t : Task) : Bool :=
  (t.stat == .ready || t.stat == .issuing) && !s.stopped core && (core < 1024 || (!t.late && t.fetchHold.isNone))

/-- The core or retriever whose turn is next in this clk. -/
def State.nextCore (s : State) : Option Nat :=
  (s.tasks.find? fun kt => s.turn ≤ kt.1 / 16 && s.mayTurn (kt.1 / 16) kt.2).map fun kt => kt.1 / 16

/-- Whether a due result of a task, or its fetch, awaits an access that a serviceable fault holds (R109). -/
def State.heldBack (s : State) (t : Task) : Bool :=
  (t.fetchHold.toList ++ t.lateIds).any fun id => s.held.any fun h => h.id == id && (h.why == .flush || h.req.isStore)

/-- A task at the end of a clk: its results in flight, unless its pipelines stand still; since when a fault holds it back
(R48, R176, R196): a member is held by its own access, not by another task's on its core (log 65). -/
def State.clkTask (s : State) (core : Nat) (t : Task) : Task :=
  let t := if !t.onCore || s.stopped core || s.stalled.contains core || (1024 ≤ core && t.late) then t else t.age
  if t.onCore && core < 1024 then { t with offAt := if s.heldBack t then some (t.offAt.getD s.cycle.toNat) else none } else t

/-- An entry of a core's dependency table at the end of a clk: a tile task of the matrix or the vector engine runs on (R326). -/
def Dep.clk (d : Dep) : Dep := if d.isRunning && !isCopyIns d.ins then { d with done := d.done + 1 } else d

/-- A core's counters at the end of a clk (R174, R178, R326, R448). -/
def State.clkCore (s : State) (core : Nat) : State :=
  let c := s.coreAt core
  let gated := s.gatedCore core
  let frozen := s.coreFrozen core || s.stalled.contains core
  let others := !(s.readyOn core).isEmpty
  let c' := { c with
    deps := if s.stopped core then c.deps else c.deps.map fun ed => (ed.1, ed.2.clk)
    frozen := if gated then c.frozen else if frozen then c.frozen + 1 else 0
    mono := if !gated && others && (s.issuerOf core).isSome then c.mono + 1 else c.mono }
  if c' = c then s else s.setCoreAt core c'

/-- An island at the end of a clk (R449). -/
def Island.clk (i : Island) (cycle : Nat) : Island := if i.still cycle then { i with gated := (i.gated + 1) % 2 ^ 48 } else i

/-- The end of a clk (R48, R177, R193). -/
def State.endClk (s : State) : State :=
  let cores := (once (s.busyCores ++ s.cores.map (·.1))).filter (· < 1024)
  let s' := (cores.foldl State.clkCore s).barsClk s.arrivals.length
  { s' with
    tasks := s'.tasks.map fun kt => (kt.1, s.clkTask (kt.1 / 16) kt.2)
    held := s'.held.filter s'.polls
    islands := s.islands.map fun ki => (ki.1, ki.2.clk s.cycle.toNat)
    cycle := s.cycle + 1, turn := 0, stalled := [], acts := 0 }

/-! ### The step -/

/-- One step (log 3): the oldest input; else an action of a unit of the module; else the turn of a core; else the end of the
clk. -/
def step (s : State) : Host.Outcome State Fault Refusal :=
  match s.inputs with
  | i :: rest => if i.isEvent then exec i { s with inputs := rest } else .fault .badInput
  | [] => match s.unitAct with
    | some s' => .next s'
    | none => match s.nextCore with
      | some core => match s.issueOn core with
        | .next s' => .next { s' with iss := .zero }
        | r => r
      | none => .next s.endClk

/-! ### A word to run -/

/-- The slot and the kind of bundle where a lone word stands (log 7). -/
def wordPlace (w : Nat) : Bool × Nat :=
  match placeOfWord (.ofNat 32 w) tablePlaces with
  | some r => (r.1, r.2.1)
  | none => (false, 0)

/-- The state in which the very next step runs the instruction of a lone word: a bundle of that word and NOPs at IA 0 of the ring
SRAM, executable, range pair 0 of context 0 over it, and a task at its first bundle: on core 0, or, for a word only a retriever
defines, thread 1 of retriever 0 (log 6). -/
def State.withFetchWord (s : State) (_nbits w : Nat) : State :=
  let (retr, pos) := wordPlace w
  let core := if retr then 1024 else 0
  let slot := if retr then 1 else 0
  let bytes := List.replicate (4 * pos) 0 ++ toBytes 4 w ++ List.replicate (12 - 4 * pos) 0
  let c := s.ctxAt 0
  let range := (c.range.set 0 0 (BitVec.ofNat 64 (2 ^ 63 + 12 * 2 ^ 6))).set 0 1 (BitVec.ofNat 64 (2 ^ 11 + 1))
  let t := newThread 0 0
  let t := if retr then t else { t with place := { t.place with groups := 255, vunits := 65535, vregs := 1024 } }
  let k := s.coreAt core
  { s with
    ctxs := s.ctxs.put 0 { c with stat := .active, range := range }
    page := { s.page with ringattr := s.page.ringattr.set 0 0 1 }
    mem := { s.mem with ring := s.mem.ring.setMany 0 0 bytes }
    tasks := (Tab.dropKeys s.tasks fun key => key / 16 == core).put (taskKey core slot) t
    cores := s.cores.put core { k with lastIssuer := none, pauseTill := 0, frozen := 0 }
    islands := s.islands.map fun ki => if ki.1 = s.part.island core then (ki.1, { ki.2 with duty := 0 }) else ki
    rts := if retr then s.rts.put 1 { s.rts.get .zero 1 with ctl := 2 ^ 63, stat := 1 } else s.rts
    inputs := [], acts := actsPerClk, turn := core, stalled := [] }

end Sys2Proof.Machine
end

