-- ==== Sys2Proof/Safety.lean ====
section
/-! DEFINITION. What a safe run keeps, and the words the statements are made of: what changes and what does not when a slot
posts a result, raises a cause or sets the flow of its bundle. -/

namespace Sys2Proof.Machine

/-- The memory of a state is in its canonical form. -/
abbrev State.memOk (s : State) : Prop := s.mem.wf

/-- The task table lists its slots in strictly rising order. -/
def State.tasksOk (s : State) : Prop := (s.tasks.map (·.1)).Pairwise (· < ·)

/-- exec answers a next state for instruction i in state s, and P holds of it. -/
def Completes (i : Instr) (s : State) (P : State → Prop) : Prop := ∃ t, exec i s = .next t ∧ P t

/-- A state with another task table, and nothing else changed. -/
def State.withTasks (s : State) (ts : Tab Task) : State := { s with tasks := ts }
/-- A state with another record of the bundle being issued, and nothing else changed. -/
def State.withIss (s : State) (i : Issue) : State := { s with iss := i }

/-! ### Results (R48, R55, R56, R58) -/

/-- From s to t the slot in focus has posted the results ps, its latch deposits are near and far, and it has read a lost latch
or not. Nothing else differs: no register, no CSR but TASKST.LATCHLOST, no other task, no core, no byte of memory. -/
def Posts (s t : State) (lost : Bool) (ps : List Pend) (near far : List VReg) : Prop :=
  t = (s.withTasks t.tasks).withIss { s.iss with near := near, far := far }
  ∧ t.task = { s.task with
      inflight := s.task.inflight ++ ps
      csr := { s.task.csr with taskst := if lost then s.task.csr.taskst ||| 1 else s.task.csr.taskst } }
  ∧ (∀ k, k ≠ taskKey s.iss.core s.iss.slot → t.tasks.get .empty k = s.tasks.get .empty k)
  ∧ ∀ l, t.mem.rd l = s.mem.rd l

/-- One result of latency lam with the image img for destination d: it joins the results in flight unless the destination is
suppressed or discards it, and it is deposited in the latches its latency reaches (R55, R56). as: the sources read. -/
def Gives (s t : State) (as : List Src) (d : RDest) (sup : Bool) (lam : Nat) (img : VReg) : Prop :=
  Posts s t (as.any s.task.lostSrc) (if sup then [] else [⟨d, .ready img, lam, s.iss.pos, s.iss.pc, false⟩])
    (if lam = 1 then s.iss.near.set s.iss.pos img else s.iss.near)
    (if lam ≤ 2 then s.iss.far.set s.iss.pos img else s.iss.far)

/-- A scalar result w for G register d; G0 discards it (R55). -/
def GivesG (s t : State) (as : List Src) (d : Dst) (lam : Nat) (w : Word) : Prop :=
  Gives s t as (.g d.reg.toNat) (d.s || d.reg == 0) lam (w.setWidth 2048)

/-- A predicate result for Q register d; Q0 discards it (R55). -/
def GivesQ (s t : State) (as : List Src) (d : Dst) (b : Bool) : Prop :=
  Gives s t as (.q d.reg.toNat) (d.s || d.reg == 0) 1 (if b then 1 else 0)

/-- A mask result for K register d. -/
def GivesK (s t : State) (as : List Src) (d : Dst) (w : Word) : Prop :=
  Gives s t as (.k d.reg.toNat) d.s 1 (w.setWidth 2048)

/-- A vector result for V register d, at the physical register the window names at issue (R280). -/
def GivesV (s t : State) (as : List Src) (d : Dst) (lam : Nat) (x : VReg) : Prop :=
  Gives s t as (.v (s.task.vMap d.reg.toNat)) d.s lam x

/-- An operation at the width W selects (R241): on the low 32 bits of its operands, its result sign-extended, or on all 64. -/
def atWidth (w : Bool) (f : (n : Nat) → BitVec n → BitVec n → BitVec n) (x y : Word) : Word :=
  if w then (f 32 (x.setWidth 32) (y.setWidth 32)).signExtend 64 else f 64 x y

/-! ### Traps (R218, R220, R222, R223) -/

/-- The trap record of a precise cause of the slot in focus outside a taken branch's delay bundle (R218): INTRAP 1, kind 0, the
depth of the loop stack, TRAPPC at the bundle, COMMIT of the slots that committed and MASK of the one that raised. -/
def trapRecord (s : State) (cause : Nat) (tval : Word) : TrapCsr :=
  { s.task.trap with
    cause := BitVec.ofNat 64 (2 ^ 63 + s.task.loops.length * 2 ^ 53 + cause)
    pc := s.iss.pc &&& BitVec.ofNat 64 (maskF 56 4)
    tgt := 0
    slots := BitVec.ofNat 64 (s.iss.commit.toNat * 16 + 2 ^ s.iss.pos)
    val := tval
    ipc := 0 }

/-- Whether a precise cause of the slot in focus is taken by the handler with no branch pending: a handler is installed, none
runs, no earlier slot of the bundle has raised (R222, R226). -/
def State.canTrap (s : State) : Prop :=
  s.iss.raised = false ∧ s.iss.inTrap = false ∧ s.task.hasHandler = true ∧ ∀ f, s.task.delay ≠ .taken f

/-- From s to t the slot in focus has raised a cause that the task's handler takes: the trap record is written, the program
counter is at TRAPVEC.ENTRY, and the slot does not commit. No register changes, no result is posted, no byte of memory
changes. -/
def Raises (s t : State) (lost : Bool) (cause : Nat) (tval : Word) : Prop :=
  t = (s.withTasks t.tasks).withIss { s.iss with raised := true, slotRaised := true }
  ∧ t.task = { s.task with
      trap := trapRecord s cause tval
      pc := s.task.trap.vec &&& BitVec.ofNat 64 (maskF 56 4)
      delay := .no, lpad := s.task.label.map fun l => (s.iss.pc &&& BitVec.ofNat 64 (maskF 56 4), l), label := none, woke := false
      csr := { s.task.csr with taskst := if lost then s.task.csr.taskst ||| 1 else s.task.csr.taskst } }
  ∧ (∀ k, k ≠ taskKey s.iss.core s.iss.slot → t.tasks.get .empty k = s.tasks.get .empty k)
  ∧ ∀ l, t.mem.rd l = s.mem.rd l

/-! ### CSR numbers (R267) -/

/-- The CSR numbers that are defined: CAP and CYCLE, the per-task CSRs, SATLIM's view, the range pairs, the tile block's two,
VROT, the link block's, LEASEEV and the power block's one (R267). -/
def definedCsr (c : Nat) : Bool :=
  c == 0x010 || c == 0x011 || (0x020 ≤ c && c ≤ 0x023) || c == 0x028 || (0x030 ≤ c && c ≤ 0x038)
    || (0x040 ≤ c && c ≤ 0x045) || c == 0x048 || (0x080 ≤ c && c ≤ 0x09F) || c == 0x0A0 || c == 0x0A1 || c == 0x0C0
    || c == 0x100 || c == 0x101 || (0x180 ≤ c && c ≤ 0x1C8) || c == 0x200 || c == 0x300

/-! ### Memory accesses (R86, R106 to R111, R135) -/

/-- The bytes from va on lie in this module's memory at the places ls, as an access of kind a of the task in focus finds them. -/
def State.spans (s : State) (va : Word) (a : Acc) (ls : List Loc) : Prop :=
  ∀ i l, ls[i]? = some l → ∃ kind m ia, s.lookU s.unit s.task.place.ctx (va + .ofNat 64 i) a = (.mem l kind, m, ia)

/-- The memory port of the task in focus is clear: no borrowed region, no earlier access of its own is held, in its side log or
unacknowledged, no register store waits, no store is held before a full log, no retriever thread waits for a kick, and its slot
has raised nothing. -/
def State.clearPort (s : State) : Prop :=
  s.borrowers = [] ∧ (∀ h ∈ s.held, h.unit ≠ s.unit ∧ h.req.isStore = false) ∧ s.sideOf s.unit = [] ∧ s.sentBy s.unit = []
  ∧ (∀ a ∈ s.barq, a.unit ≠ s.unit)
  ∧ (∀ rt ∈ s.rts, rt.2.kick.b 63 = false) ∧ s.iss.slotRaised = false

/-- A state with another memory and another next identifier, and nothing else changed. -/
def State.withMem (s : State) (m : Mem) (id : Nat) : State := { s with mem := m, nextId := id }

/-- The hoisted loads that an access to n bytes of memory at va of class cls leaves (R135): a write ends those of a checked pair
that overlap; an access to an S page ends those of S pages; those of a retriever's SRAM stay. -/
def hoistsLeft (s : State) (hs : Tab Hoist) (va : Word) (n cls : Nat) (write : Bool) : Tab Hoist :=
  hs.filter fun eh => s.sramHoist eh.2 || !((write && eh.2.checked cls && eh.2.overlaps (s.ctxAt s.task.place.ctx) s.part.module va n) || (s.reachesS va n && eh.2.kindS))

/-- From s to t the slot in focus has made a read: it posts ps, deposits near and far, has taken ids identifiers and left the
hoisted loads hs. Nothing else differs: no register, no CSR, no other task, no byte of memory. -/
def Reads (s t : State) (ids : Nat) (ps : List Pend) (near far : List VReg) (hs : Tab Hoist) : Prop :=
  t = ((s.withTasks t.tasks).withIss { s.iss with near := near, far := far }).withMem s.mem (s.nextId + ids)
  ∧ t.task = { s.task with inflight := s.task.inflight ++ ps, hoist := hs }
  ∧ (∀ k, k ≠ taskKey s.iss.core s.iss.slot → t.tasks.get .empty k = s.tasks.get .empty k)
  ∧ ∀ l, t.mem.rd l = s.mem.rd l

/-- From s to t the slot in focus has written the bytes bs at the places ls, posted ps, taken ids identifiers and left the
hoisted loads hs. Nothing else differs: no register, no CSR, no other task, and every other byte of memory reads as before. -/
def Writes (s t : State) (ids : Nat) (ps : List Pend) (ls : List Loc) (bs : List Byte) (hs : Tab Hoist) : Prop :=
  t = (s.withTasks t.tasks).withMem t.mem (s.nextId + ids)
  ∧ t.task = { s.task with inflight := s.task.inflight ++ ps, hoist := hs }
  ∧ (∀ k, k ≠ taskKey s.iss.core s.iss.slot → t.tasks.get .empty k = s.tasks.get .empty k)
  ∧ ls.map t.mem.rd = bs ∧ (∀ l, l ∉ ls → t.mem.rd l = s.mem.rd l) ∧ ∀ p ∈ t.mem.poison, p ∈ s.mem.poison

/-- The number of bytes read as a 64-bit value: sign-extended, or zero-extended where zx (R269, R270). -/
def loaded (n : Nat) (zx : Bool) (bs : List Byte) : Word :=
  if zx then (BitVec.ofNat (8 * n) (ofBytes bs)).setWidth 64 else (BitVec.ofNat (8 * n) (ofBytes bs)).signExtend 64

/-- The destination of a load: none where it is G0 (R269). -/
def gDest (d : BitVec 6) : RDest := if d = 0 then .none else .g d.toNat

/-- TRAPVAL of a memory cause: bits [56:0] of the address (R219). -/
def addrVal (va : Word) : Word := va &&& BitVec.ofNat 64 (2 ^ 57 - 1)

/-- Memory m differs from that of s at none but the places ls. -/
def State.memAt (s : State) (m : Mem) (ls : List Loc) : Prop := ∀ l, l ∉ ls → m.rd l = s.mem.rd l

/-- The bytes from va on lie at the places ls whatever bytes stand at the places out: none of those is part of the page table
that the walk of an address reads. -/
def State.spansAway (s : State) (va : Word) (a : Acc) (ls out : List Loc) : Prop :=
  ∀ m, s.memAt m out → (s.withMem m s.nextId).spans va a ls

/-- A state with another number for the next free value. -/
def State.withFree (s : State) (n : Nat) : State := { s with free := n }
/-- A state with other bytes in its retrievers' SRAM. -/
def State.withSram (s : State) (m : Tab Byte) : State := { s with rsram := m }

/-- A G pair's worth of bytes from memory read as a number. -/
def State.bytesAt (s : State) (ls : List Loc) : Nat := ofBytes (ls.map s.mem.rd)

/-- n 64-bit words from memory. -/
def State.wordsAt (s : State) (ls : List Loc) (n : Nat) : List Word :=
  (List.range n).map fun k => .ofNat 64 (s.bytesAt ((ls.drop (8 * k)).take 8))

/-- The bytes from va on can be read at once by a unit in the context of the task in focus: they lie in this module's memory at
the places ls, no earlier access of the unit waits, and none is poisoned. -/
def State.readableBy (s : State) (u : UnitId) (va : Word) (ls : List Loc) : Prop :=
  s.sideOf u = [] ∧ s.sentBy u = [] ∧ (∀ a ∈ s.barq, a.unit ≠ u) ∧ (∀ h ∈ s.held, h.unit ≠ u ∧ h.req.isStore = false) ∧ (∀ l ∈ ls, s.mem.bad l = false) ∧
  ∀ i l, ls[i]? = some l → ∃ kind m ia, s.lookU u s.task.place.ctx (va + .ofNat 64 i) .read = (.mem l kind, m, ia)

/-- An engine unit's access to the bytes from va on in a context can be made at once: they lie in this module's memory at the
places ls, which differ; no earlier write or packet of the unit waits, no store is held, no borrowed region and no kick word is in
use, and none of the bytes is poisoned. -/
def State.opens (s : State) (u : UnitId) (ctx : Nat) (va : Word) (a : Acc) (ls : List Loc) : Prop :=
  s.sideOf u = [] ∧ s.sentBy u = [] ∧ (∀ a ∈ s.barq, a.unit ≠ u) ∧ s.borrowers = [] ∧ (∀ h ∈ s.held, h.unit ≠ u ∧ h.req.isStore = false) ∧
  (∀ rt ∈ s.rts, rt.2.kick.b 63 = false) ∧ (∀ l ∈ ls, s.mem.bad l = false) ∧ ls.Nodup ∧
  ∀ i l, ls[i]? = some l → ∃ kind m ia, s.lookU u ctx (va + .ofNat 64 i) a = (.mem l kind, m, ia)

/-- From s to t only the places ls of memory change, and they hold bs. -/
def State.stores (s t : State) (ls : List Loc) (bs : List Byte) : Prop :=
  ls.map t.mem.rd = bs ∧ ∀ l, l ∉ ls → t.mem.rd l = s.mem.rd l

/-- No byte of memory changes from s to t. -/
def State.keeps (s t : State) : Prop := ∀ l, t.mem.rd l = s.mem.rd l

/-- A state with other collective contexts. -/
def State.withColls (s : State) (c : Tab Coll) : State := { s with colls := c }

/-- A group selector (R167): its rectangle is aligned to its size and lies in the kernel's. -/
def selects (g : Nat) (geom : Word) : Prop :=
  let x := g / 2 ^ 10
  let y := g / 2 ^ 6 % 16
  let w := 2 ^ (g / 8 % 8)
  let h := 2 ^ (g % 8)
  g / 8 % 8 ≤ 5 ∧ g % 8 ≤ 4 ∧ x % w = 0 ∧ y % h = 0 ∧ geom.f 43 39 ≤ x ∧ x + w ≤ geom.f 43 39 + 2 ^ geom.f 34 32 ∧
    geom.f 38 35 ≤ y ∧ y + h ≤ geom.f 38 35 + 2 ^ geom.f 31 29

/-! ### Tile tasks (R180, R259) -/

/-- From s to t the slot in focus has posted a task with these fields in the lowest free entry of its core's dependency table, and
the results that its tag gives. Nothing else differs: no register, no tile register, no other task, no byte of memory. -/
def PostsTask (s t : State) (lost : Bool) (i : Instr) (ops desc : List Word) (noise : List (BitVec 16)) (promise : Word)
    (total : Nat) (res : Nat → List Pend) (far : List VReg) : Prop :=
  let c := s.coreAt s.iss.core
  let n := nextPost s.task.posts
  ∃ e < 64, c.deps.get? e = none ∧ (∀ j < e, c.deps.get? j ≠ none) ∧
    t = ((s.withTasks t.tasks).withIss { s.iss with far := far }).setCoreAt s.iss.core { c with
      deps := c.deps.put e ⟨s.iss.slot, s.task.place.ctx, s.task.place.kernel, c.depSeq, s.nextId, i, ops, desc, noise, promise,
        n * 2 ^ 16 + e, .waiting, 0, 0, total, [], [], none⟩
      depSeq := c.depSeq + 1 } ∧
    t.task = { s.task with
      posts := n
      inflight := s.task.inflight ++ res (n * 2 ^ 16 + e)
      csr := { s.task.csr with taskst := if lost then s.task.csr.taskst ||| 1 else s.task.csr.taskst } } ∧
    (∀ k, k ≠ taskKey s.iss.core s.iss.slot → t.tasks.get .empty k = s.tasks.get .empty k) ∧ ∀ l, t.mem.rd l = s.mem.rd l

/-- The dependency table of the core in focus has a free entry (R180). -/
def State.depFree (s : State) : Prop := ∃ e < 64, (s.coreAt s.iss.core).deps.get? e = none

/-! ### Vectors (R16, R280, R287) -/

/-- Element e of width w of a V register, signed (R287 el). -/
def el (x : VReg) (w e : Nat) : Int := (x.extractLsb' (w * e) w).toInt

/-- The first n elements of width w of a register are the low w bits of what f gives (R287 put). -/
def Elems (x : VReg) (w n : Nat) (f : Nat → Int) : Prop := ∀ e < n, x.extractLsb' (w * e) w = BitVec.ofInt w (f e)

/-- Every V register named lies in the task's allocation (R280). -/
def State.allocated (s : State) (ns : List Nat) : Prop := ∀ n ∈ ns, s.task.vOk n = true

end Sys2Proof.Machine
end

