-- ==== Sys2Proof/Certificates/Slice0/Obligations.lean ====
section
/-! DEFINITION. The statements for the provers: what each instruction and event does and where it completes, the encoding, the
step, reset and the invariants. -/

section

open Sys2Proof Sys2Proof.Machine

/-! ### Scalar instructions (R240 to R249) -/

/-- ADD, SUB, MUL, MULH, MULHU, SADD, SSUB, MIN, MAX, MINU, MAXU run in every state, for every width, destination and source:
they post the value R241 gives, with the latency R239 gives, and change nothing else.
DIV, DIVU, REM, REMU (R241): with a divisor that is not zero at the width they post the quotient or the remainder after 20
clks; with a zero divisor, where the handler can take it, they raise 0x0C3 and write nothing. -/
def Obligations.ScalarArithmeticAndDivisionResults : Prop :=
  (∀ (s : State) (w : Bool) (d : Dst) (a b : Src),
    let x := s.task.srcG a
    let y := s.task.srcG b
    let val (f : (n : Nat) → BitVec n → BitVec n → BitVec n) : Word := atWidth w f x y
    Completes (.add w d a b) s (fun t => GivesG s t [a, b] d 1 (val fun _ p q => p + q)) ∧
    Completes (.sub w d a b) s (fun t => GivesG s t [a, b] d 1 (val fun _ p q => p - q)) ∧
    Completes (.mul w d a b) s (fun t => GivesG s t [a, b] d 3 (val fun _ p q => p * q)) ∧
    Completes (.mulh w d a b) s (fun t => GivesG s t [a, b] d 3 (val fun n p q => .ofInt n (p.toInt * q.toInt / 2 ^ n))) ∧
    Completes (.mulhu w d a b) s (fun t => GivesG s t [a, b] d 3 (val fun n p q => .ofNat n (p.toNat * q.toNat / 2 ^ n))) ∧
    Completes (.sadd w d a b) s (fun t => GivesG s t [a, b] d 1
      (val fun n p q => .ofInt n (max (-2 ^ (n - 1)) (min (2 ^ (n - 1) - 1) (p.toInt + q.toInt))))) ∧
    Completes (.ssub w d a b) s (fun t => GivesG s t [a, b] d 1
      (val fun n p q => .ofInt n (max (-2 ^ (n - 1)) (min (2 ^ (n - 1) - 1) (p.toInt - q.toInt))))) ∧
    Completes (.min w d a b) s (fun t => GivesG s t [a, b] d 1 (val fun _ p q => if p.slt q then p else q)) ∧
    Completes (.max w d a b) s (fun t => GivesG s t [a, b] d 1 (val fun _ p q => if p.slt q then q else p)) ∧
    Completes (.minu w d a b) s (fun t => GivesG s t [a, b] d 1 (val fun _ p q => if p.ult q then p else q)) ∧
    Completes (.maxu w d a b) s (fun t => GivesG s t [a, b] d 1 (val fun _ p q => if p.ult q then q else p))) ∧
  (∀ (s : State) (w : Bool) (d : Dst) (a b : Src),
    let x := s.task.srcG a
    let y := s.task.srcG b
    let zero : Prop := if w then y.setWidth 32 = 0 else y = 0
    let val (f : (n : Nat) → BitVec n → BitVec n → BitVec n) : Word := atWidth w f x y
    (¬ zero →
      Completes (.div w d a b) s (fun t => GivesG s t [a, b] d 20 (val fun _ p q => p.sdiv q)) ∧
      Completes (.divu w d a b) s (fun t => GivesG s t [a, b] d 20 (val fun _ p q => p / q)) ∧
      Completes (.rem w d a b) s (fun t => GivesG s t [a, b] d 20 (val fun _ p q => p.srem q)) ∧
      Completes (.remu w d a b) s (fun t => GivesG s t [a, b] d 20 (val fun _ p q => p % q))) ∧
    (zero → s.canTrap → ∀ i ∈ [Instr.div w d a b, .divu w d a b, .rem w d a b, .remu w d a b],
      Completes i s (fun t => Raises s t ([a, b].any s.task.lostSrc) 0x0C3 0)))

/-- AND, OR, XOR, SHL, SHR, SRA and the immediate forms ADDI, ANDI, ORI, XORI, SHLI, SHRI, SRAI (R241, R242).
CLZ, CLS, POPC, SEXT and LUI (R241, R243, R244): leading zeros and redundant sign bits as the length of the longest run of
equal bits below the top, set bits as their count, an extended field, a shifted and extended constant. -/
def Obligations.LogicShiftCountAndConstantResults : Prop :=
  (∀ (s : State) (w : Bool) (d : Dst) (a b : Src) (imm : BitVec 19) (amt : BitVec 6),
    let x := s.task.srcG a
    let y := s.task.srcG b
    let c := imm.signExtend 64
    let val (f : (n : Nat) → BitVec n → BitVec n → BitVec n) : Word := atWidth w f x y
    Completes (.and d a b) s (fun t => GivesG s t [a, b] d 1 (x &&& y)) ∧
    Completes (.or d a b) s (fun t => GivesG s t [a, b] d 1 (x ||| y)) ∧
    Completes (.xor d a b) s (fun t => GivesG s t [a, b] d 1 (x ^^^ y)) ∧
    Completes (.shl w d a b) s (fun t => GivesG s t [a, b] d 1 (val fun n p q => p <<< (q.toNat % n))) ∧
    Completes (.shr w d a b) s (fun t => GivesG s t [a, b] d 1 (val fun n p q => p >>> (q.toNat % n))) ∧
    Completes (.sra w d a b) s (fun t => GivesG s t [a, b] d 1 (val fun n p q => p.sshiftRight (q.toNat % n))) ∧
    Completes (.addi d a imm) s (fun t => GivesG s t [a] d 1 (x + c)) ∧
    Completes (.andi d a imm) s (fun t => GivesG s t [a] d 1 (x &&& c)) ∧
    Completes (.ori d a imm) s (fun t => GivesG s t [a] d 1 (x ||| c)) ∧
    Completes (.xori d a imm) s (fun t => GivesG s t [a] d 1 (x ^^^ c)) ∧
    Completes (.shli d a amt) s (fun t => GivesG s t [a] d 1 (x <<< amt.toNat)) ∧
    Completes (.shri d a amt) s (fun t => GivesG s t [a] d 1 (x >>> amt.toNat)) ∧
    Completes (.srai d a amt) s (fun t => GivesG s t [a] d 1 (x.sshiftRight amt.toNat))) ∧
  (∀ (s : State) (w : Bool) (d : Dst) (a : Src),
    let x := s.task.srcG a
    let n := if w then 32 else 64
    (∃ r ≤ n, (∀ i < r, x.getLsbD (n - 1 - i) = false) ∧ (r < n → x.getLsbD (n - 1 - r) = true) ∧
      Completes (.clz w d a) s (fun t => GivesG s t [a] d 1 (.ofNat 64 r))) ∧
    (∃ r ≤ n - 1, (∀ i < r, x.getLsbD (n - 2 - i) = x.getLsbD (n - 1)) ∧
      (r < n - 1 → x.getLsbD (n - 2 - r) ≠ x.getLsbD (n - 1)) ∧
      Completes (.cls w d a) s (fun t => GivesG s t [a] d 1 (.ofNat 64 r))) ∧
    Completes (.popc w d a) s (fun t => GivesG s t [a] d 1 (.ofNat 64 ((List.range n).countP x.getLsbD))) ∧
    (∀ (u : Bool) (k : BitVec 2), k ≠ 3 →
      Completes (.sext u k d a) s (fun t => GivesG s t [a] d 1
        (if u then (x.setWidth (8 * 2 ^ k.toNat)).setWidth 64 else (x.setWidth (8 * 2 ^ k.toNat)).signExtend 64))) ∧
    ∀ (wide : Bool) (imm : BitVec 19),
      Completes (.lui wide d a imm) s (fun t => GivesG s t [a] d 1
        ((x <<< (if wide then 19 else 11)) + imm.setWidth 64)))

/-- CMP, CMPI, QOP, the four forms of QMOV, and SEL (R245 to R249): each condition and operation by its number; the word of SEL, of format RR with
minor c, decodes to it. -/
def Obligations.PredicateAndSelectResults : Prop :=
  ∀ (s : State) (d : Dst) (a b : Src),
    let x := s.task.srcG a
    let y := s.task.srcG b
    let p := s.task.srcQ a
    let q := s.task.srcQ b
    let cmp (c : BitVec 4) (r : Bool) : Prop := Completes (.cmp c d a b) s (fun t => GivesQ s t [a, b] d r)
    let cmpi (c : BitVec 2) (r : BitVec 19 → Bool) : Prop :=
      ∀ imm, Completes (.cmpi c d a imm) s (fun t => GivesQ s t [a] d (r imm))
    let qop (o : BitVec 4) (r : Bool) : Prop := Completes (.qop o d a b) s (fun t => GivesQ s t [a, b] d r)
    (cmp 0 (x == y) ∧ cmp 1 (x != y) ∧ cmp 2 (x.slt y) ∧ cmp 3 (y.sle x) ∧ cmp 4 (x.ult y) ∧ cmp 5 (y.ule x) ∧
      cmp 6 (y.slt x) ∧ cmp 7 (x.sle y) ∧ cmp 8 (y.ult x) ∧ cmp 9 (x.ule y) ∧ cmp 10 (x &&& y != 0)) ∧
    (cmpi 0 (fun c => x == c.signExtend 64) ∧ cmpi 1 (fun c => x != c.signExtend 64) ∧
      cmpi 2 (fun c => x.slt (c.signExtend 64)) ∧ cmpi 3 (fun c => (c.signExtend 64).sle x)) ∧
    (qop 0 (p && q) ∧ qop 1 (p || q) ∧ qop 2 (p ^^ q) ∧ qop 3 (p && !q) ∧ qop 4 (p || !q)) ∧
    Completes (.qmovQFromG d a) s (fun t => GivesQ s t [a] d (x != 0)) ∧
    Completes (.qmovGFromQ d a) s (fun t => GivesG s t [a] d 1 (if p then 1 else 0)) ∧
    Completes (.qmovAllg d) s (fun t => GivesG s t [] d 1
      (.ofNat 64 (((List.range 16).filter s.task.qReg).map (2 ^ ·)).sum)) ∧
    (∀ sup, Completes (.qmovAllq sup a) s (fun t => Gives s t [a] .qAll sup 1 ((x &&& 0xFFFE ||| 1).setWidth 2048))) ∧
    ∀ c : BitVec 4, Completes (.sel d a b c) s (fun t => GivesG s t [a, b] d 1 (if s.task.qReg c.toNat then x else y)) ∧
      (d.reg.toNat < 64 → a.reg.toNat < (if a.l then 8 else 64) → b.reg.toNat < (if b.l then 8 else 64) →
        decodeSlot false 1 false 0 (.ofNat 32 (0x26 * 2 ^ 25 + d.reg.toNat * 2 ^ 19 + (if d.s then 2 ^ 18 else 0) +
          a.reg.toNat * 2 ^ 12 + (if a.l then 2 ^ 11 else 0) + b.reg.toNat * 2 ^ 5 + (if b.l then 2 ^ 4 else 0) + c.toNat)) =
          .ok (.sel d a b c))


/-! ### Control flow (R64 to R69, R250 to R257, R282) -/

/-- BR, BRT, BRF, CALL and RET set the flow of their bundle to their target or to none; CALL also posts its link to G63; LPAD
and NOP do nothing; YIELD asks for the next choice (R69, R250, R251, R258).
JMPT and CALLT (R67, R252): an index beyond the table raises 0x058 with nothing read; otherwise the 16-byte entry gives the
target and the label of its landing, and CALLT writes its link. -/
def Obligations.BranchesAndJumpTablesSetTheirFlow : Prop :=
  (∀ (s : State) (disp : BitVec 21) (q : BitVec 4) (x : BitVec 6) (label : BitVec 12),
    let tgt := (s.iss.pc + (disp.signExtend 64) <<< 4) &&& ~~~15#64
    let ret := s.task.gReg x.toNat &&& ~~~15#64
    let flow (u t : State) (a : Act) : Prop := t = u.withIss { u.iss with act := a }
    Completes (.br disp) s (fun t => flow s t (.branch (some ⟨tgt, 0, none⟩))) ∧
    Completes (.brt q disp) s (fun t =>
      flow s t (.branch (if q = 0 ∨ s.task.qReg q.toNat then some ⟨tgt, 0, none⟩ else none))) ∧
    Completes (.brf q disp) s (fun t =>
      flow s t (.branch (if q ≠ 0 ∧ ¬ s.task.qReg q.toNat then some ⟨tgt, 0, none⟩ else none))) ∧
    Completes (.call disp) s (fun t =>
      ∃ u, GivesG s u [] ⟨63, false⟩ 1 (s.iss.pc + 32) ∧ flow u t (.branch (some ⟨tgt, 0, none⟩))) ∧
    Completes (.ret x) s (fun t => flow s t (.branch (some ⟨ret, 0, none⟩))) ∧
    Completes (.lpad label) s (fun t => t = s) ∧
    Completes .nop s (fun t => t = s) ∧
    Completes .yield s (fun t => flow s t .yield)) ∧
  (∀ (s : State) (i t : BitVec 6) (c : BitVec 8),
    let idx := (s.task.gReg i.toNat).toNat
    let va := s.task.gReg t.toNat + .ofNat 64 (16 * idx)
    let s' := s.withMem s.mem (s.nextId + 1)
    (c.toNat < idx → s.canTrap →
      Completes (.jmpt i t c) s (fun r => Raises s r false 0x058 0) ∧
      Completes (.callt i t c) s (fun r => Raises s r false 0x058 0)) ∧
    ∀ ls, idx ≤ c.toNat → s.clearPort → ls.length = 16 → s.spans va .read ls → (∀ l ∈ ls, s.mem.bad l = false) →
      let act := Act.branch (some ⟨.ofNat 64 (s.bytesAt (ls.take 8)) &&& .ofNat 64 (maskF 56 4), 0,
        some (s.bytesAt (ls.drop 8) % 2 ^ 12)⟩)
      Completes (.jmpt i t c) s (fun r => r = s'.withIss { s.iss with act := act }) ∧
      Completes (.callt i t c) s (fun r => ∃ u, GivesG s' u [] ⟨63, false⟩ 1 (s.iss.pc + 32) ∧ r = u.withIss { u.iss with act := act }))

/-- LOOP and LOOPI by R255: the two causes 0x056 and the cause 0x050 in their order, no push for a count of zero, and otherwise
the push of the body's first and last bundle with its count. -/
def Obligations.LoopInstructionsPushTheirBody : Prop :=
  ∀ (s : State) (x : BitVec 6) (c : BitVec 12) (len : BitVec 13),
    let first := s.iss.pc + 16
    let last := s.iss.pc + .ofNat 64 (16 * (len.toNat + 1))
    let inner : Prop := ∀ l, s.task.loops.head? = some l → last.toNat < l.last.toNat
    let does (i : Instr) (n : Nat) : Prop :=
      ((2 ^ 22 - 1 < n ∨ ¬ inner) → s.canTrap → Completes i s (fun t => Raises s t false 0x056 0)) ∧
      (n ≤ 2 ^ 22 - 1 → inner → n = 0 → Completes i s (fun t => t = s.withIss { s.iss with act := .next (last + 16) })) ∧
      (n ≤ 2 ^ 22 - 1 → inner → 0 < n → s.task.loops.length = 6 → s.canTrap →
        Completes i s (fun t => Raises s t false 0x050 0)) ∧
      (n ≤ 2 ^ 22 - 1 → inner → 0 < n → s.task.loops.length ≠ 6 → Completes i s (fun t =>
        t = (s.setTask { s.task with loops := ⟨first, last, n⟩ :: s.task.loops }).withIss { s.iss with act := .next first }))
    does (.loop x len) (s.task.gReg x.toNat).toNat ∧ does (.loopi c len) c.toNat

/-- What follows a bundle (R64, R65, R255, R256): after the delay bundle of a taken branch, the target, with the branch's pops;
after a branch, its delay bundle; after a loop's last bundle, the loop's first with one iteration fewer, or the bundle after
the loop without it; otherwise the next bundle. The task's registers, results in flight and traps do not change.
A rotating loop's back edge moves the window by its step (R282): the loop at the depth VROT names, 1 being the outermost, and
only there.
LBRK (R257): not taken it pops nothing; taken it goes to the bundle after the last one of the n-th loop from the top, with n
pops pending; beyond the depth it raises 0x051. -/
def Obligations.BundleSuccessorAndLoopEnds : Prop :=
  (∀ (t old : Task) (f : Flow) (act : Act) (pc p : Word) (l : Loop) (rest : List Loop),
    let r := t.follow old act pc true
    (old.delay = .taken f → r.pc = f.tgt ∧ r.loops = t.loops.drop f.pops ∧ r.delay = .no ∧ r.label = f.label) ∧
    (old.delay ≠ .taken f → (∀ g, old.delay ≠ .taken g) → act = .next p → r.pc = p ∧ r.loops = t.loops ∧ r.delay = .no) ∧
    ((∀ g, old.delay ≠ .taken g) → (∀ p', act ≠ .next p') → r.delay = .no ∧ r.label = none ∧
      (t.loops = [] → r.pc = pc + 16 ∧ r.loops = []) ∧
      (t.loops = l :: rest → l.last ≠ pc → r.pc = pc + 16 ∧ r.loops = t.loops) ∧
      (t.loops = l :: rest → l.last = pc → 1 < l.rem → r.pc = l.first ∧ r.loops = { l with rem := l.rem - 1 } :: rest) ∧
      (t.loops = l :: rest → l.last = pc → l.rem ≤ 1 → r.pc = l.last + 16 ∧ r.loops = rest)) ∧
    r.regs = t.regs ∧ r.csr = t.csr ∧ r.tile = t.tile ∧ r.trap = t.trap ∧ r.inflight = t.inflight) ∧
  (∀ (t : Task) (l : Loop) (rest : List Loop), t.loops = l :: rest → 1 < l.rem →
    let r := t.advance l.last false
    (t.csr.vrot.f 18 16 = rest.length + 1 →
      r.csr.vrot.f 4 0 = (t.csr.vrot.f 4 0 + 32 - t.csr.vrot.f 12 8) % 32 ∧ r.csr.vrot.f 63 5 = t.csr.vrot.f 63 5) ∧
    (t.csr.vrot.f 18 16 ≠ rest.length + 1 → r.csr = t.csr) ∧ r.regs = t.regs) ∧
  (∀ (s : State) (q : BitVec 4) (n : BitVec 3), n ≠ 0 → n ≠ 7 →
    let taken : Prop := q = 0 ∨ s.task.qReg q.toNat = true
    (¬ taken → Completes (.lbrk q n) s (fun t => t = s.withIss { s.iss with act := .branch none })) ∧
    (taken → s.task.loops.length < n.toNat → s.canTrap → Completes (.lbrk q n) s (fun t => Raises s t false 0x051 0)) ∧
    ∀ l, taken → s.task.loops[n.toNat - 1]? = some l →
      Completes (.lbrk q n) s (fun t => t = s.withIss { s.iss with act := .branch (some ⟨l.last + 16, n.toNat, none⟩) }))


/-! ### Waits, traps and CSRs (R225, R258 to R268) -/

/-- WAITC (R260): an odd register raises 0x054; without an unretired copy of the tag the task goes on; a failed copy is delivered
as an event and retired; a promise that has passed is event 0x127; otherwise the task sleeps until the copy or the promise.
TWAIT.ALL, TWAIT and TWAIT.Z (R349): their entries are those posted before their bundle; with none of them left the task goes
on; with entries none of which has failed, before the deadline, it sleeps until they have retired; TWAIT.Z of an accumulator the task does not have raises 0x045.
WAITE (R261): a misaligned address raises 0x08C; where the word can be read and the test holds on it, the wait is over; else the
task sleeps until the test holds on a read; every hoisted load is invalid, for the read is an acquire. -/
def Obligations.WaitsSleepUntilTheirEvent : Prop :=
  (∀ (s : State) (a : BitVec 6),
    let p := s.task.gReg a.toNat
    let tag := (s.task.gReg (a.toNat + 1)).toNat
    let found := (s.coreAt s.iss.core).copyOf s.iss.slot s.task.place.kernel tag
    (a.toNat % 2 = 1 → s.canTrap → Completes (.waitc a) s (fun t => Raises s t false 0x054 0)) ∧
    (a.toNat % 2 = 0 → tag = 0 ∨ found = none → Completes (.waitc a) s (fun t => t = s)) ∧
    ∀ e d, a.toNat % 2 = 0 → tag ≠ 0 → found = some (e, d) →
      (∀ c tv, d.stat = .failed c tv → Completes (.waitc a) s (fun t =>
        (t.coreAt s.iss.core).deps.get? e = none ∧ t.task.events = s.task.events ++ [⟨c, tv⟩] ∧ t.iss = s.iss ∧
        t.task.regs = s.task.regs ∧ t.task.waitPc = s.iss.pc ∧ ∀ l, t.mem.rd l = s.mem.rd l)) ∧
      ((∀ c tv, d.stat ≠ .failed c tv) → p ≠ 0 → p.toNat ≤ s.cycle.toNat → s.task.inTrap = false →
        Completes (.waitc a) s (fun t => t = s.setTask { s.task with
          events := s.task.events ++ [⟨0x127, p⟩], woke := true, waitPc := s.iss.pc })) ∧
      ((∀ c tv, d.stat ≠ .failed c tv) → p ≠ 0 → p.toNat ≤ s.cycle.toNat → s.task.inTrap = true →
        Completes (.waitc a) s (fun t => t = (s.setTask { s.task with
          events := s.task.events ++ [⟨0x127, p⟩], woke := false, waitPc := s.iss.pc }).withIss
            { s.iss with act := .sleep (.copy e tag 0) })) ∧
      ((∀ c tv, d.stat ≠ .failed c tv) → (p = 0 ∨ s.cycle.toNat < p.toNat) →
        Completes (.waitc a) s (fun t => t = s.withIss { s.iss with act := .sleep (.copy e tag p) }))) ∧
  (∀ (s : State) (x y : BitVec 6) (z : BitVec 5),
    let p := s.task.gReg y.toNat
    let mine (zs all : Bool) (reg : Nat) := (s.coreAt s.iss.core).waitSet s.task s.iss.slot zs all reg s.iss.seq0
    let does (i : Instr) (zs all : Bool) (reg : Nat) : Prop :=
      (mine zs all reg = [] → Completes i s (fun t => t = s)) ∧
      (mine zs all reg ≠ [] → (∀ ed ∈ mine zs all reg, ∀ c tv, ed.2.stat ≠ .failed c tv) →
        (p = 0 ∨ s.cycle.toNat < p.toNat) →
        Completes i s (fun t => t = s.withIss { s.iss with act := .sleep (.tiles zs all reg p s.iss.seq0) })) ∧
      (mine zs all reg ≠ [] → (∀ ed ∈ mine zs all reg, ∀ c tv, ed.2.stat ≠ .failed c tv) →
        p ≠ 0 → p.toNat ≤ s.cycle.toNat → s.task.inTrap = false →
        Completes i s (fun t => t = s.setTask { s.task with
          events := s.task.events ++ [⟨0x127, p⟩], woke := true, waitPc := s.iss.pc }))
    does (.twaitAll y) false true 0 ∧ does (.twait x y) false false x.toNat ∧
    (z.toNat < 4 * popcount 8 s.task.place.groups → does (.twaitZ z y) true false z.toNat) ∧
    (4 * popcount 8 s.task.place.groups ≤ z.toNat → s.canTrap →
      Completes (.twaitZ z y) s (fun t => Raises s t false 0x045 (.ofNat 64 (z.toNat + 64))))) ∧
  (∀ (s : State) (test sc : BitVec 3) (a b : BitVec 6),
    let va := s.task.gReg a.toNat
    (va.toNat % 8 ≠ 0 → s.canTrap →
      Completes (.waite test sc a b) s (fun t => Raises s t false 0x08C (va &&& .ofNat 64 (2 ^ 57 - 1)))) ∧
    ∀ ls, va.toNat % 8 = 0 → ls.length = 8 → s.clearPort → s.spans va .read ls → (∀ l ∈ ls, s.mem.bad l = false) →
      let holds : Prop := match test.toNat with
        | 0 => s.bytesAt ls = (s.task.gReg b.toNat).toNat
        | 1 => s.bytesAt ls ≠ (s.task.gReg b.toNat).toNat
        | 2 => (s.task.gReg b.toNat).toNat ≤ s.bytesAt ls
        | _ => s.bytesAt ls < (s.task.gReg b.toNat).toNat
      Completes (.waite test sc a b) s (fun t =>
        t.task = { s.task with hoist := [] } ∧ (∀ l, t.mem.rd l = s.mem.rd l) ∧
        (holds → t.iss = { s.iss with act := .sleep .met } ∧ t.held = s.held) ∧
        (¬ holds →
          t.iss = { s.iss with act := .sleep (.reread s.nextId test.toNat sc.toNat va (s.task.gReg b.toNat) false) } ∧
          ∃ h, t.held = s.held ++ [h] ∧ h.id = s.nextId ∧ h.unit = s.unit ∧ h.acq = true ∧ h.why = .poll)))

/-- What the flow actions of a bundle do to its task once the bundle is complete (R64, R169, R258, R262): a branch marks the next
bundle as its delay bundle, YIELD makes the task READY, a wait SLEEPING, END ENDING without its loops and hoisted loads. -/
def Obligations.FlowActionsTakeEffect : Prop :=
  ∀ (s : State) (pc : Word) (f : Flow) (w : Wait),
    (s.flow (.branch none) pc false).task = { s.task with delay := .untaken } ∧
    (s.flow (.branch (some f)) pc false).task = { s.task with delay := .taken f } ∧
    (s.iss.core < 1024 → (s.flow .yield pc false).task = { s.task with stat := .ready } ∧
      ((s.flow .yield pc false).coreAt s.iss.core).yielded = some s.iss.slot) ∧
    (s.flow (.sleep w) pc false).task = { s.task with stat := .sleeping, wait := w, waitPc := pc } ∧
    (s.iss.core < 1024 → (s.flow .ended pc false).task.stat = .ending ∧ (s.flow .ended pc false).task.loops = [] ∧
      (s.flow .ended pc false).task.hoist = [] ∧ (s.flow .ended pc false).task.inTrap = false ∧
      (s.flow .ended pc false).task.regs = s.task.regs)

/-- END, TRAPI and ERET (R225, R262 to R264): END ends the task at its bundle; TRAPI enters the handler with its own cause and
TRAPPC at the next bundle; ERET leaves the handler for the bundle at TRAPPC, with INTRAP 0 and the latches lost, or raises
0x052 outside a handler. -/
def Obligations.EndTrapiAndEret : Prop :=
  ∀ (s : State) (i : BitVec 6),
    let failed (ed : Nat × Dep) : Prop := ed ∈ (s.coreAt s.iss.core).deps ∧ ed.2.of s.iss.slot s.task.place.kernel = true ∧ isCopyIns ed.2.ins = true ∧
      ∃ c tv, ed.2.stat = .failed c tv
    (s.task.inTrap = true ∨ (∀ ed, ¬ failed ed) →
      Completes .endTask s (fun t => t = s.withIss { s.iss with act := .ended })) ∧
    (∀ e d c tv, s.task.inTrap = false → failed (e, d) → (∀ ed, failed ed → ed = (e, d)) → d.stat = .failed c tv →
      Completes .endTask s (fun t => (t.coreAt s.iss.core).deps.get? e = none ∧ t.iss = s.iss ∧
        t.task = { s.task with events := s.task.events ++ [⟨c, tv⟩], woke := true, waitPc := s.iss.pc } ∧ s.keeps t)) ∧
    (s.iss.inTrap = false → s.task.hasHandler = true → (∀ f, s.task.delay ≠ .taken f) →
      Completes (.trapi i) s (fun t => t.iss = { s.iss with act := .trapi (0x1C0 + i.toNat) } ∧
        t.task = { s.task with
          trap := { s.task.trap with
            cause := .ofNat 64 (2 ^ 63 + 3 * 2 ^ 60 + s.task.loops.length * 2 ^ 53 + 0x1C0 + i.toNat)
            pc := (s.iss.pc + 16) &&& .ofNat 64 (maskF 56 4)
            tgt := 0, slots := 0, val := 0, ipc := 0 }
          pc := s.task.trap.vec &&& .ofNat 64 (maskF 56 4)
          delay := .no, lpad := s.task.label.map fun l => ((s.iss.pc + 16) &&& .ofNat 64 (maskF 56 4), l), label := none
          woke := false } ∧ ∀ l, t.mem.rd l = s.mem.rd l)) ∧
    (s.iss.inTrap = true → s.task.loops.length = s.task.trap.cause.f 55 53 →
      Completes .eret s (fun t => t = s.withIss { s.iss with act := .eret })) ∧
    (∀ pc, let t := s.flow .eret pc false
        t.task.trap.cause.getLsbD 63 = false ∧ (∀ n < 63, t.task.trap.cause.getLsbD n = s.task.trap.cause.getLsbD n) ∧
        t.task.pc = s.task.trap.pc &&& .ofNat 64 (maskF 56 4) ∧ t.task.latch = .lost ∧ t.task.lpad = none ∧
        t.task.skip.toNat = s.task.trap.slots.f 7 4 ∧ t.task.replay = true ∧
        t.task.delay = (if s.task.trap.cause.getLsbD 62 then
          .taken ⟨s.task.trap.tgt &&& .ofNat 64 (maskF 56 4), s.task.trap.cause.f 58 56,
            (s.task.lpad.filter fun x => x.1 == s.task.trap.tgt &&& .ofNat 64 (maskF 56 4)).map (·.2)⟩ else .no) ∧
        t.task.label = (if s.task.trap.cause.getLsbD 62 then none else
          (s.task.lpad.filter fun x => x.1 == s.task.trap.pc &&& .ofNat 64 (maskF 56 4)).map (·.2)) ∧
        t.task.regs = s.task.regs ∧ t.task.csr = s.task.csr ∧ t.task.trap.pc = s.task.trap.pc ∧
        t.task.trap.vec = s.task.trap.vec ∧ ∀ l, t.mem.rd l = s.mem.rd l) ∧
    (s.iss.inTrap = false → s.canTrap → Completes .eret s (fun t => Raises s t false 0x052 0))

/-- CSRR (R265 to R267): a defined number gives its value as a result of latency 1, an undefined one raises 0x053. The values of the
part's own CSRs are those of R12, R168, R317, R372, R374, R378 and R449.
CSRW (R265, R267): a writable field takes its bits of G(a), every other bit keeps its value; a field takes no reserved value
(R16); a read-only number ignores the write; an undefined one raises 0x053. The trap CSRs and TASKST take the write at once (the
model's choice, log 52), the others as a result of latency 1. TASKST's bits clear where G(a) has 1: its table says so and its text
calls it read-only (the model's choice, log 51). -/
def Obligations.CsrAccessesFollowTheirMap : Prop :=
  (∀ (s : State) (d : BitVec 6) (c : BitVec 12),
    let gives (v : Word) : Prop :=
      Completes (.csrr d c) s (fun t => Gives s t [] (.g d.toNat) (d == 0) 1 (v.setWidth 2048))
    let t := s.task
    let isle := s.island (s.part.island s.iss.core)
    (definedCsr c.toNat = true → ∃ u, exec (.csrr d c) s = .next u) ∧
    (definedCsr c.toNat = true → ∃ v, s.csr c.toNat = some v ∧ gives v) ∧
    (c = 0x010 → gives (.ofNat 64 (s.part.stepping % 256 * 2 ^ 48 + s.part.variant * 2 ^ 44
      + (if s.part.variant = 2 then 1 else 2) * 2 ^ 40 + (if s.part.variant = 2 then 256 else 512) * 2 ^ 30 + s.part.meshX * 2 ^ 24
      + 16 * 2 ^ 19 + s.part.memch * 2 ^ 11 + (if s.part.variant = 2 then 12 else 24) * 2 ^ 6
      + (if s.part.hasDecoder then 2 else 0) + (if s.part.hasRotor then 1 else 0)))) ∧
    (c = 0x011 → gives s.cycle) ∧ (c = 0x020 → gives (.ofNat 64 t.place.ctx)) ∧ (c = 0x021 → gives t.csr.taskst) ∧
    (c = 0x022 → gives (.ofNat 64 (s.iss.slot * 2 ^ 12 + s.iss.core % 32 * 16 + s.iss.core / 32))) ∧
    (c = 0x023 → gives t.grpGeom) ∧
    (c = 0x028 → gives t.csr.frzwd) ∧ (c = 0x030 → gives t.trap.cause) ∧ (c = 0x031 → gives t.trap.pc) ∧
    (c = 0x032 → gives t.trap.tgt) ∧ (c = 0x033 → gives t.trap.slots) ∧ (c = 0x034 → gives t.trap.val) ∧
    (c = 0x035 → gives t.trap.vec) ∧ (c = 0x036 → gives t.trap.scr0) ∧ (c = 0x037 → gives t.trap.scr1) ∧
    (c = 0x038 → gives t.trap.ipc) ∧ (c = 0x040 → gives t.csr.noisectl) ∧ (c = 0x041 → gives t.csr.noisebase) ∧
    (c = 0x042 → gives t.csr.noiselen) ∧ (c = 0x043 → gives t.csr.noisepos) ∧ (c = 0x044 → gives t.csr.kenbase) ∧
    (c = 0x045 → gives t.csr.kencnt) ∧ (c = 0x048 → gives (s.ctxAt t.place.ctx).satlim) ∧
    (∀ k < 32, c.toNat = 0x080 + k → gives ((s.ctxAt t.place.ctx).range.get 0 k)) ∧
    (c = 0x0A0 → gives (.ofNat 64 t.place.groups)) ∧ (c = 0x0A1 → gives (if s.part.hasDecoder then 16 else 0)) ∧
    (c = 0x0C0 → gives t.csr.vrot) ∧ (c = 0x200 → gives t.csr.leaseev) ∧
    (c = 0x100 → gives (if s.part.hasRotor then s.rotor.stat else 0)) ∧ (c = 0x101 → gives s.flowcfg) ∧
    (∀ k < 73, c.toNat = 0x180 + k → gives (if s.part.hasRotor then s.rotor.cal.get 0 k else 0)) ∧
    (c = 0x300 → gives (.ofNat 64 (isle.duty * 2 ^ 60 + isle.gated % 2 ^ 48))) ∧
    (definedCsr c.toNat = false → s.canTrap → Completes (.csrr d c) s (fun t => Raises s t false 0x053 0))) ∧
  (∀ (s : State) (a : BitVec 6) (c : BitVec 12),
    let v := s.task.gReg a.toNat
    let k := s.task.trap
    let r := s.task.csr
    let now (r : TrapCsr) : Prop := Completes (.csrw a c) s (fun t => t = s.setTask { s.task with trap := r })
    let later (w : Word) : Prop := Completes (.csrw a c) s (fun t =>
      Posts s t false [⟨.csr c.toNat, .ready (w.setWidth 2048), 1, s.iss.pos, s.iss.pc, false⟩] s.iss.near s.iss.far)
    (definedCsr c.toNat = true → ∃ t, exec (.csrw a c) s = .next t) ∧
    (c = 0x021 → Completes (.csrw a c) s (fun t =>
      t = s.setTask { s.task with csr := { s.task.csr with taskst := s.task.csr.taskst &&& ~~~(v &&& 7) } })) ∧
    (c = 0x030 → now { k with cause := k.cause.merge v (maskF 62 62 + maskF 58 56) }) ∧
    (c = 0x031 → now { k with pc := k.pc.merge v (maskF 56 4) }) ∧
    (c = 0x032 → now { k with tgt := k.tgt.merge v (maskF 56 4) }) ∧
    (c = 0x033 → now { k with slots := k.slots.merge v (maskF 7 4) }) ∧
    (c = 0x035 → now { k with vec := k.vec.merge v (maskF 63 63 + maskF 56 4) }) ∧
    (c = 0x036 → now { k with scr0 := v }) ∧ (c = 0x037 → now { k with scr1 := v }) ∧
    (c = 0x028 → later (r.frzwd.merge v (maskF 7 0))) ∧
    (c = 0x040 → later (if v.f 1 0 = 3 then r.noisectl else r.noisectl.merge v 3)) ∧
    (c = 0x041 → later (r.noisebase.merge v (maskF 56 6))) ∧
    (c = 0x042 → later (r.noiselen.merge v (maskF 31 0))) ∧
    (c = 0x043 → later (r.noisepos.merge v (maskF 31 0))) ∧
    (c = 0x044 → later (r.kenbase.merge v (maskF 56 17))) ∧
    (c = 0x045 → later (.ofNat 64 (((List.range 4).map fun q => 2 ^ (11 * q) * min 1024 (v.f (11 * q + 10) (11 * q))).sum))) ∧
    (c = 0x0C0 → s.inRetr = false →
      later (r.vrot.merge v ((if v.f 18 16 = 7 then 0 else maskF 18 16) + maskF 12 8 + maskF 4 0))) ∧
    (c ∈ [0x010#12, 0x011#12, 0x020#12, 0x022#12, 0x023#12, 0x048#12, 0x0A0#12, 0x0A1#12, 0x100#12, 0x101#12,
        0x200#12, 0x300#12] ∨ 0x080 ≤ c.toNat ∧ c.toNat < 0x0A0 ∨ 0x180 ≤ c.toNat ∧ c.toNat ≤ 0x1C8 →
      Completes (.csrw a c) s (fun t => t = s)) ∧
    (c = 0x034 ∨ c = 0x038 → Completes (.csrw a c) s (fun t => t = s.setTask s.task)) ∧
    (definedCsr c.toNat = false → s.canTrap → Completes (.csrw a c) s (fun t => Raises s t false 0x053 0)))


/-! ### Memory instructions (R106 to R135, R269 to R279) -/

/-- LDB, LDS, LDW, LDD and the acquire loads of every size (R269, R270): where their bytes lie in this module's memory they post
the value with latency 32 and change nothing else but the hoisted loads; a byte without a translation raises its cause at the
bundle with its address as TRAPVAL; a misaligned acquire load raises 0x08C.
LDH and CHKH (R135, R272, R273): LDH posts its value and records entry e with it and with where its bytes lie; where its access would fail it posts 0 and
the entry is invalid; CHKH with a matching entry posts the recorded value, otherwise it loads afresh, with latency 2 and its
latch, and the entry is invalid after it. -/
def Obligations.LoadResults : Prop :=
  (∀ (s : State) (d b : BitVec 6) (k : BitVec 4) (off : BitVec 17) (sc : BitVec 3) (z : BitVec 2) (zx : Bool) (ls : List Loc),
    let dest : RDest := if d = 0 then .none else .g d.toNat
    let at_ (n : Nat) : Word := s.task.gReg b.toNat + (.ofNat 64 n) * off.signExtend 64
    let does (i : Instr) (va : Word) (n : Nat) (zx acq : Bool) : Prop :=
      s.toSram k.toNat = false → s.clearPort →
      (ls.length = n → s.spans va .read ls → (∀ l ∈ ls, s.mem.bad l = false) →
        Completes i s (fun t => Reads s t 1
          [⟨dest, .ready ((loaded n zx (ls.map s.mem.rd)).setWidth 2048), 32, s.iss.pos, s.iss.pc, false⟩] s.iss.near s.iss.far
          (if acq then [] else hoistsLeft s s.task.hoist va n k.toNat false))) ∧
      ∀ j < n, ∀ c, s.canTrap → (s.lookU s.unit s.task.place.ctx (va + .ofNat 64 j) .read).1 = .xlat c →
        (∀ j' < j, ∀ c', (s.lookU s.unit s.task.place.ctx (va + .ofNat 64 j') .read).1 ≠ .xlat c') →
        Completes i s (fun t => Raises (s.withMem s.mem (s.nextId + 1)) t false c
          ((va + .ofNat 64 j) &&& .ofNat 64 (2 ^ 57 - 1)))
    let va := s.task.gReg b.toNat
    does (.ldb d b k off) (at_ 1) 1 false false ∧ does (.lds d b k off) (at_ 2) 2 false false ∧
    does (.ldw d b k off) (at_ 4) 4 false false ∧ does (.ldd d b k off) (at_ 8) 8 false false ∧
    (va.toNat % 2 ^ z.toNat = 0 → does (.ldAcq d b k sc z zx) va (2 ^ z.toNat) zx true) ∧
    (va.toNat % 2 ^ z.toNat ≠ 0 → s.canTrap →
      Completes (.ldAcq d b k sc z zx) s (fun t => Raises s t false 0x08C (va &&& .ofNat 64 (2 ^ 57 - 1))))) ∧
  (∀ (s : State) (d b : BitVec 6) (k : BitVec 4) (e : BitVec 5) (z : BitVec 2) (zx : Bool) (ls : List Loc),
    let dest : RDest := if d = 0 then .none else .g d.toNat
    let va := s.task.gReg b.toNat
    let n := 2 ^ z.toNat
    let val := loaded n zx (ls.map s.mem.rd)
    let left := hoistsLeft s s.task.hoist va n k.toNat false
    let locs := (s.looks s.unit s.task.place.ctx va n .read).map fun b => (b.module, b.ia)
    s.toSram k.toNat = false → s.clearPort →
    (ls.length = n → s.spans va .read ls → (∀ l ∈ ls, s.mem.bad l = false) →
      Completes (.ldh d b k e z zx) s (fun t => Reads s t 1 [⟨dest, .ready (val.setWidth 2048), 32, s.iss.pos, s.iss.pc, false⟩]
        s.iss.near s.iss.far (left.put e.toNat ⟨va, n, zx, k.toNat, s.reachesS va n, val, none, locs⟩)) ∧
      (s.task.hoist.get? e.toNat = none →
        Completes (.chkh d b k e z zx) s (fun t => Reads s t 1 [⟨dest, .ready (val.setWidth 2048), 2, s.iss.pos, s.iss.pc, false⟩]
          s.iss.near (s.iss.far.set s.iss.pos (val.setWidth 2048)) (left.del e.toNat)))) ∧
    (∀ c, (s.lookU s.unit s.task.place.ctx va .read).1 = .xlat c →
      Completes (.ldh d b k e z zx) s (fun t => Reads s t 1 [⟨dest, .ready 0, 32, s.iss.pos, s.iss.pc, false⟩]
        s.iss.near s.iss.far (left.del e.toNat))) ∧
    ∀ v kindS old, s.task.hoist.get? e.toNat = some ⟨va, n, zx, k.toNat, kindS, v, none, old⟩ →
      Completes (.chkh d b k e z zx) s (fun t => Reads s t 0 [⟨dest, .ready (v.setWidth 2048), 2, s.iss.pos, s.iss.pc, false⟩]
        s.iss.near (s.iss.far.set s.iss.pos (v.setWidth 2048)) (s.task.hoist.del e.toNat)))

/-- STB, STS, STW, STD and the release stores of every size (R269, R270): where their bytes lie in this module's memory they
write the low bytes of G(d) there and nothing else; a store without a translation writes nothing and is reported imprecisely
(R108), one report for each range pair the bytes fall to; a misaligned release store raises 0x08C.
The loads and stores of a retriever's thread at its local SRAM (R388, alias class 15): within the thread's share they read and
write it with latency 32 and touch no other memory; outside it they raise 0x083 with the address of the first byte outside. A store
ends the hoisted loads of this SRAM that it overlaps. -/
def Obligations.StoreAndSramEffects : Prop :=
  (∀ (s : State) (d b : BitVec 6) (k : BitVec 4) (off : BitVec 17) (sc : BitVec 3) (z : BitVec 2) (ls : List Loc),
    let at_ (n : Nat) : Word := s.task.gReg b.toNat + (.ofNat 64 n) * off.signExtend 64
    let bytes (n : Nat) : List Byte := (List.range n).map fun j => (s.task.gReg d.toNat).extractLsb' (8 * j) 8
    let does (i : Instr) (va : Word) (n : Nat) : Prop :=
      s.toSram k.toNat = false → s.clearPort →
      (ls.length = n → ls.Nodup → s.spans va .write ls →
        Completes i s (fun t => Writes s t 0 [] ls (bytes n) (hoistsLeft t s.task.hoist va n k.toNat true))) ∧
      ∀ c, (∀ j < n, (s.lookU s.unit s.task.place.ctx (va + .ofNat 64 j) .write).1 = .xlat c) →
        Completes i s (fun t => t.task.reports = s.task.reports ++ ((List.range n).filter fun j => j = 0 ∨
            (s.ctxAt s.task.place.ctx).rangeOf (va + .ofNat 64 j) ≠ (s.ctxAt s.task.place.ctx).rangeOf (va + .ofNat 64 j - 1)).map
              (fun j => ⟨c, (va + .ofNat 64 j) &&& .ofNat 64 (2 ^ 57 - 1)⟩) ∧
          t.task.regs = s.task.regs ∧ t.iss = s.iss ∧ ∀ l, t.mem.rd l = s.mem.rd l)
    let va := s.task.gReg b.toNat
    does (.stb d b k off) (at_ 1) 1 ∧ does (.sts d b k off) (at_ 2) 2 ∧
    does (.stw d b k off) (at_ 4) 4 ∧ does (.std d b k off) (at_ 8) 8 ∧
    (va.toNat % 2 ^ z.toNat = 0 → does (.stRel d b k sc z) va (2 ^ z.toNat)) ∧
    (va.toNat % 2 ^ z.toNat ≠ 0 → s.canTrap →
      Completes (.stRel d b k sc z) s (fun t => Raises s t false 0x08C (va &&& .ofNat 64 (2 ^ 57 - 1))))) ∧
  (∀ (s : State) (d b : BitVec 6) (off : BitVec 17) (v : BitVec 7) (o : BitVec 16) (e : BitVec 5) (z : BitVec 2) (sc : BitVec 3)
    (zx : Bool),
    let va := s.task.gReg b.toNat
    let size := 2 ^ z.toNat
    let at_ (n : Nat) : Word := s.task.gReg b.toNat + (.ofNat 64 n) * off.signExtend 64
    let byte (m : Tab Byte) (j : Nat) : Byte := m.get 0 ((s.iss.core - 1024) * 2 ^ 18 + j)
    let pend (dest : RDest) (x : VReg) : Pend := ⟨dest, .ready x, 32, s.iss.pos, s.iss.pc, false⟩
    let read (a n : Nat) : List Byte := (List.range n).map fun j => byte s.rsram (a + j)
    let wrote (t : State) (a n : Nat) (x : Nat → Byte) : Prop := t = (s.withSram t.rsram).withTasks t.tasks ∧
      t.task = { s.task with hoist := s.task.hoist.filter fun eh =>
        !(eh.2.cls == 15 && eh.2.addr.toNat % 2 ^ 18 < a + n && a < eh.2.addr.toNat % 2 ^ 18 + eh.2.size) } ∧ (∀ j < n, byte t.rsram (a + j) = x j) ∧
      ∀ k, (∀ j < n, k ≠ (s.iss.core - 1024) * 2 ^ 18 + a + j) → t.rsram.get 0 k = s.rsram.get 0 k
    let beyond (i : Instr) (w : Word) (n : Nat) : Prop :=
      ∀ j < n, s.inShare (w.toNat % 2 ^ 18 + j) 1 = false → (∀ j' < j, s.inShare (w.toNat % 2 ^ 18 + j') 1 = true) → s.canTrap →
        Completes i s (fun t => Raises s t false 0x083 (addrVal (w + .ofNat 64 j)))
    let loads (i : Instr) (w : Word) (n : Nat) (zx : Bool) : Prop :=
      let a := w.toNat % 2 ^ 18
      (s.inShare a n = true → Completes i s (fun t =>
        Posts s t false [pend (gDest d) ((loaded n zx (read a n)).setWidth 2048)] s.iss.near s.iss.far)) ∧ beyond i w n
    let stores (i : Instr) (w : Word) (n : Nat) : Prop :=
      let a := w.toNat % 2 ^ 18
      (s.inShare a n = true → s.iss.slotRaised = false → Completes i s (fun t =>
        wrote t a n fun j => (s.task.gReg d.toNat).extractLsb' (8 * j) 8)) ∧ beyond i w n
    let at0 := va.toNat % 2 ^ 18
    let vat := (va + (64 : Word) * o.signExtend 64).toNat % 2 ^ 18
    let kept := loaded size zx (read at0 size)
    1024 ≤ s.iss.core →
    loads (.ldb d b 15 off) (at_ 1) 1 false ∧ loads (.lds d b 15 off) (at_ 2) 2 false ∧ loads (.ldw d b 15 off) (at_ 4) 4 false ∧
    loads (.ldd d b 15 off) (at_ 8) 8 false ∧ stores (.stb d b 15 off) (at_ 1) 1 ∧ stores (.sts d b 15 off) (at_ 2) 2 ∧
    stores (.stw d b 15 off) (at_ 4) 4 ∧ stores (.std d b 15 off) (at_ 8) 8 ∧
    (va.toNat % size = 0 → s.task.hoist = [] → s.iss.slotRaised = false →
      loads (.ldAcq d b 15 sc z zx) va size zx ∧ stores (.stRel d b 15 sc z) va size) ∧
    (s.inShare at0 size = true → Completes (.ldh d b 15 e z zx) s (fun t =>
      t.task.inflight = s.task.inflight ++ [pend (gDest d) (kept.setWidth 2048)] ∧
      t.task.hoist.get? e.toNat = some ⟨va, size, zx, 15, false, kept, none, []⟩ ∧ t.iss = s.iss ∧ t.task.regs = s.task.regs)) ∧
    beyond (.ldh d b 15 e z zx) va size ∧
    (s.allocated [v.toNat] → s.inShare vat 64 = true → s.iss.slotRaised = false →
      Completes (.vld v b 15 o) s (fun t => Posts s t false
        [pend (.v (s.task.vMap v.toNat)) (.ofNat 2048 (ofBytes (read vat 64)))] s.iss.near s.iss.far) ∧
      Completes (.vst v b 15 o) s (fun t => wrote t vat 64 fun j =>
        (s.task.vPhys (s.task.vMap v.toNat)).extractLsb' (8 * j) 8)))

/-- AADD, ASADD, AMIN, AMAX, AAND, AOR, AXCHG and ACAS (R274): on an aligned word or doubleword of the ring or of local LPDDR6
they write the new value of the table, or nothing for an ACAS that fails, and post the old value, sign-extended, with latency
48; a misaligned address raises 0x08C.
ACAS2 (R275): odd registers raise 0x054; on an aligned pair of words of the ring or of local LPDDR6 it posts both old words
with latency 48 and writes the new pair where they match the expected one. -/
def Obligations.AtomicResults : Prop :=
  (∀ (s : State) (d b v : BitVec 6) (o : BitVec 2) (sc : BitVec 3) (z : Bool) (ls : List Loc),
    let n := if z then 8 else 4
    let dest : RDest := if d = 0 then .none else .g d.toNat
    let va := s.task.gReg b.toNat
    let does (i : Instr) (new : (w : Nat) → BitVec w → BitVec w → BitVec w → BitVec w) : Prop :=
      (va.toNat % n ≠ 0 → s.canTrap →
        Completes i s (fun t => Raises s t false 0x08C (va &&& .ofNat 64 (2 ^ 57 - 1)))) ∧
      (va.toNat % n = 0 → s.clearPort → ls.length = n → ls.Nodup → s.spans va .atomic ls →
        (∀ l ∈ ls, s.mem.bad l = false ∧ ∀ a, l ≠ .host a) →
        let old := BitVec.ofNat (8 * n) (ofBytes (ls.map s.mem.rd))
        let res := new (8 * n) old ((s.task.gReg v.toNat).setWidth (8 * n)) ((s.task.gReg d.toNat).setWidth (8 * n))
        Completes i s (fun t => Writes s t 1
          [⟨dest, .ready ((old.signExtend 64).setWidth 2048), 48, s.iss.pos, s.iss.pc, false⟩] ls
          ((List.range n).map fun j => res.extractLsb' (8 * j) 8)
          (if o.toNat % 2 = 1 then [] else hoistsLeft t s.task.hoist va n 0 true)))
    does (.aadd d b v o sc z) (fun _ old x _ => old + x) ∧
    does (.asadd d b v o sc z)
      (fun w old x _ => .ofInt w (max (-2 ^ (w - 1)) (min (2 ^ (w - 1) - 1) (old.toInt + x.toInt)))) ∧
    does (.amin d b v o sc z) (fun _ old x _ => if x.slt old then x else old) ∧
    does (.amax d b v o sc z) (fun _ old x _ => if old.slt x then x else old) ∧
    does (.aand d b v o sc z) (fun _ old x _ => old &&& x) ∧
    does (.aor d b v o sc z) (fun _ old x _ => old ||| x) ∧
    does (.axchg d b v o sc z) (fun _ _ x _ => x) ∧
    does (.acas d b v o sc z) (fun _ old x e => if old = e then x else old)) ∧
  (∀ (s : State) (d b v : BitVec 6) (o : BitVec 2) (sc : BitVec 3) (ls : List Loc),
    let va := s.task.gReg b.toNat
    let reg (r : BitVec 6) (k : Nat) : Word := s.task.gReg (r.toNat + k)
    (d.toNat % 2 = 1 ∨ v.toNat % 2 = 1 → s.canTrap →
      Completes (.acas2 d b v o sc) s (fun t => Raises s t false 0x054 0)) ∧
    (d.toNat % 2 = 0 → v.toNat % 2 = 0 → va.toNat % 16 = 0 → s.clearPort → ls.length = 16 → ls.Nodup →
      s.spans va .atomic ls → (∀ l ∈ ls, s.mem.bad l = false ∧ ∀ a, l ≠ .host a) →
      let old := BitVec.ofNat 128 (ofBytes (ls.map s.mem.rd))
      let new : BitVec 128 := if old = reg d 1 ++ reg d 0 then reg v 1 ++ reg v 0 else old
      Completes (.acas2 d b v o sc) s (fun t => Writes s t 1
        [⟨.gPair d.toNat, .ready (old.setWidth 2048), 48, s.iss.pos, s.iss.pc, false⟩] ls
        ((List.range 16).map fun j => new.extractLsb' (8 * j) 8)
        (if o.toNat % 2 = 1 then [] else hoistsLeft t s.task.hoist va 16 0 true))))

/-- REMOP (R277, R278): a misaligned block raises 0x08C, a block whose OP, N, X or reserved bits are out of range 0x055, a target
misaligned for its operation 0x08C, an ENQ node on another module than its target 0x055; FADD at an
aligned word of this module adds X to it and posts the old word with latency 96.
MCAS, ENQ and CHASE at their retriever (R278): MCAS of N words writes the new words where every expected word matches and gives
the mask of the words that matched with the old words as its REPLY. ENQ clears the word at its node and links the node after the old
tail, or as the head of an empty queue, and makes it the tail; where the old tail is on another module, the link store is sent there.
CHASE follows the links of a path for its hops, and gives how many it made, why it stopped and where. -/
def Obligations.RemoteOperationResults : Prop :=
  (∀ (s : State) (d b v : BitVec 6) (o : BitVec 2) (sc : BitVec 3) (gs ts : List Loc) (l : Look) (ia : Nat),
    let va := s.task.gReg b.toNat
    let gv := s.task.gReg v.toNat
    let w0 : Word := BitVec.ofNat 64 (s.bytesAt (gs.take 8))
    let x : Word := BitVec.ofNat 64 (s.bytesAt ((gs.drop 8).take 8))
    let old : Word := BitVec.ofNat 64 (s.bytesAt ts)
    (gv.toNat % 128 ≠ 0 → s.canTrap → Completes (.remop d b v o sc) s (fun t => Raises s t false 0x08C (addrVal gv))) ∧
    (gv.toNat % 128 = 0 → s.clearPort → gs.length = 128 → s.spans gv .read gs → (∀ l ∈ gs, s.mem.bad l = false) →
      let op := w0.f 63 60
      let n := w0.f 4 0
      let out : Prop := 4 ≤ op ∨ w0.f 59 5 ≠ 0 ∨ (op = 0 ∧ n ≠ 0) ∨ (op = 2 ∧ n ≠ 0) ∨ (op = 1 ∧ (n = 0 ∨ 4 < n)) ∨
        (op = 3 ∧ (n = 0 ∨ 16 < n ∨ x.toNat % 8 ≠ 0 ∨ 2 ^ 16 ≤ x.toNat))
      let raises (c : Nat) (tv : Word) : Prop :=
        Completes (.remop d b v o sc) s (fun t => Raises (s.withMem s.mem (s.nextId + 1)) t false c tv)
      let on (m a : Nat) : Nat := (⟨0, s.lookAt s.unit m a .atomic, m, a⟩ : ByteLook).target.1
      (out → s.canTrap → raises 0x055 0) ∧
      (¬ out → s.canTrap → va.toNat % (if op = 1 then 32 else if op = 2 then 16 else 8) ≠ 0 → raises 0x08C (addrVal va)) ∧
      (¬ out → s.canTrap → op = 2 → va.toNat % 16 = 0 → ∀ m a m' a',
        s.xlate s.unit s.task.place.ctx va Acc.write.need = .ok (m, a) →
        s.xlate s.unit s.task.place.ctx x Acc.write.need = .ok (m', a') → on m a ≠ on m' a' → raises 0x055 0) ∧
      (w0 = 0 → va.toNat % 8 = 0 → s.lookU s.unit s.task.place.ctx va .write = (l, s.part.module, ia) →
        (∀ c, l ≠ .xlat c) → (∀ m i k, l ≠ .remote m i k) → ts.length = 8 → ts.Nodup → (∀ p ∈ ts, p ∉ gs) → s.spansAway gv .read gs ts →
        (∀ i p, ts[i]? = some p → ∃ k, s.lookIA (ia + i) .atomic = .mem p k) → (∀ p ∈ ts, s.mem.bad p = false ∧ ∀ a, p ≠ .host a) →
        Completes (.remop d b v o sc) s (fun t => Writes s t 1
          [⟨gDest d, .ready (old.setWidth 2048), 96, s.iss.pos, s.iss.pc, false⟩] ts
          ((List.range 8).map fun j => (old + x).extractLsb' (8 * j) 8)
          (if o.toNat % 2 = 1 then [] else hoistsLeft t (hoistsLeft t (hoistsLeft t s.task.hoist gv 128 0 false) (gv + 96) 32 0 true)
            va 8 0 true))))) ∧
  (∀ (s : State) (find : Finder) (got : Tab Byte) (b : RemopBlk) (t node : Nat) (ls hs ns : List Loc)
      (path : Nat → Nat) (lks : Nat → List Loc) (h : Nat),
    let placed (ls : List Loc) (at_ : Nat → Look) : Prop :=
      ∀ i p, ls[i]? = some p → s.mem.bad p = false ∧ (∀ a, p ≠ .host a) ∧ ∃ k, at_ i = .mem p k
    let words (m : Mem) : List Word := (List.range b.n).map fun k => m.word ((ls.drop (8 * k)).take 8)
    let olds := words s.mem
    (b.op = 1 → ls.length = 8 * b.n → ls.Nodup → (∀ p ∈ ls, s.mem.bad p = false ∧ ∀ a, p ≠ .host a) →
      (∀ i p, ls[i]? = some p → ∃ k, find (t + i) .atomic = .mem p k) →
      ∃ (mem : Mem) (mask : Word),
        s.performRemop find got b t node = (s.withMem mem s.nextId, .done mask (olds.flatMap fun w => toBytes 8 w.toNat) []
          (if ∀ k < b.n, olds.getD k 0 = b.exp.getD k 0 then upFrom t (8 * b.n) else [])) ∧
        (∀ k < 64, mask.getLsbD k = decide (k < b.n ∧ olds.getD k 0 = b.exp.getD k 0)) ∧
        (∀ p, p ∉ ls → mem.rd p = s.mem.rd p) ∧
        words mem = if ∀ k < b.n, olds.getD k 0 = b.exp.getD k 0 then (List.range b.n).map fun k => b.new.getD k 0 else olds) ∧
    (b.op = 2 → hs.length = 16 → ns.length = 8 → (hs ++ ns).Nodup → placed hs (fun i => find (t + i) .atomic) →
      placed ns (fun i => find (node % 2 ^ 52 + i) .write) →
      let old := s.bytesAt (hs.drop 8)
      let does (out : List (Nat × Nat × Word × Option Nat)) (ias : List Nat) (ws : List (List Loc × Nat)) : Prop :=
        ∃ mem, s.performRemop find got b t node = (s.withMem mem s.nextId,
            .done (.ofNat 64 old) [] out (upFrom (node % 2 ^ 52) 8 ++ ias ++ upFrom (t + 8) 8)) ∧
          (∀ w ∈ ws, ofBytes (w.1.map mem.rd) = w.2 % 2 ^ 64) ∧ ∀ p, (∀ w ∈ ws, p ∉ w.1) → mem.rd p = s.mem.rd p
      (old = 0 → does [] (upFrom t 8) [(ns, 0), (hs.take 8, node), (hs.drop 8, node)]) ∧
      (old ≠ 0 → old / 2 ^ 52 = s.part.module → ls.length = 8 → (hs ++ ns ++ ls).Nodup →
        placed ls (fun i => find (old % 2 ^ 52 + i) .write) →
        does [] (upFrom (old % 2 ^ 52) 8) [(ns, 0), (ls, node), (hs.drop 8, node)]) ∧
      (old ≠ 0 → old / 2 ^ 52 ≠ s.part.module → s.cabled (old / 2 ^ 52) = true →
        does [(old / 2 ^ 52, old % 2 ^ 52, .ofNat 64 node, none)] [] [(ns, 0), (hs.drop 8, node)])) ∧
    (b.op = 3 → 0 < h → h ≤ b.n → path 0 = s.part.module * 2 ^ 52 + t →
      (∀ i < h, (lks i).length = 8 ∧ path (i + 1) = s.bytesAt (lks i) ∧
        placed (lks i) (fun j => find ((path i + b.x.toNat) % 2 ^ 52 + j) .atomic)) →
      let here (q : Nat) : Prop := q ≠ 0 ∧ q / 2 ^ 52 = s.part.module
      let ends (q why : Nat) : Prop :=
        s.performRemop find got b t node = (s, .done (.ofNat 64 q) (toBytes 8 h ++ toBytes 8 why) [] [])
      (∀ i, 0 < i → i < h → here (path i) ∧ path i % 2 ^ 52 < 0xFFFF000000000) →
      (here (path h) → path h % 2 ^ 52 < 0xFFFF000000000 → h = b.n → ends (path h) 0) ∧
      (path h = 0 → ends (path (h - 1)) 1) ∧
      (path h ≠ 0 → path h / 2 ^ 52 ≠ s.part.module → ends (path (h - 1)) 2) ∧
      (here (path h) → 0xFFFF000000000 ≤ path h % 2 ^ 52 → ends (path (h - 1)) 3)))

/-- FENCE (R132, R135, R268): every hoisted load of the task is invalid; where nothing of the task is incomplete nothing else
changes, else its later accesses wait behind the FENCE's number.
What a serviceable fault does (R107, R109, R110): a load is held and its result awaited, at the bundle's place, with no register
written; a store's bytes go to the side log and the task goes on. With the context's fault ring off, no record is written.
A fault record, where none waits before it (R89, R113): with LOG2 from 6 to 20 and room in the ring, its 32 bytes go to the entry at HEAD, and HEAD advances
modulo the ring's size; a full ring drops it and sets DROP; a ring that is off writes nothing. -/
def Obligations.FencesAndFaultsHoldAccesses : Prop :=
  (∀ (s : State) (sc : BitVec 3),
    let u := s.setTask { s.task with hoist := [] }
    let k := s.unit.logKey
    ((s.older s.unit s.nextId).clear = true → Completes (.fence sc) s (fun t => t = u)) ∧
    ((s.older s.unit s.nextId).clear = false → Completes (.fence sc) s (fun t =>
      t = (u.withMem s.mem (s.nextId + 1)).setCoreAt k
        { s.coreAt k with fences := (s.coreAt k).fences ++ [(s.unit, s.nextId)] }))) ∧
  (∀ (s : State) (d b : BitVec 6) (k : BitVec 4) (off : BitVec 17) (c st kind m ia : Nat),
    let va := s.task.gReg b.toNat + off.signExtend 64
    s.toSram k.toNat = false → s.clearPort → (s.ctxAt s.task.place.ctx).frctl.f 63 59 = 0 →
    (s.lookU s.unit s.task.place.ctx va .read = (.fault c st kind, m, ia) →
      Completes (.ldb d b k off) s (fun t =>
        t.held = s.held ++ [⟨s.nextId, s.unit, s.task.place.ctx, .load va 1 false, .flush, ia, k.toNat, [], false,
          s.iss.pos, s.iss.pc, [(0, m, ia, 1)], [], false, false, []⟩] ∧
        t.task.inflight = s.task.inflight ++ [⟨gDest d, .await s.nextId, 32, s.iss.pos, s.iss.pc, false⟩] ∧
        t.task.regs = s.task.regs ∧ t.iss = s.iss ∧ ∀ l, t.mem.rd l = s.mem.rd l)) ∧
    (s.lookU s.unit s.task.place.ctx va .write = (.fault c st kind, m, ia) →
      Completes (.stb d b k off) s (fun t =>
        t.sideOf s.unit = [⟨0, s.nextId, s.task.place.ctx, s.unit, va, m, ia, [(s.task.gReg d.toNat).setWidth 8], kind, false,
          false, false, 0, []⟩] ∧
        t.task.regs = s.task.regs ∧ t.task.inflight = s.task.inflight ∧ t.iss = s.iss ∧ ∀ l, t.mem.rd l = s.mem.rd l))) ∧
  (∀ (s : State) (n : Nat) (r : RecInfo) (ls : List Loc),
    let c := s.ctxAt n
    let k := c.frctl.f 63 59
    let head := c.frctl.f 39 20
    let tail := c.frctl.f 19 0
    let info := if r.unit.usesIA then { r with va := 0 } else r
    let t := s.record n r
    c.recs = [] → c.recSent = false →
    (k < 6 ∨ 20 < k → t = s.setCtxAt n c) ∧
    (6 ≤ k → k ≤ 20 → (head + 1) % 2 ^ k = tail % 2 ^ k →
      t = s.setCtxAt n { c with frctl := c.frctl ||| .ofNat 64 (2 ^ 40) }) ∧
    (6 ≤ k → k ≤ 20 → (head + 1) % 2 ^ k ≠ tail % 2 ^ k → ls.length = 32 → ls.Nodup →
      (∀ i l, ls[i]? = some l → ∃ kind, s.lookIA (c.frbase.f 51 5 * 32 + 32 * head + i) .write = .mem l kind) →
      ls.map t.mem.rd = info.bytes c.gen s.cycle.toNat ∧ (∀ l, l ∉ ls → t.mem.rd l = s.mem.rd l) ∧
      (t.ctxAt n).frctl.f 39 20 = (head + 1) % 2 ^ k ∧ (t.ctxAt n).frctl.f 19 0 = tail ∧ (t.ctxAt n).frctl.f 63 59 = k ∧
      t.tasks = s.tasks ∧ t.cores = s.cores))

/-- PGDISC (R104, R118, R119): an empty range does nothing; a range beyond 2^57 or without a translation raises its cause; where
nothing of the task stands before it, a RESIDENT page of this module that the range covers becomes ZERO at every copy of its leaf,
and no other byte changes.
PGPREF, PGPREF.REC and PGPREF.RECW (R120): no form changes memory, a page's state or the task; PGPREF
loads the translations of the range's pages into the caches of their home controllers, after which they serve every IA of the
page that has that home; the recording forms write one fault record, PREF 1, for an unmapped page of this module in the range, and
nothing for an empty range. -/
def Obligations.PageDiscardAndPrefetchResults : Prop :=
  (∀ (s : State) (a b : Src) (ia at_ : Nat) (e : Word) (c : Nat),
    let base := (s.task.srcG a).toNat
    let len := (s.task.srcG b).toNat
    let lost := [a, b].any s.task.lostSrc
    let i := Instr.pgdisc a b
    let copies := leafCopies e at_ ia
    (len = 0 → Completes i s (fun t => t = s.touch [a, b])) ∧
    (0 < len → 2 ^ 57 < base + len → s.canTrap →
      Completes i s (fun t => Raises s t lost 0x080 (if base < 2 ^ 57 then 0 else addrVal (s.task.srcG a)))) ∧
    (0 < len → base + len ≤ 2 ^ 57 → s.pieces s.task.place.ctx base (base + len) permW = [(base, len, .error c)] → c ≠ 0x089 →
      s.canTrap → Completes i s (fun t => Raises s t lost c (addrVal (s.task.srcG a)))) ∧
    (0 < len → base + len ≤ 2 ^ 57 →
      s.pieces s.task.place.ctx base (base + len) permW = [(base, len, .ok (s.part.module, ia))] → s.clearPort →
      0x10000000 ≤ ia → ia % len = 0 → s.walk ia = .leaf e at_ → leafSize e = len → e.f 61 59 = 0 →
      (∀ k ∈ copies, s.mem.dramWord k = e) → copies.Pairwise (fun x y => x + 8 ≤ y) →
      Completes i s (fun t =>
        (∀ k ∈ copies, t.mem.dramWord k = e ||| .ofNat 64 (3 * 2 ^ 59)) ∧
        (∀ l, (∀ k ∈ copies, ∀ j < 8, l ≠ .dram (k + j)) → t.mem.rd l = s.mem.rd l) ∧
        t.iss = s.iss ∧ t.task.regs = s.task.regs ∧ t.task.inflight = s.task.inflight))) ∧
  (∀ (s : State) (a b : Src) (ia : Nat),
    let base := (s.task.srcG a).toNat
    let len := (s.task.srcG b).toNat
    let t0 := s.touch [a, b]
    let rec_ (acc : Acc) : RecInfo := ⟨s.unit, 0x082, 7, acc, false, true, 0, s.task.srcG a, s.part.module, ia, 256⟩
    let one (write : Bool) (i : Instr) : Prop :=
      (len = 0 → base < 2 ^ 57 → Completes i s (fun t => t = t0)) ∧
      (0 < len → len ≤ 2 ^ 34 → base + len ≤ 2 ^ 57 →
        s.pieces s.task.place.ctx base (base + len) 0 = [(base, len, .ok (s.part.module, ia))] →
        0x10000000 ≤ ia → ia < 0xFFFF000000000 → ia % 4096 + len ≤ 4096 → s.walk ia = .unmapped →
        Completes i s (fun t => t = t0.record s.task.place.ctx (rec_ (if write then .write else .read))))
    Completes (.pgpref a b) s (fun t => t = { t0 with page := { s.page with cache := t.page.cache } } ∧ (len = 0 → t = t0)) ∧
    (∀ leaf at_, 0 < len → len ≤ 2 ^ 34 → base + len ≤ 2 ^ 57 →
      s.pieces s.task.place.ctx base (base + len) 0 = [(base, len, .ok (s.part.module, ia))] → s.page.cache = [] →
      0x10000000 ≤ ia → ia < 0xFFFF000000000 → ia % 4096 + len ≤ 4096 → s.tableWalk ia = .leaf leaf at_ →
      Completes (.pgpref a b) s (fun t => ∃ c : CachedLeaf, c ∈ t.page.cache ∧ c.leaf = leaf ∧ c.home = s.part.home ia ∧
        c.base ≤ ia ∧ ia < c.base + leafSize leaf)) ∧
    one false (.pgprefRec a b) ∧ one true (.pgprefRecw a b))


/-! ### Vector instructions (R280 to R318) -/

/-- The element-wise instructions of R288 to R290, of every type: where the registers they name are allocated they post, for every
element, the value of the table with its latency; where one is not they raise 0x049 and write nothing. -/
def Obligations.VectorElementResults : Prop :=
  ∀ (s : State) (ty : BitVec 2) (d : Dst) (a b : Src),
    let w := tyWidth ty
    let x := s.task.srcV a
    let y := s.task.srcV b
    let old := s.task.vPhys (s.task.vMap d.reg.toNat)
    let does (i : Instr) (as : List Src) (lam : Nat) (f : Int → Int → Int → Int) : Prop :=
      (s.allocated (d.reg.toNat :: as.flatMap Src.vName) → ∃ r, Elems r w (s.els w) (fun e => f (el old w e) (el x w e) (el y w e)) ∧
        Completes i s (fun t => GivesV s t as d lam r)) ∧
      (¬ s.allocated (d.reg.toNat :: as.flatMap Src.vName) → s.canTrap → Completes i s (fun t => Raises s t false 0x049 0))
    let amt (y : Int) : Nat := (y % 2 ^ w).toNat % w
    let cond (p : Prop) [Decidable p] : Int := if p then -1 else 0
    (does (.vadd ty d a b) [a, b] 1 (fun _ x y => x + y) ∧ does (.vsub ty d a b) [a, b] 1 (fun _ x y => x - y) ∧
      does (.vsadd ty d a b) [a, b] 1 (fun _ x y => sat (x + y) w) ∧ does (.vssub ty d a b) [a, b] 1 (fun _ x y => sat (x - y) w) ∧
      does (.vmul ty d a b) [a, b] 2 (fun _ x y => x * y) ∧ does (.vmulh ty d a b) [a, b] 2 (fun _ x y => x * y / 2 ^ w) ∧
      does (.vmulhQ ty d a b) [a, b] 2 (fun _ x y => sat (rneShift (x * y) (w - 1)) w) ∧
      does (.vmac ty d a b) [a, b] 2 (fun o x y => sat (o + x * y) w) ∧
      does (.vmin ty d a b) [a, b] 1 (fun _ x y => min x y) ∧ does (.vmax ty d a b) [a, b] 1 (fun _ x y => max x y) ∧
      does (.vabs ty d a) [a] 1 (fun _ x _ => sat |x| w) ∧ does (.vneg ty d a) [a] 1 (fun _ x _ => sat (-x) w) ∧
      does (.vshl ty d a b) [a, b] 1 (fun _ x y => x * 2 ^ amt y) ∧
      does (.vshlS ty d a b) [a, b] 1 (fun _ x y => sat (x * 2 ^ amt y) w) ∧
      does (.vshr ty d a b) [a, b] 1 (fun _ x y => x % 2 ^ w / 2 ^ amt y) ∧
      does (.vsra ty d a b) [a, b] 1 (fun _ x y => x / 2 ^ amt y)) ∧
    (does (.vcmp 0 ty d a b) [a, b] 1 (fun _ x y => cond (x = y)) ∧ does (.vcmp 1 ty d a b) [a, b] 1 (fun _ x y => cond (x ≠ y)) ∧
      does (.vcmp 2 ty d a b) [a, b] 1 (fun _ x y => cond (x < y)) ∧ does (.vcmp 3 ty d a b) [a, b] 1 (fun _ x y => cond (x ≤ y)) ∧
      does (.vsel ty d a b) [a, b] 1 (fun o x y => if o = 0 then y else x)) ∧
    (s.allocated (d.reg.toNat :: [a, b].flatMap Src.vName) →
      Completes (.vand ty d a b) s (fun t => GivesV s t [a, b] d 1 (x &&& y)) ∧
      Completes (.vor ty d a b) s (fun t => GivesV s t [a, b] d 1 (x ||| y)) ∧
      Completes (.vxor ty d a b) s (fun t => GivesV s t [a, b] d 1 (x ^^^ y)))

/-- VKOP in its nine forms (R291): lane masks combined, made from a vector or a G register, spread over lanes, read and counted.
VNSHR, VCVT, VWIDEN, VPACK and VUNPK (R292, R293): each element of the result from the elements R292 and R293 name. -/
def Obligations.LaneMaskAndWidthResults : Prop :=
  (∀ (s : State) (d : Dst) (a b : Src),
    let x := s.task.srcK a
    let y := s.task.srcK b
    let kept (m : Word) : Word := .ofNat 64 (m.toNat % 2 ^ s.lanes)
    Completes (.vkopAnd d a b) s (fun t => GivesK s t [a, b] d (kept (x &&& y))) ∧
    Completes (.vkopOr d a b) s (fun t => GivesK s t [a, b] d (kept (x ||| y))) ∧
    Completes (.vkopXor d a b) s (fun t => GivesK s t [a, b] d (kept (x ^^^ y))) ∧
    Completes (.vkopAndn d a b) s (fun t => GivesK s t [a, b] d (kept (x &&& ~~~y))) ∧
    Completes (.vkopFromg d a) s (fun t => GivesK s t [a] d (kept (s.task.srcG a))) ∧
    Completes (.vkopTog d a) s (fun t => GivesG s t [a] d 1 x) ∧
    Completes (.vkopPopc d a) s (fun t => GivesG s t [a] d 1 (.ofNat 64 ((List.range 64).countP x.getLsbD))) ∧
    (s.allocated (Src.vName a) → ∃ m : Word,
      (∀ l < 64, m.getLsbD l = decide (l < s.lanes ∧ el (s.task.srcV a) 32 l ≠ 0)) ∧
      Completes (.vkopFromv d a) s (fun t => GivesK s t [a] d m)) ∧
    (s.allocated [d.reg.toNat] → ∃ r, Elems r 32 s.lanes (fun l => if x.getLsbD l then -1 else 0) ∧
      Completes (.vkopTov d a) s (fun t => GivesV s t [a] d 1 r))) ∧
  (∀ (s : State) (ty q f : BitVec 2) (h u : Bool) (d : Dst) (a b : Src),
    let w := tyWidth ty
    let ws := tyWidth q
    let x := s.task.srcV a
    let y := s.task.srcV b
    let old := s.task.vPhys (s.task.vMap d.reg.toNat)
    let does (i : Instr) (as names : List Src) (wr : Nat) (g : Nat → Int) : Prop :=
      s.allocated (d.reg.toNat :: names.flatMap Src.vName) → ∃ r, Elems r wr (s.els wr) g ∧
        Completes i s (fun t => GivesV s t as d 2 r)
    let m := s.els (2 * w)
    let hm := if h then m else 0
    let sh5 := (s.task.srcG b).toNat % 32
    let sh6 := ((s.task.srcG b).setWidth 6).toInt
    let cvt (x : Int) : Int := sat (if 0 ≤ sh6 then rneShift x sh6.toNat else x * 2 ^ (-sh6).toNat) w
    (ty ≠ 3 →
      does (.vnshr ty h d a b) [a, b] [a] w (fun e => if hm ≤ e ∧ e < hm + m then sat (rneShift (el x (2 * w) (e - hm)) sh5) w else el old w e) ∧
      does (.vwiden ty h u d a) [a] [a] (2 * w) (fun e => if u then (x.extractLsb' (w * (hm + e)) w).toNat else el x w (hm + e)) ∧
      does (.vpack ty d a b) [a, b] [a, b] w (fun e => sat (if e < m then el x (2 * w) e else el y (2 * w) (e - m)) w)) ∧
    does (.vcvt ty q d a b) [a, b] [a] w (fun e => if e < s.els (max w ws) then cvt (el x ws e) else el old w e) ∧
    does (.vunpk f ty d a b) [a, b] [a, b] w (fun e =>
      let k := s.els w / 2
      if f = 0 then (if e < k then el x w (2 * e) else el y w (2 * (e - k)))
      else if f = 1 then (if e < k then el x w (2 * e + 1) else el y w (2 * (e - k) + 1))
      else if f = 2 then (if e % 2 = 0 then el x w (e / 2) else el y w (e / 2))
      else (if e % 2 = 0 then el x w (k + e / 2) else el y w (k + e / 2))))

/-- VSHUF, VPLD, VPSW and VPSW.ALL (R294, R295): VSHUF takes each element from the one its active pattern names, zero beyond the
register, and raises 0x04B without a valid pattern; VPLD posts a loading copy; VPSW and VPSW.ALL post exchanges; suppressed,
they write nothing. -/
def Obligations.ShuffleAndPatternResults : Prop :=
  ∀ (s : State) (ty : BitVec 2) (d : Dst) (a : Src) (p : BitVec 6) (sup : Bool),
    let w := tyWidth ty
    let x := s.task.srcV a
    let pat := s.task.tile.p.get ⟨[], false, [], false⟩ p.toNat
    let posts (t : State) (as : List Src) (no : Bool) (dest : RDest) (img : VReg) : Prop :=
      Posts s t (as.any s.task.lostSrc) (if no then [] else [⟨dest, .ready img, 1, s.iss.pos, s.iss.pc, false⟩]) s.iss.near s.iss.far
    (s.allocated (d.reg.toNat :: Src.vName a) →
      (pat.actOk = true → ∃ r,
        Elems r w (s.els w) (fun e => let j := (pat.act.getD e 0).toNat; if j < s.els w then el x w j else 0) ∧
        Completes (.vshuf ty d a p) s (fun t => GivesV s t [a] d 2 r)) ∧
      (pat.actOk = false → s.canTrap → Completes (.vshuf ty d a p) s (fun t => Raises s t false 0x04B 0))) ∧
    (s.allocated (Src.vName a) → Completes (.vpld d a) s (fun t => posts t [a] d.s (.pLoad d.reg.toNat) x)) ∧
    Completes (.vpsw d) s (fun t => posts t [] d.s (.pSwap d.reg.toNat) 0) ∧
    Completes (.vpswAll sup) s (fun t => posts t [] sup .pSwapAll 0)

/-- The reductions, scans, broadcasts, VEXTR and VMOVI (R296, R297): exact sums saturated once, extremes, prefix sums, one value
for all elements, one element as a scalar; an index beyond the register raises 0x04F.
VLD, VST, VTLD, VTST, VLDR and VSTR (R283, R298, R300): a whole register from and to memory, the tile store, or a physical
register, byte by byte; beyond the task's allocation they raise their causes, at the first byte outside it. A VTST waits for the
task's tile tasks posted before it (R182). -/
def Obligations.ReductionBroadcastAndMoveResults : Prop :=
  (∀ (s : State) (ty : BitVec 2) (d : Dst) (a b : Src) (c : BitVec 16),
    let w := tyWidth ty
    let n := s.els w
    let x := s.task.srcV a
    let xs : List Int := (List.range n).map (el x w)
    let all (i : Instr) (v : Int) : Prop := ∃ r, Elems r 32 s.lanes (fun _ => v) ∧ Completes i s (fun t => GivesV s t [a] d 4 r)
    let idx := (s.task.srcG b).toNat
    (s.allocated (d.reg.toNat :: Src.vName a) →
      all (.vreds ty d a) (sat xs.sum 32) ∧ all (.vredsSq ty d a) (sat (xs.map fun v => v * v).sum 32) ∧
      (∃ v ∈ xs, (∀ u ∈ xs, u ≤ v) ∧ all (.vredmMax ty d a) v) ∧ (∃ v ∈ xs, (∀ u ∈ xs, v ≤ u) ∧ all (.vredmMin ty d a) v) ∧
      (∃ v ∈ xs, (∀ u ∈ xs, |u| ≤ |v|) ∧ all (.vredmAmax ty d a) (sat |v| 32)) ∧
      (∃ r, Elems r w n (fun e => sat (xs.take (e + 1)).sum w) ∧ Completes (.vscan ty d a) s (fun t => GivesV s t [a] d 4 r)) ∧
      (∃ r, Elems r w n (fun e => sat (xs.take e).sum w) ∧ Completes (.vscanEx ty d a) s (fun t => GivesV s t [a] d 4 r)) ∧
      (idx < n → ∃ r, Elems r w n (fun _ => el x w idx) ∧ Completes (.vbcastV ty d a b) s (fun t => GivesV s t [a, b] d 1 r)) ∧
      (n ≤ idx → s.canTrap → Completes (.vbcastV ty d a b) s (fun t => Raises s t false 0x04F 0))) ∧
    (s.allocated [d.reg.toNat] →
      (∃ r, Elems r w n (fun _ => (s.task.srcG a).toNat) ∧ Completes (.vbcast ty d a) s (fun t => GivesV s t [a] d 1 r)) ∧
      (∃ r, Elems r w n (fun _ => c.toInt) ∧ Completes (.vmovi ty d c) s (fun t => GivesV s t [] d 1 r))) ∧
    (s.allocated (Src.vName a) →
      (idx < n → Completes (.vextr ty d a b) s (fun t => GivesG s t [a, b] d 2 (.ofInt 64 (el x w idx)))) ∧
      (n ≤ idx → s.canTrap → Completes (.vextr ty d a b) s (fun t => Raises s t false 0x04F 0)))) ∧
  (∀ (s : State) (d : BitVec 7) (b : BitVec 6) (k : BitVec 4) (off : BitVec 16) (dd : Dst) (a v : Src) (sup : Bool) (ls : List Loc),
    let n := if s.inRetr then 64 else 256
    let va := s.task.gReg b.toNat + (.ofNat 64 n) * off.signExtend 64
    let at0 : Int := (s.task.gReg b.toNat).toNat + 256 * off.toInt
    let ta := at0.toNat
    let inside (j : Nat) : Prop := 0 ≤ at0 + j ∧ at0 + j < 0x80000 ∧ bit s.task.place.groups ((at0 + j).toNat / 0x10000) = true
    let c := s.coreAt s.iss.core
    let kern := s.task.place.kernel
    let reg := s.task.vPhys (s.task.vMap d.toNat)
    let byteOf (x : VReg) (i : Nat) : Byte := x.extractLsb' (8 * i) 8
    let dest := RDest.v (s.task.vMap d.toNat)
    let i := (s.task.srcG a).toNat
    (s.allocated [d.toNat] → s.toSram k.toNat = false → s.clearPort → ls.length = n →
      (s.spans va .read ls → (∀ l ∈ ls, s.mem.bad l = false) → ∃ r, (∀ j < n, byteOf r j = s.mem.rd (ls.getD j (.ring 0))) ∧
        Completes (.vld d b k off) s (fun t => Reads s t 1 [⟨dest, .ready r, 32, s.iss.pos, s.iss.pc, false⟩] s.iss.near s.iss.far
          (hoistsLeft s s.task.hoist va n k.toNat false))) ∧
      (ls.Nodup → s.spans va .write ls → Completes (.vst d b k off) s (fun t =>
        Writes s t 0 [] ls ((List.range n).map (byteOf reg)) (hoistsLeft t s.task.hoist va n k.toNat true)))) ∧
    (s.allocated [d.toNat] →
      ((∀ j < 256, inside j) →
        ((∀ w ∈ c.rawSt, w.slot ≠ s.iss.slot ∨ w.kernel ≠ kern) →
          ∃ r, (∀ j < 256, byteOf r j = c.tileMem.get 0 (ta + j)) ∧ Completes (.vtld d b off) s (fun t =>
            Posts s t false [⟨dest, .ready r, 8, s.iss.pos, s.iss.pc, false⟩] s.iss.near s.iss.far)) ∧
        ((∀ ed ∈ c.deps, ed.2.slot ≠ s.iss.slot ∨ ed.2.kernel ≠ kern) →
          Completes (.vtst d b off) s (fun t => t = s.setCoreAt s.iss.core (t.coreAt s.iss.core) ∧
            (∀ j, (t.coreAt s.iss.core).tileMem.get 0 j = if ta ≤ j ∧ j < ta + 256 then byteOf reg (j - ta) else c.tileMem.get 0 j) ∧
            ∀ l, t.mem.rd l = s.mem.rd l)) ∧
        (∀ ed ∈ c.deps, ed.2.slot = s.iss.slot → ed.2.kernel = kern → ed.2.seq < c.depSeq → ed.2.stat = .waiting →
          Completes (.vtst d b off) s (fun t => t = s.setCoreAt s.iss.core
            { c with rawSt := c.rawSt ++ [⟨s.iss.slot, kern, c.depSeq, ta, (List.range 256).map (byteOf reg)⟩] }))) ∧
      (∀ j < 256, ¬ inside j → (∀ i < j, inside i) → s.canTrap →
        Completes (.vtld d b off) s (fun t => Raises s t false 0x08D (addrVal (.ofInt 64 (at0 + j)))) ∧
        Completes (.vtst d b off) s (fun t => Raises s t false 0x08D (addrVal (.ofInt 64 (at0 + j)))))) ∧
    (s.allocated [dd.reg.toNat] →
      (i < s.task.place.vregs → Completes (.vldr dd a) s (fun t => GivesV s t [a] dd 2 (s.task.vPhys i))) ∧
      (s.task.place.vregs ≤ i → s.canTrap → Completes (.vldr dd a) s (fun t => Raises s t false 0x04A 0))) ∧
    (s.allocated (Src.vName v) → i < s.task.place.vregs →
      Completes (.vstr sup a v) s (fun t => Gives s t [a, v] (.v i) sup 1 (s.task.srcV v))))

/-- VGATH and VSCAT (R299): every lane of VGATH reads its element, extended to 32 bits, with latency 48; every lane of VSCAT writes the
low bits of its lane; a misaligned lowest lane of VGATH raises 0x08C with its address. -/
def Obligations.GatherAndScatterResults : Prop :=
  ∀ (s : State) (u : Bool) (ty : BitVec 2) (d : Dst) (a b : Src) (ls : Nat → List Loc),
    let w := tyWidth ty
    let n := w / 8
    let va (l : Nat) : Word := s.task.srcG b + .ofInt 64 (el (s.task.srcV a) 32 l)
    let lanes := List.range s.lanes
    let all := lanes.flatMap ls
    let old := s.task.vPhys (s.task.vMap d.reg.toNat)
    let val (l : Nat) : Int := if u then s.bytesAt (ls l) else (BitVec.ofNat w (s.bytesAt (ls l))).toInt
    let dest := if d.s then RDest.none else .v (s.task.vMap d.reg.toNat)
    let s' := s.touch [a, b]
    ty ≠ 0 → s.allocated (d.reg.toNat :: Src.vName a) →
    ((va 0).toNat % n ≠ 0 → s.canTrap → Completes (.vgath u ty d a b) s (fun t =>
      Raises s t ([a, b].any s.task.lostSrc) 0x08C (addrVal (va 0)))) ∧
    (s.clearPort → (∀ l < s.lanes, (va l).toNat % n = 0 ∧ (ls l).length = n) →
      ((∀ l < s.lanes, s.spans (va l) .read (ls l) ∧ ∀ p ∈ ls l, s.mem.bad p = false) →
        ∃ r, Elems r 32 s.lanes val ∧ Completes (.vgath u ty d a b) s (fun t =>
          Reads s' t 1 [⟨dest, .ready r, 48, s.iss.pos, s.iss.pc, false⟩] s.iss.near s.iss.far
            (lanes.foldl (fun hs l => hoistsLeft s hs (va l) n 0 false) s.task.hoist))) ∧
      (all.Nodup → (∀ l < s.lanes, s.spansAway (va l) .write (ls l) all) →
        Completes (.vscat ty d a b) s (fun t => ∃ hs, Writes s' t 0 [] all
          (lanes.flatMap fun l => (List.range n).map fun j => old.extractLsb' (32 * l + 8 * j) 8) hs)))

/-- VDEFER (R302, R303): registers beyond V127 or the allocation raise 0x049; a count above 1,024 raises 0x122; otherwise each lane
of the mask writes one 32-byte entry, its lane number and its elements, and the kennel's count grows by the lanes.
VDRAIN (R302, R303): the last entries of a kennel, at most 64, give the registers their elements with latency 32, zero beyond
them, and K(k) the mask of the lanes; the count falls by as many. -/
def Obligations.KennelResults : Prop :=
  (∀ (s : State) (c : BitVec 3) (q : BitVec 2) (sup : Bool) (a b : Src) (ls : Nat → List Loc),
    let k := s.task.srcK b
    let cnt := s.task.csr.kcount q.toNat
    let on := (List.range 64).filter fun l => k.getLsbD l
    let idx := List.range on.length
    let all := idx.flatMap ls
    let va (j : Nat) : Word := s.task.csr.kenbase + .ofNat 64 (32768 * q.toNat + 32 * (cnt + j))
    let bytes (x : BitVec 32) : List Byte := (List.range 4).map fun i => x.extractLsb' (8 * i) 8
    let vs : List VReg := if a.l then [s.task.srcV a] else (List.range c.toNat).map fun i => s.task.vPhys (s.task.vMap (a.reg.toNat + i))
    let words (l : Nat) : List (BitVec 32) :=
      .ofNat 32 l :: vs.map fun v => v.extractLsb' (32 * l) 32
    let inRange : Prop := a.l = false → ∀ n < c.toNat, a.reg.toNat + n < 128 ∧ s.task.vOk (a.reg.toNat + n) = true
    let i := Instr.vdefer c q sup a b
    (¬ inRange → s.canTrap → Completes i s (fun t => Raises s t false 0x049 0)) ∧
    (inRange →
      (1024 < cnt + on.length → s.canTrap → Completes i s (fun t => Raises s t false 0x122 0)) ∧
      (cnt + on.length ≤ 1024 → s.clearPort → all.Nodup → (∀ j < on.length, (ls j).length = 32 ∧ s.spansAway (va j) .write (ls j) all) →
        Completes i s (fun t =>
          (∀ j < on.length, (ls j).map t.mem.rd = (words (on.getD j 0)).flatMap bytes ++ List.replicate (28 - 4 * vs.length) 0) ∧
          (∀ p, p ∉ all → t.mem.rd p = s.mem.rd p) ∧ t.iss = s.iss ∧ t.task.regs = s.task.regs ∧
          t.task.inflight = s.task.inflight ∧ t.task.csr.kcount q.toNat = cnt + on.length ∧
          ∀ p < 4, p ≠ q.toNat → t.task.csr.kcount p = s.task.csr.kcount p)))) ∧
  (∀ (s : State) (c : BitVec 3) (q : BitVec 2) (d : Dst) (k : BitVec 3) (ls : List Loc),
    let cnt := s.task.csr.kcount q.toNat
    let m := min 64 cnt
    let va := s.task.csr.kenbase + .ofNat 64 (32768 * q.toNat + 32 * (cnt - m))
    let word (l i : Nat) : BitVec 32 := .ofNat 32 (s.bytesAt ((ls.drop (32 * l + 4 * i)).take 4))
    let i := Instr.vdrain c q d k
    (∀ n ≤ c.toNat, d.reg.toNat + n < 128 ∧ s.task.vOk (d.reg.toNat + n) = true) → s.clearPort →
    ls.length = 32 * m → s.spans va .read ls → (∀ p ∈ ls, s.mem.bad p = false) →
    ∃ r : Nat → VReg, (∀ j ≤ c.toNat, ∀ l < 64, (r j).extractLsb' (32 * l) 32 = if l < m then word l j else 0) ∧
      Completes i s (fun t => t.iss = s.iss ∧ (∀ p, t.mem.rd p = s.mem.rd p) ∧ t.task.regs = s.task.regs ∧
        t.task.csr.kcount q.toNat = cnt - m ∧ (∀ p < 4, p ≠ q.toNat → t.task.csr.kcount p = s.task.csr.kcount p) ∧
        t.task.inflight = s.task.inflight ++ (if d.s then [] else (List.range (c.toNat + 1)).map fun j =>
            ⟨.v (s.task.vMap (d.reg.toNat + j)), .ready (r j), 32, s.iss.pos, s.iss.pc, false⟩)
          ++ [⟨.k k.toNat, .ready (.ofNat 2048 (2 ^ m - 1)), 32, s.iss.pos, s.iss.pc, false⟩]))

/-- The noise stream at NOISECTL.MODE 0 (R32, R33, R305, R350): NOISE, VRNDS and VRNDS.NAR take the next words of the source, whatever
they are, in element order, and leave NOISEPOS.
The noise log (R34, R35): MODE 1 stores the words it draws at NOISEBASE + 2 * POS and advances POS; MODE 2 reads them from there;
beyond LEN they raise 0x0C5 and 0x0C4 with nothing drawn. -/
def Obligations.NoiseResults : Prop :=
  (∀ (s : State) (ty : BitVec 2) (h : Bool) (d : Dst) (a b : Src) (x : BitVec 6) (c : BitVec 2),
    let w := tyWidth ty
    let word (i : Nat) : BitVec 16 := Config.noiseWord (s.free + i)
    let sh := (s.task.srcG b).toNat % 32
    let v := s.task.srcV a
    let old := s.task.vPhys (s.task.vMap d.reg.toNat)
    let m := s.els (2 * w)
    let hm := if h then m else 0
    s.task.csr.noisectl.f 1 0 = 0 →
    Completes (.noise x c) s (fun t => Gives (s.withFree (s.free + (c.toNat + 1))) t [] (.g x.toNat) (x == 0) 2
      (.ofNat 2048 (((List.range (c.toNat + 1)).map fun i => (word i).toNat * 2 ^ (16 * i)).sum))) ∧
    (s.allocated (d.reg.toNat :: Src.vName a) →
      (∃ r, Elems r w (s.els w) (fun e => sat (stoShift (el v w e) sh (word e).toNat) w) ∧
        Completes (.vrnds ty d a b) s (fun t => GivesV (s.withFree (s.free + s.els w)) t [a, b] d 2 r)) ∧
      (ty ≠ 3 → ∃ r, Elems r w (s.els w) (fun e =>
          if hm ≤ e ∧ e < hm + m then sat (stoShift (el v (2 * w) (e - hm)) sh (word (e - hm)).toNat) w else el old w e) ∧
        Completes (.vrndsNar ty h d a b) s (fun t => GivesV (s.withFree (s.free + m)) t [a, b] d 2 r)))) ∧
  (∀ (s : State) (x : BitVec 6) (c : BitVec 2) (ls : List Loc),
    let n := c.toNat + 1
    let pos := s.task.csr.noisepos
    let va := s.task.csr.noisebase + .ofNat 64 (2 * pos.toNat)
    let word (i : Nat) : BitVec 16 := Config.noiseWord (s.free + i)
    let bytes := (List.range n).flatMap fun i => [(word i).extractLsb' 0 8, (word i).extractLsb' 8 8]
    let i := Instr.noise x c
    let past : Prop := s.task.csr.noiselen.toNat < pos.toNat + n
    (s.task.csr.noisectl.f 1 0 = 1 → past → s.canTrap → Completes i s (fun t => Raises s t false 0x0C5 0)) ∧
    (s.task.csr.noisectl.f 1 0 = 2 → past → s.canTrap → Completes i s (fun t => Raises s t false 0x0C4 0)) ∧
    (¬ past → s.clearPort → ls.length = 2 * n → ls.Nodup →
      (s.task.csr.noisectl.f 1 0 = 1 → s.spans va .write ls → Completes i s (fun t =>
        ls.map t.mem.rd = bytes ∧ (∀ p, p ∉ ls → t.mem.rd p = s.mem.rd p) ∧ t.free = s.free + n ∧
        t.task.csr.noisepos = pos + .ofNat 64 n ∧ t.task.regs = s.task.regs ∧
        t.task.inflight = s.task.inflight ++ (if x = 0 then [] else
          [⟨.g x.toNat, .ready (.ofNat 2048 (ofBytes bytes)), 2, s.iss.pos, s.iss.pc, false⟩]))) ∧
      (s.task.csr.noisectl.f 1 0 = 2 → s.spans va .read ls →
        (∀ p ∈ ls, s.mem.bad p = false) → Completes i s (fun t =>
        (∀ p, t.mem.rd p = s.mem.rd p) ∧ t.free = s.free ∧ t.task.csr.noisepos = pos + .ofNat 64 n ∧ t.task.regs = s.task.regs ∧
        t.task.inflight = s.task.inflight ++ (if x = 0 then [] else
          [⟨.g x.toNat, .ready (.ofNat 2048 (s.bytesAt ls)), 2, s.iss.pos, s.iss.pc, false⟩])))))

/-- The saturation, shift and headroom helpers meet the definitions of R40 to R43: sat clamps to the signed range; tz_shift is the
quotient toward zero; rne_shift is a nearest multiple, even on a tie; sto_shift adds the noise word's aligned bits before it
floors; rsb counts the bits below the top that equal it.
VCLS, VCLS.MIN and the exact routines VEXP2, VEXP2.Q, VLOG2, VRCP, VRSQ and VDIVQ (R304 to R310): for every lane the value its
rule defines, over the tables T and L; the reciprocal root is the greatest integer whose square times the mantissa stays in
2^62. -/
def Obligations.NumericHelpersAndExactRoutines : Prop :=
  ((∀ (x : Int) (w : Nat), 0 < w → sat x w = if x < -2 ^ (w - 1) then -2 ^ (w - 1) else if 2 ^ (w - 1) - 1 < x then 2 ^ (w - 1) - 1 else x) ∧
  (∀ (x : Int) (n : Nat), tzShift x n = if 0 ≤ x then x / 2 ^ n else -(-x / 2 ^ n)) ∧
  (∀ (x : Int) (n : Nat), 2 * |x - rneShift x n * 2 ^ n| ≤ 2 ^ n ∧
    (2 * |x - rneShift x n * 2 ^ n| = 2 ^ n → 0 < n → rneShift x n % 2 = 0)) ∧
  (∀ (x : Int) (n k : Nat), k < 2 ^ 16 → stoShift x 0 k = x ∧
    (0 < n → n ≤ 16 → stoShift x n k = (x + (k / 2 ^ (16 - n) : Nat)) / 2 ^ n) ∧
    (16 < n → stoShift x n k = (x + (k * 2 ^ (n - 16) : Nat)) / 2 ^ n)) ∧
  ∀ (w : Nat) (y : BitVec w), 0 < w → rsb y.toInt w ≤ w - 1 ∧
    (∀ i < rsb y.toInt w, y.getLsbD (w - 2 - i) = y.getLsbD (w - 1)) ∧
    (rsb y.toInt w < w - 1 → y.getLsbD (w - 2 - rsb y.toInt w) ≠ y.getLsbD (w - 1))) ∧
  (∀ (s : State) (ty : BitVec 2) (d : Dst) (a b : Src),
    let w := tyWidth ty
    let v := s.task.srcV a
    let y := s.task.srcV b
    let f := (s.task.srcG b).toNat % 32
    let lanes (i : Instr) (as names : List Src) (lam : Nat) (g : Nat → Int → Prop) : Prop :=
      s.allocated (d.reg.toNat :: names.flatMap Src.vName) → ∃ r, (∀ l < s.lanes, g l (el r 32 l)) ∧
        Completes i s (fun t => GivesV s t as d lam r)
    let nn (l : Nat) : Int := el v 32 l / 2 ^ f
    let fr (l : Nat) : Nat := (el v 32 l % 2 ^ f).toNat
    let man (l : Nat) : Nat :=
      let i := fr l * 64 / 2 ^ f
      let low := if 6 ≤ f then fr l % 2 ^ (f - 6) else 0
      tabT.getD i 0 + (tabT.getD (i + 1) 0 - tabT.getD i 0) * low / 2 ^ (f - 6)
    let root (m : Nat) (r : Int) : Prop := 0 ≤ r ∧ r * r * m ≤ 2 ^ 62 ∧ 2 ^ 62 < (r + 1) * (r + 1) * m
    (s.allocated (d.reg.toNat :: Src.vName a) →
      (∃ r, Elems r w (s.els w) (fun e => rsb (el v w e) w) ∧ Completes (.vcls ty d a) s (fun t => GivesV s t [a] d 2 r)) ∧
      ∃ r : VReg, ∃ m < s.els w, (∀ e < s.els w, rsb (el v w m) w ≤ rsb (el v w e) w) ∧
        (∀ l < s.lanes, el r 32 l = rsb (el v w m) w) ∧ Completes (.vclsMin ty d a) s (fun t => GivesV s t [a] d 4 r)) ∧
    lanes (.vexp2 d a b) [a, b] [a] 4 (fun l r => r = sat (nn l) 16 * 2 ^ 16 + man l) ∧
    lanes (.vexp2Q d a b) [a, b] [a] 4 (fun l r =>
      r = if 0 ≤ nn l then sat (man l * 2 ^ (nn l).toNat) 32 else rneShift (man l) (-nn l).toNat) ∧
    lanes (.vlog2 d a b) [a, b] [a] 4 (fun l r => if el v 32 l ≤ 0 then r = -2 ^ 31 else
      let x := (el v 32 l).toNat
      let p := 30 - rsb (el v 32 l) 32
      let u := x * 2 ^ 15 / 2 ^ p - 2 ^ 15
      let fr := tabL.getD (u / 512) 0 + (tabL.getD (u / 512 + 1) 0 - tabL.getD (u / 512) 0) * (u % 512) / 512
      2 ^ p ≤ x ∧ x < 2 ^ (p + 1) ∧ r = rneShift (p * 2 ^ 16 + fr) (16 - min f 16)) ∧
    lanes (.vrcp d a) [a] [a] 6 (fun l r => if el v 32 l ≤ 0 then r = 0 else
      r = min (2 ^ 61 / (el v 32 l * 2 ^ rsb (el v 32 l) 32)) (2 ^ 31 - 1)) ∧
    lanes (.vrsq d a) [a] [a] 6 (fun l r => if el v 32 l ≤ 0 then r = 0 else
      root ((el v 32 l).toNat * 2 ^ (rsb (el v 32 l) 32 / 2 * 2)) r) ∧
    lanes (.vdivq d a b) [a, b] [a, b] 8 (fun l r => if el y 32 l = 0 then r = (if 0 ≤ el v 32 l then 2 ^ 31 - 1 else -2 ^ 31) else
      r = sat (Int.fdiv (el v 32 l * 2 ^ 15) (el y 32 l)) 32))


/-! ### Packets, launches and barriers (R150 to R199, R384 to R393) -/

/-- The threads of a retriever (R387, R390): RTCTL.EN = 1 starts a thread that is not enabled at RTENTRY with every register
cleared; EN = 0 stops it and drops what it awaits; its inbox stays. In BOOTFAIL or ERROR RTCTL does neither (log 71).
The packet instructions (R392, R393): PKGET gives 0 for an empty inbox, else copies the oldest packet to SRAM and gives its kind,
length and number; PKREPLY, PKFWD and PKDONE act on the packet named and take it out of the inbox: the reply or the refusal of a
REMOP from another module leaves as an acknowledgement; one that is not there raises 0x055. -/
def Obligations.RetrieverThreadsAndPackets : Prop :=
  (∀ (s : State) (r : BitVec 4) (t : BitVec 3),
    let x := s.rtAt r.toNat t.toNat
    let may : Prop := s.modstat.phase ≠ 1 ∧ s.modstat.phase ≠ 5
    let real : Prop := may ∧ t ≠ 0 ∧ r.toNat < s.part.memch / 8
    let at_ (u : State) : Task := u.taskAt (1024 + r.toNat) t.toNat
    let others (u : State) : Prop := ∀ k, k ≠ taskKey (1024 + r.toNat) t.toNat → u.tasks.get .empty k = s.tasks.get .empty k
    (real → x.ctl.b 63 = false → Completes (.rtThreadStart r t) s (fun u =>
      u.rtAt r.toNat t.toNat = { x with ctl := x.ctl.setF 63 63 1, stat := 1, cause := 0 } ∧
      (at_ u).stat = .ready ∧ (at_ u).pc = x.entry &&& .ofNat 64 (maskF 56 4) ∧ (at_ u).place.ctx = x.ctl.f 3 0 ∧
      (at_ u).place.vregs = 64 ∧ (∀ n, (at_ u).gReg n = 0 ∧ (at_ u).kReg n = 0 ∧ (at_ u).vPhys n = 0) ∧ (at_ u).inflight = [] ∧
      (at_ u).loops = [] ∧ others u ∧ u.mem = s.mem)) ∧
    (¬ real ∨ x.ctl.b 63 = true → Completes (.rtThreadStart r t) s (fun u => u = s)) ∧
    (may → t ≠ 0 → x.ctl.b 63 = true → Completes (.rtThreadStop r t) s (fun u =>
      u.rtAt r.toNat t.toNat = { x with ctl := x.ctl.setF 63 63 0, stat := 0 } ∧ at_ u = .empty ∧ others u ∧ u.mem = s.mem ∧
      ∀ h ∈ u.held, h ∈ s.held ∧ h.unit ≠ .retr r.toNat t.toNat)) ∧
    (¬ may ∨ t = 0 ∨ x.ctl.b 63 = false → Completes (.rtThreadStop r t) s (fun u => u = s))) ∧
  (∀ (s : State) (d : Dst) (a b : Src) (p : RPkt) (rest : List RPkt),
    let lost := [a, b].any s.task.lostSrc
    let at_ := (s.task.srcG a).toNat % 2 ^ 18
    let atB := (s.task.srcG b).toNat % 2 ^ 18
    let byte (m : Tab Byte) (j : Nat) : Byte := m.get 0 ((s.iss.core - 1024) * 2 ^ 18 + j)
    let named : Option RPkt := s.rt.inbox.find? fun q => q.id == (s.task.srcG a).f 31 0
    let k := (s.task.srcG b).f 3 0
    let other := s.rtAt k 0
    let c := (s.task.srcG b).f 8 0
    (s.rt.inbox = [] → Completes (.pkget d a) s (fun t => GivesG s t [a] d 4 0)) ∧
    (s.rt.inbox = p :: rest → (s.task.srcG a).toNat % 32 ≠ 0 → s.canTrap →
      Completes (.pkget d a) s (fun t => Raises s t ([a].any s.task.lostSrc) 0x08C (addrVal (s.task.srcG a)))) ∧
    (s.rt.inbox = p :: rest → p.remop = false → (s.task.srcG a).toNat % 32 = 0 → s.inShare at_ 32 = true →
      s.iss.slotRaised = false →
      Completes (.pkget d a) s (fun t =>
        GivesG ((s.withSram t.rsram).setTask { s.task with hoist := s.task.hoist.filter fun eh =>
          !(s.sramHoist eh.2 && eh.2.addr.toNat % 2 ^ 18 < at_ + 32 && at_ < eh.2.addr.toNat % 2 ^ 18 + eh.2.size) }) t [a] d 4 (.ofNat 64 (2 ^ 60 + 32 * 2 ^ 32 + p.id)) ∧
        (List.range 32).map (fun j => byte t.rsram (at_ + j)) = toBytes 8 (2 ^ 60 + p.src * 2 ^ 48 + p.unit % 2 ^ 10 * 2 ^ 38 +
          p.unitk % 2 ^ 4 * 2 ^ 34 + p.id) ++ toBytes 8 p.old.toNat ++ toBytes 8 p.new.toNat ++ toBytes 8 p.count ∧
        ∀ n, (∀ j < 32, n ≠ (s.iss.core - 1024) * 2 ^ 18 + at_ + j) → t.rsram.get 0 n = s.rsram.get 0 n)) ∧
    (named = none → s.canTrap → ∀ i ∈ [Instr.pkreply a b, .pkfwd a b, .pkdone a b],
      Completes i s (fun t => Raises s t lost 0x055 0)) ∧
    (named = some p → p.remop = true → p.held = none → (s.task.srcG b).toNat % 32 = 0 → s.inShare atB 40 = true →
      Completes (.pkreply a b) s (fun t => t.rt.inbox = s.rt.inbox.erase p ∧ t.task.regs = s.task.regs ∧
        t.outq = s.outq ++ [ackPkt s.part.module p.src p.seq ((List.range 40).map fun j => byte s.rsram (atB + j)) 0 0 false] ∧
        ∀ l, t.mem.rd l = s.mem.rd l)) ∧
    (named = some p → p.remop = true → k < s.part.retrievers → 1024 ≤ s.iss.core → 1024 + k ≠ s.iss.core → s.iss.slot < 8 →
      Completes (.pkfwd a b) s (fun t => t.rt.inbox = s.rt.inbox.erase p ∧
        (∃ n, (∀ q ∈ other.inbox, q.id ≠ n) ∧ t.rtAt k 0 = { other with inbox := other.inbox ++ [{ p with id := n }] }) ∧
        t.tasks = (s.touch [a, b]).tasks ∧ ∀ l, t.mem.rd l = s.mem.rd l)) ∧
    (named = some p → p.remop = true → s.part.retrievers ≤ k ∨ 1024 + k = s.iss.core → s.canTrap →
      Completes (.pkfwd a b) s (fun t => Raises s t lost 0x055 0)) ∧
    (named = some p → p.remop = true → p.held = none → Completes (.pkdone a b) s (fun t =>
      t.rt.inbox = s.rt.inbox.erase p ∧ t.tasks = (s.touch [a, b]).tasks ∧
      t.outq = s.outq ++ [ackPkt s.part.module p.src p.seq [] (if c = 0x055 ∨ c = 0x083 ∨ c = 0x08C then c else 0x089) 0 false] ∧
      ∀ l, t.mem.rd l = s.mem.rd l)) ∧
    (named = some p → p.remop = false →
      (c = 0 → Completes (.pkdone a b) s (fun t =>
        t = (s.touch [a, b]).setRt (s.iss.core - 1024) s.iss.slot { s.rt with inbox := s.rt.inbox.erase p })) ∧
      (c ≠ 0 → s.canTrap → Completes (.pkdone a b) s (fun t => Raises s t lost 0x055 0))))

/-- LAUNCH and LAUNCH.W (R154 to R157): at level 3 they raise 0x115; a record that can be read goes to the launch scheduler; LAUNCH
awaits its predicate, LAUNCH.W sleeps.
The barrier instructions (R167, R189 to R197): a selector outside the kernel raises 0x116; BARINIT arms an entry with the next
phase, or raises 0x124 or 0x126; BARARR sends an arrival and awaits its phase; BARWAIT goes on, sleeps, takes 0x123 or raises
0x125; BARWAIT.A sends an arrival and sleeps; BARQ gives the status word. -/
def Obligations.LaunchAndBarrierInstructionResults : Prop :=
  (∀ (s : State) (a : BitVec 6) (d : BitVec 4) (ls : List Loc),
    let va := s.task.gReg a.toNat
    let words := s.wordsAt ls 20
    let req (park : Bool) : LaunchReq :=
      ⟨s.iss.core, s.iss.slot, s.task.place.kernel, s.task.place.ctx, s.task.place.level, words, va, park, s.nextId, s.iss.pos,
        s.iss.pc, s.cycle.toNat + launchPath, false⟩
    (s.task.place.level = 3 → s.canTrap → ∀ i ∈ [Instr.launch a d, .launchW a d], Completes i s (fun t => Raises s t false 0x115 0)) ∧
    (s.task.place.level ≠ 3 → s.clearPort → ls.length = 160 → s.spans va .read ls → (∀ l ∈ ls, s.mem.bad l = false) →
      Completes (.launch a d) s (fun t => t.launches = s.launches ++ [req false] ∧ t.iss = s.iss ∧
        t.task = { s.task with
          inflight := s.task.inflight ++ [⟨.q d.toNat, .await s.nextId, 96, s.iss.pos, s.iss.pc, false⟩]
          hoist := hoistsLeft s s.task.hoist va 160 0 false } ∧ ∀ l, t.mem.rd l = s.mem.rd l) ∧
      Completes (.launchW a d) s (fun t => t.launches = s.launches ++ [req true] ∧
        t.task = { s.task with hoist := hoistsLeft s s.task.hoist va 160 0 false } ∧
        t.iss = { s.iss with act := .sleep (.launch s.nextId d.toNat) } ∧ ∀ l, t.mem.rd l = s.mem.rd l))) ∧
  (∀ (s : State) (a b d : BitVec 6) (n : BitVec 9),
    let g := (s.task.gReg a.toNat).f 14 0
    let p := s.task.gReg b.toNat
    let home := g / 2 ^ 10 + 32 * (g / 2 ^ 6 % 16)
    let e := (s.coreAt home).bars.get .zero n.toNat
    let tv : Word := .ofNat 64 (n.toNat + g * 2 ^ 16)
    let ok := selects g s.task.place.geom
    let size := 16 * (2 ^ (g / 8 % 8) * 2 ^ (g % 8))
    let usable := e.stat ≠ .idle ∧ e.owner = s.task.place.kernel ∧ e.group = g
    let arr (id : Option Nat) (wait : Bool) : Arrival :=
      ⟨home, n.toNat, s.iss.core, s.iss.slot, s.task.place.kernel, g, id, wait, s.nextId, none⟩
    let num (x : BarStat) : Nat := match x with | .idle => 0 | .armed => 1 | .waiting => 2 | .released => 3 | .broken => 4
    let fails (i : Instr) (cause lam : Nat) : Prop := Completes i s (fun t => if home = s.iss.core then Raises s t false cause tv
      else Posts s t false [⟨.none, .late cause tv, lam, s.iss.pos, s.iss.pc, false⟩] s.iss.near s.iss.far)
    (¬ ok → s.canTrap → ∀ i ∈ [Instr.barinit a b n, .bararr a d n, .barwait a b n, .barwaitA a n, .barq a d n],
      Completes i s (fun t => Raises s t false 0x116 0)) ∧
    (ok →
      (e.stat ≠ .idle → e.owner ≠ s.task.place.kernel ∨ e.stat = .waiting → s.canTrap →
        fails (.barinit a b n) 0x124 1) ∧
      (e.stat = .idle ∨ (e.owner = s.task.place.kernel ∧ e.stat ≠ .waiting) →
        (p.f 13 0 = 0 ∨ size < p.f 13 0 → s.canTrap → Completes (.barinit a b n) s (fun t => Raises s t false 0x126 tv)) ∧
        (0 < p.f 13 0 → p.f 13 0 ≤ size → Completes (.barinit a b n) s (fun t =>
          (t.coreAt home).bars.get .zero n.toNat = ⟨.armed, s.task.place.kernel, (e.gen + 1) % 2 ^ 16, p.f 13 0, 0, g, p.f 23 16, 0, [],
            s.cycle.toNat, some s.cycle.toNat⟩ ∧
          (∀ m, m ≠ n.toNat → (t.coreAt home).bars.get .zero m = (s.coreAt home).bars.get .zero m) ∧ t.iss = s.iss ∧
          (∀ c, c ≠ home → t.coreAt c = s.coreAt c) ∧ ∀ l, t.mem.rd l = s.mem.rd l))) ∧
      (usable → Completes (.bararr a d n) s (fun t => t.arrivals = s.arrivals ++ [arr (some s.nextId) false] ∧
        t.task = { s.task with inflight := s.task.inflight ++ [⟨gDest d, .await s.nextId, 48, s.iss.pos, s.iss.pc, false⟩] } ∧
        t.iss = s.iss ∧ t.cores = s.cores)) ∧
      (usable → Completes (.barwaitA a n) s (fun t => t.arrivals = s.arrivals ++ [arr none true] ∧ t.tasks = s.tasks ∧
        t.iss = { s.iss with act := .sleep (.barrier home n.toNat (2 ^ 16)) })) ∧
      (¬ usable → s.canTrap → fails (.barwait a b n) 0x125 1 ∧ fails (.barwaitA a n) 0x125 1 ∧ fails (.bararr a d n) 0x125 48 ∧
        fails (.barq a d n) 0x125 48) ∧
      (usable →
        (e.stat = .broken → Completes (.barwait a b n) s (fun t => t = s.setTask { s.task with
          events := s.task.events ++ [⟨0x123, tv⟩], woke := !s.task.inTrap, waitPc := s.iss.pc })) ∧
        (e.stat ≠ .broken → e.gen ≠ p.f 15 0 → Completes (.barwait a b n) s (fun t => t = s)) ∧
        (e.stat ≠ .broken → e.gen = p.f 15 0 → Completes (.barwait a b n) s (fun t =>
          t = s.withIss { s.iss with act := .sleep (.barrier home n.toNat e.gen) })) ∧
        Completes (.barq a d n) s (fun t => Posts s t false [⟨gDest d, .ready (.ofNat 2048 ((num e.stat * 2 ^ 61 + e.reason * 2 ^ 59 +
          e.arrived % 2 ^ 14 * 2 ^ 45 + e.count * 2 ^ 31 + e.group * 2 ^ 16 + e.gen) % 2 ^ 64)), 48, s.iss.pos, s.iss.pc, false⟩]
          s.iss.near s.iss.far))))


/-! ### Tile instructions (R319 to R350) -/

/-- The matrix instructions are posted where their operands meet R325 to R340: two valid tiles of dimension 1 and of one type of at most
16 bits, shapes that agree, no shared bank group, offsets in the tile store (R327, R328, R338 to R340), and an accumulator of the
task. A posted task changes no register.
TACC, TZERO, TDRAIN, TRESC, TCONJ and ALGLD in their forms (R332 to R335, R337, R339) are posted where their operands agree; the
accumulating ones reserve a noise word for every element, in order (R33, R331). -/
def Obligations.TileTasksArePosted : Prop :=
  (∀ (s : State) (x : BitVec 5) (y z : BitVec 6) (n : BitVec 2),
    let t := s.task
    let a := t.tdesc y.toNat
    let b := t.tdesc z.toNat
    let sd := t.tdesc b.side
    let ea := t.tile.e.get 0 y.toNat
    let eb := t.tile.e.get 0 z.toNat
    let es := t.tile.e.get 0 b.side
    let slot := s.slotDim n.toNat
    let posts (i : Instr) : Prop := Completes i s (fun t => PostsTask s t false i [] [] [] 0 0 (fun _ => []) s.iss.far)
    let tile (d : TDesc) (e : Word) : Prop := d.valid = true ∧ d.offBad e = false ∧ d.ty ≤ 2
    let pair : Prop := tile a ea ∧ tile b eb ∧ b.ty = a.ty ∧ sharesBank a b = false ∧ a.rows = 32 ∧ b.rows = a.cols ∧ a.oen = false ∧
      colv ea = false ∧ rowv eb = false
    let depth := 256 / (if a.ty = 0 then 1 else if a.ty = 1 then 2 else 8)
    let alg : Prop := pair ∧ 2 ≤ a.d ∧ b.d = a.d ∧ a.cols * a.d ≤ 4096 ∧ b.sc = 32 ∧ b.oen = false ∧
      slot ≠ .empty ∧ (∀ d, slot = .dim d → d = a.d)
    let cols := ((List.range 32).filter fun j => b.omask.testBit j).length
    s.depFree → x.toNat < 4 * popcount 8 t.place.groups →
    (pair → a.d = 1 → b.d = 1 → a.cols % depth = 0 → a.cols ≤ 4096 → b.cols = 32 →
      posts (.tmma x y z) ∧
      ((a.men = true → t.ownsMask a.bitmap.1 a.bitmap.2 = true) → (b.men = true → t.ownsMask b.bitmap.1 b.bitmap.2 = true) →
        posts (.tmmas x y z))) ∧
    (alg → posts (.tmmaa x y z n) ∧ posts (.tmmaaSw x y z n)) ∧
    (tile a ea → a.rows = 32 → a.sc = 32 → slot ≠ .empty → (∀ d, slot = .dim d → d = a.d) → rowv ea = false → colv ea = false →
      posts (.tnorm x y n)) ∧
    (tile a ea → b.valid = true → b.oen = true → sd.valid = true → a.d = 1 → sd.d = 1 → a.rows = 32 → sd.rows = a.cols → sd.cols = cols →
      sd.ty = 2 → sharesBank a sd = false → sd.offBad es = false → colv ea = false → rowv es = false → colv es = false →
      s.task.csr.noisectl.f 1 0 = 0 →
      Completes (.tmmao x y z) s (fun t => PostsTask (s.withFree (s.free + (1024 + 32 * cols))) t false (.tmmao x y z) [] []
        ((List.range (1024 + 32 * cols)).map fun i => Config.noiseWord (s.free + i)) 0 0 (fun _ => []) s.iss.far))) ∧
  (∀ (s : State) (x y : BitVec 5) (u v adj : BitVec 6) (k n : BitVec 2),
    let t := s.task
    let a := t.tdesc u.toNat
    let b := t.tdesc v.toNat
    let eb := t.tile.e.get 0 v.toNat
    let slot := s.slotDim n.toNat
    let hasZ (n : BitVec 5) : Prop := n.toNat < 4 * popcount 8 t.place.groups
    let posts (i : Instr) : Prop := Completes i s (fun t => PostsTask s t false i [] [] [] 0 0 (fun _ => []) s.iss.far)
    let noisy (i : Instr) : Prop := Completes i s (fun t => PostsTask (s.withFree (s.free + 2048)) t false i [] []
      ((List.range 2048).map fun i => Config.noiseWord (s.free + i)) 0 0 (fun _ => []) s.iss.far)
    s.depFree →
    (s.task.csr.noisectl.f 1 0 = 0 → hasZ x →
      (b.valid = true → b.rows = 32 → b.sc = 32 → b.offBad eb = false → noisy (.tacc x v)) ∧ (hasZ y → noisy (.taccZ x y))) ∧
    (hasZ x → posts (.tzero x)) ∧
    (a.valid = true → a.rows = 32 → a.sc = 32 → hasZ y → posts (.tdrain u y) ∧ posts (.tdrainZ u y) ∧ posts (.trescZ u y adj)) ∧
    (a.valid = true → b.valid = true → b.offBad eb = false → a.rows = b.rows →
      (a.sc = b.sc → posts (.tresc u v adj)) ∧
      (a.cols = b.cols → a.d = b.d → a.ty = b.ty → slot ≠ .empty → (∀ d, slot = .dim d → d = a.d) → posts (.tconj u v n))) ∧
    (b.valid = true → t.ownsTile b.base 128 = true → posts (.algld k v)))

/-- What stops a posting (R325): an operand without a descriptor raises 0x044, an accumulator the task does not have 0x045, both naming
their register; a full dependency table holds the bundle (R180). -/
def Obligations.PostingChecksRaise : Prop :=
  ∀ (s : State) (x : BitVec 5) (y z : BitVec 6),
    let a := s.task.tdesc y.toNat
    let b := s.task.tdesc z.toNat
    s.canTrap →
    (a.valid = false → ∀ i ∈ [Instr.tmma x y z, .tmmas x y z, .tmmao x y z, .tacc x y, .tdrain y x, .tdrainZ y x, .tresc y z 0,
        .trescZ y x 0, .algld 0 y, .tmmaa x y z 0, .tmmaaSw x y z 0, .tnorm x y 0, .tconj y z 0],
      Completes i s (fun t => Raises s t false 0x044 (.ofNat 64 y.toNat))) ∧
    (a.valid = true → b.valid = true → 4 * popcount 8 s.task.place.groups ≤ x.toNat →
      ∀ i ∈ [Instr.tmma x y z, .tmmas x y z, .tacc x y, .tdrain y x, .tdrainZ y x, .trescZ y x 0, .tzero x, .tmmaa x y z 0,
        .tmmaaSw x y z 0, .tnorm x y 0],
      Completes i s (fun t => Raises s t false 0x045 (.ofNat 64 (x.toNat + 64)))) ∧
    (x.toNat < 4 * popcount 8 s.task.place.groups → (∀ e < 64, (s.coreAt s.iss.core).deps.get? e ≠ none) →
      Completes (.tzero x) s (fun t => t = s.withIss { s.iss with stall := true }))

/-- The copies (R259, R341, R342, R344 to R348): an odd pair raises 0x054 and a missing descriptor 0x044; otherwise the copy is posted and
its promise, CYCLE plus the terms of the copies posted, its own and its latency, goes to G(z) with the tag in G(z + 1), after 2
clks. -/
def Obligations.CopiesArePostedWithPromise : Prop :=
  ∀ (s : State) (x y z : BitVec 6),
    let t := s.task
    let a := t.tdesc x.toNat
    let b := t.tdesc y.toNat
    let pair := [t.gReg y.toNat, t.gReg (y.toNat + 1)]
    let words := (List.range 8).map fun k => t.tile.d.get 0 (8 * x.toNat + k)
    let c := cdesc words
    let image := a.srows * a.rb
    let before := (((s.coreAt s.iss.core).deps.map fun ed => if isCopyIns ed.2.ins then copyTerm ed.2.ins ed.2.total else 0)).sum
    let posts (i : Instr) (ops desc : List Word) (n : Nat) (lat : Nat) : Prop :=
      let p := s.cycle + .ofNat 64 (before + copyTerm i n + lat)
      Completes i s (fun t => PostsTask s t false i ops desc [] p n
        (fun tag => [⟨.gPair z.toNat, .ready (.ofNat 2048 (tag % 2 ^ 64 * 2 ^ 64 + p.toNat)), 2, s.iss.pos, s.iss.pc, false⟩])
        (s.iss.far.set s.iss.pos (p.setWidth 2048)))
    let from_ (need : Nat) (va : Word) := s.copyLat (some (va, need))
    (z.toNat % 2 = 1 → y.toNat % 2 = 0 → s.canTrap → ∀ i ∈ [Instr.txps x y z, .tld x y z, .tst x y z, .tstx x y z, .tcpyMm x y z,
      .tcpyTm x y z, .tcpyMt x y z, .tcpyTt x y z, .tcpyd x y z, .tmskld x y z],
      Completes i s (fun t => Raises s t false 0x054 0)) ∧
    (z.toNat % 2 = 0 → y.toNat % 2 = 0 → a.valid = false → s.canTrap → s.part.variant ≠ 2 →
      ∀ i ∈ [Instr.txps x y z, .tld x y z, .tst x y z, .tstx x y z, .tcpyd x y z, .tmskld x y z],
      Completes i s (fun t => Raises s t false 0x044 (.ofNat 64 x.toNat))) ∧
    (s.depFree → z.toNat % 2 = 0 →
      (a.valid = true → b.valid = true → a.d = b.d → a.rows = b.cols → a.cols = b.rows → a.ty = b.ty →
        b.offBad (t.tile.e.get 0 y.toNat) = false → posts (.txps x y z) [] [] (b.srows * b.rb) 64) ∧
      (a.valid = true → a.men = true → t.ownsMask a.bitmap.1 a.bitmap.2 = true →
        posts (.tmskld x y z) [t.gReg y.toNat] [t.tile.t0.get 0 x.toNat, t.tile.t1.get 0 x.toNat] ((a.n + 7) / 8)
          (from_ 2 (t.gReg y.toNat))) ∧
      (y.toNat % 2 = 0 → a.valid = true →
        posts (.tld x y z) pair [] image (from_ 2 (t.gReg y.toNat)) ∧
        (a.offBad (t.tile.e.get 0 x.toNat) = false → posts (.tst x y z) pair [] image (from_ 4 (t.gReg y.toNat)) ∧
          posts (.tstx x y z) pair [] (2 * image) (from_ 4 (t.gReg y.toNat))) ∧
        (a.offBad (t.tile.e.get 0 x.toNat) = true → s.canTrap → ∀ i ∈ [Instr.tst x y z, .tstx x y z],
          Completes i s (fun t => Raises s t false 0x04C (.ofNat 64 x.toNat))) ∧
        (s.part.variant ≠ 2 → a.ty = 1 → posts (.tcpyd x y z) pair [] a.n (from_ 2 (t.gReg y.toNat)))) ∧
      (y.toNat % 2 = 0 → c.rsv = false → c.total < 2 ^ 32 →
        let src := t.nestOut c c.s (t.gReg y.toNat) = none
        let dst := t.nestOut c c.t (t.gReg (y.toNat + 1)) = none
        posts (.tcpyMm x y z) pair words c.total (from_ 2 (t.gReg y.toNat)) ∧
        (src → posts (.tcpyTm x y z) pair words c.total (from_ 4 (t.gReg (y.toNat + 1)))) ∧
        (dst → posts (.tcpyMt x y z) pair words c.total (from_ 2 (t.gReg y.toNat))) ∧
        (src → dst → posts (.tcpyTt x y z) pair words c.total 64) ∧
        ∀ w, t.nestOut c c.s (t.gReg y.toNat) = some w → s.canTrap → ∀ i ∈ [Instr.tcpyTm x y z, .tcpyTt x y z],
          Completes i s (fun t => Raises s t false 0x08D (addrVal (.ofInt 64 w)))))

/-- The optimiser instructions (R311, R312, R391): VOPTM, VOPTV and VOPTS are posted with their parameter word and two, two and one
noise words for each element; their lane forms in a retriever give every lane the value of R313, saturated.
TDSET, TSCL, TSCL.Z, TCENS and DSET (R321 to R323, R341): where no posted task of theirs conflicts, a descriptor without VALID clears
its register, a well-formed one is written, scale fields take their bits, a census or scale register is read, a copy descriptor
word is set; a descriptor with VALID in an odd pair raises 0x054. -/
def Obligations.OptimiserAndTileRegisterResults : Prop :=
  (∀ (s : State) (sup : Bool) (d a : BitVec 6) (b : Src) (vd : Dst) (va : BitVec 7),
    let t := s.task
    let td := t.tdesc d.toNat
    let word (i : Nat) : BitVec 16 := Config.noiseWord (s.free + i)
    let plain (n : Nat) (wide : Bool) : Prop := let x := t.tdesc n
      x.valid = true ∧ (∀ r ∈ x.ranges, t.ownsTile r.1 r.2 = true) ∧ x.d = 1 ∧ x.rows = td.rows ∧ x.cols = td.cols ∧
      (x.ty = 2 ∨ (wide = false ∧ x.ty = 1)) ∧ rowv (t.tile.e.get 0 n) = false ∧ colv (t.tile.e.get 0 n) = false
    let posts (i : Instr) (k : Nat) : Prop :=
      Completes i s (fun t => PostsTask (s.withFree (s.free + k * td.n)) t ([b].any s.task.lostSrc) i [s.task.srcG b] []
        ((List.range (k * td.n)).map word) 0 0 (fun _ => []) s.iss.far)
    let pair : Word × Word := if b.l then ((s.task.srcV b).setWidth 64, ((s.task.srcV b) >>> 64).setWidth 64)
      else (t.gReg b.reg.toNat, t.gReg (b.reg.toNat + 1))
    let p := optPar pair.1
    let ex (k : Nat) : Int := (BitVec.ofNat 8 (pair.2.f (8 * k + 7) (8 * k))).toInt
    let at_ (n l : Nat) : Int := el (t.vPhys (t.vMap n)) 32 l
    let w (l : Nat) : Nat := (word l).toNat
    let lane (i : Instr) (k : Nat) (names : List Nat) (f : Nat → Int) : Prop := s.allocated (vd.reg.toNat :: names) →
      ∃ r, Elems r 32 s.lanes f ∧ Completes i s (fun t => GivesV (s.withFree (s.free + k * s.lanes)) t [b] vd 8 r)
    s.task.csr.noisectl.f 1 0 = 0 →
    (s.depFree → plain d.toNat true → plain a.toNat false → posts (.voptm sup d a b) 2 ∧ posts (.voptv sup d a b) 2) ∧
    (s.depFree → a.toNat % 2 = 0 → plain d.toNat false → plain a.toNat true → plain (a.toNat + 1) true → posts (.vopts sup d a b) 1) ∧
    (b.l = true ∨ b.reg.toNat % 2 = 0 →
      lane (.voptmL vd va b) 2 [va.toNat] (fun l => sat (optM p (ex 0) (ex 1) (at_ vd.reg.toNat l) (at_ va.toNat l) (w (2 * l)) (w (2 * l + 1))) 16) ∧
      lane (.voptvL vd va b) 2 [va.toNat] (fun l => sat (optV p (ex 0) (ex 1) (at_ vd.reg.toNat l) (at_ va.toNat l) (w (2 * l)) (w (2 * l + 1))) 16) ∧
      lane (.voptsL vd va b) 1 [va.toNat, va.toNat + 1] (fun l =>
        sat (optS p (ex 0) (ex 1) (ex 2) (at_ vd.reg.toNat l) (at_ va.toNat l) (at_ (va.toNat + 1) l) (w l))
          (if pair.2.getLsbD 24 then 32 else 16)))) ∧
  (∀ (s : State) (x y : BitVec 6) (xz : BitVec 5) (k : BitVec 3) (f : BitVec 2),
    let t := s.task
    let g := t.gReg y.toNat
    let w1 := t.gReg (y.toNat + 1)
    let d := Machine.tdesc g w1
    let free (rs ws : List Nat) : Prop := (s.coreAt s.iss.core).blocked t s.iss.slot (s.coreAt s.iss.core).depSeq (rs, ws) = false
    let gives (i : Instr) (dest : RDest) (v : VReg) : Prop :=
      Completes i s (fun t => Posts s t false [⟨dest, .ready v, 1, s.iss.pos, s.iss.pc, false⟩] s.iss.near s.iss.far)
    let hasZ (n : Nat) : Prop := n < 4 * popcount 8 t.place.groups
    (free [] [x.toNat] →
      (y.toNat % 2 = 1 → g.getLsbD 63 = true → s.canTrap → Completes (.tdset x y) s (fun t => Raises s t false 0x054 0)) ∧
      (g.getLsbD 63 = false → gives (.tdset x y) (.t x.toNat) 0) ∧
      (y.toNat % 2 = 0 → g.getLsbD 63 = true → d.rsv = false → (d.ty = 3 → d.algd = 0) → d.base % 32 = 0 → d.sc * d.w % 8 = 0 →
        d.rows * d.w % 8 = 0 → (d.srows ≤ 1 ∨ d.rb ≤ 32 * d.pitch) → (∀ r ∈ d.ranges, t.ownsTile r.1 r.2 = true) → d.oen = false →
        d.men = false → gives (.tdset x y) (.t x.toNat) (.ofNat 2048 (w1.toNat * 2 ^ 64 + g.toNat))) ∧
      gives (.tscl x y) (.e x.toNat)
        (((t.tile.e.get 0 x.toNat).merge g (maskF 63 61 + maskF 55 24 + maskF 20 16 + maskF 7 0)).setWidth 2048)) ∧
    (hasZ xz.toNat → free [] [64 + xz.toNat] → gives (.tsclZ xz y) (.ze xz.toNat)
      (((t.tile.ze.get 0 xz.toNat).merge g (maskF 63 62 + maskF 55 24 + maskF 7 0)).setWidth 2048)) ∧
    (¬ hasZ xz.toNat → s.canTrap → Completes (.tsclZ xz y) s (fun t => Raises s t false 0x045 (.ofNat 64 (xz.toNat + 64)))) ∧
    ((2 ≤ f.toNat → hasZ y.toNat) → free [if 2 ≤ f.toNat then 64 + y.toNat else y.toNat] [] →
      Completes (.tcens f x y) s (fun t => Gives s t [] (.g x.toNat) (x == 0) 1
        ((if f = 0 then s.task.tile.c.get 0 y.toNat else if f = 1 then s.task.tile.e.get 0 y.toNat
          else if f = 2 then s.task.tile.zc.get 0 y.toNat else s.task.tile.ze.get 0 y.toNat).setWidth 2048))) ∧
    (free [] [128 + x.toNat] → gives (.dset x y k) (.d (8 * x.toNat + k.toNat)) (g.setWidth 2048)))


/-! ### Contexts, host and memory events (R74 to R117, R394) -/

/-- The context commands and the ends of QUIESCING and DRAINING (R82, R83): each move of the table of R83 is made in the state it
starts from, and a command in another state, or while one is pending or the module is in ERROR, sets BADCMD only (in ERROR by log 71); in BOOTFAIL
none does anything. CREATE keeps GEN, which is no configuration register, and clears FRCTL whole, HEAD, TAIL and OVF with LOG2N:
the model's choice (log 49). -/
def Obligations.ContextEventsMoveContexts : Prop :=
  ∀ (s : State) (n : BitVec 4),
    let k := n.toNat
    let c := s.ctxAt k
    let may : Prop := c.pending = false ∧ s.modstat.phase ≠ 5 ∧ s.modstat.phase ≠ 1
    let becomes (i : Instr) (x : Ctx) : Prop := Completes i s (fun t => t = s.setCtxAt k x)
    let refuses (i : Instr) : Prop := s.modstat.phase ≠ 1 → becomes i { c with badcmd := true }
    let copied (d : Dep) : Prop := d.ctx = k → isCopyIns d.ins = true → ∃ c tv, d.stat = .failed c tv
    let quiet : Prop := (∀ kt ∈ s.tasks, kt.2.place.ctx = k → kt.1 < 16384 → kt.2.stat = .held ∧ kt.2.saving = false) ∧
      (∀ cx ∈ s.cores, ∀ ed ∈ cx.2.deps, copied ed.2) ∧ s.copiesLeft k = false ∧ s.collsHeld k = true
    let drained : Prop := (∀ p ∈ s.e2eSrc, ∀ u ∈ p.2.unacked ++ p.2.waiting, u.ctx ≠ k) ∧
      ∀ kw ∈ c.leasebind, kw.2.b 63 = true → ¬ ((s.borrower (kw.2.f 15 0)).stat = .evicting ∧ (s.borrower (kw.2.f 15 0)).rel = true)
    let others (t : State) : Prop := (∀ m, m ≠ k → t.ctxAt m = s.ctxAt m) ∧ ∀ l, t.mem.rd l = s.mem.rd l
    let asked (key : Nat) (x : Task) : Prop := x.place.ctx = k ∧ key < 16384 ∧ x.stat ∉ [.free, .ending, .offcore, .held] ∧ x.pre = none
    refuses (.ctxcmdUndefined n) ∧
    (s.modstat.phase = 1 → ∀ i ∈ [Instr.ctxcmdUndefined n, .ctxCreate n, .ctxStart n, .ctxStop n, .ctxDestroy n],
      Completes i s (fun t => t = s)) ∧
    (¬ may → ∀ i ∈ [Instr.ctxCreate n, .ctxStart n, .ctxStop n, .ctxDestroy n], refuses i) ∧
    (may →
      (c.stat ≠ .free → refuses (.ctxCreate n)) ∧ (c.stat ∉ [.building, .stopped] → refuses (.ctxStart n)) ∧
      (c.stat ≠ .active → refuses (.ctxStop n)) ∧ (c.stat ∉ [.building, .stopped, .error] → refuses (.ctxDestroy n)) ∧
      (c.stat = .free → Completes (.ctxCreate n) s (fun t => others t ∧ t.tasks = s.tasks ∧
        t.ctxAt k = { Ctx.zero with stat := .building, badcmd := c.badcmd, badwr := c.badwr, gen := c.gen } ∧
        ∀ q < 64, t.queueAt k q = .zero)) ∧
      (c.stat = .building → becomes (.ctxStart n) { c with stat := .active }) ∧
      (c.stat = .stopped → Completes (.ctxStart n) s (fun t => others t ∧ t.ctxAt k = { c with stat := .active })) ∧
      (c.stat = .active → Completes (.ctxStop n) s (fun t => others t ∧
        t.ctxAt k = { c with stat := .quiescing, pending := true, toError := false, stopAt := s.cycle.toNat } ∧
        ∀ key, let x := s.tasks.get .empty key
          (asked key x → t.tasks.get .empty key = { x with pre := some ⟨true, true, s.cycle.toNat⟩ }) ∧
          (¬ asked key x → t.tasks.get .empty key = x))) ∧
      (c.stat ∈ [.building, .stopped, .error] → s.held = [] → (∀ cx ∈ s.cores, cx.2.side = []) →
        (∀ m, (s.ctxAt m).recs = []) →
        Completes (.ctxDestroy n) s (fun t => others t ∧
          t.ctxAt k = { c with stat := .draining, pending := true, flushAfter := [], recs := [] } ∧
          (∀ kt ∈ t.tasks, kt.1 < 16384 → kt.2.place.ctx ≠ k) ∧ (∀ o ∈ t.offs, o.task.place.ctx ≠ k) ∧
          ∀ kn ∈ t.kernels, kn.2.ctx ≠ k))) ∧
    (c.stat = .quiescing → quiet →
      (c.toError = false → becomes (.ctxQuiesceComplete n) { c with stat := .stopped, pending := false }) ∧
      (c.toError = true → Completes (.ctxQuiesceComplete n) s (fun t => others t ∧
        t.ctxAt k = { c with stat := .error, pending := false, toError := false } ∧
        ∀ q < 64, (t.queueAt k q).stat ≠ .running ∧ (t.queueAt k q).stat ≠ .halting))) ∧
    (c.stat ≠ .quiescing ∨ ¬ quiet → Completes (.ctxQuiesceComplete n) s (fun t => t = s)) ∧
    (c.stat = .draining → drained → becomes (.ctxDrainComplete n) { c with stat := .free, pending := false }) ∧
    (c.stat ≠ .draining ∨ ¬ drained → Completes (.ctxDrainComplete n) s (fun t => t = s))

/-- Writes to registers of BAR0: the configuration registers of a context take a write in BUILDING or STOPPED and set BADWR
otherwise (R84, R85, R88 to R90, R234); FRCTL (R89), the page block (R102), LNKCTL.AUTO, LNKERR, FLOWCFG, LINKCFG and PODMAP (R362,
R363), thread and migration registers (R390, R394), lender and borrower entries (R395) and the bits that a 1 clears take
their fields.
A host's access through a BAR (R81, R93, R149, R453): in BOOTFAIL it reaches nothing, and a read
completes without a word; else a read sends the register's word to the host, and a write is the event its register names. A
module in BOOTFAIL or in ERROR admits no command of the page, save, link, lease and retriever blocks: they change nothing. -/
def Obligations.RegisterWritesAndHostAccesses : Prop :=
  (∀ (s : State) (n : BitVec 4) (v : Word) (j : Nat),
    let k := n.toNat
    let c := s.ctxAt k
    let cfg : Prop := c.stat = .building ∨ c.stat = .stopped
    let page := 0x400000 + 0x1000 * k
    let config (off : Nat) (x : Ctx) : Prop :=
      (cfg → Completes (.configRegisterWrite off v) s (fun t => t = s.setCtxAt k x)) ∧
      (¬ cfg → Completes (.configRegisterWrite off v) s (fun t => t = s.setCtxAt k { c with badwr := true }))
    let fr (f : Word) : Prop := f.f 19 0 = v.f 19 0 ∧ f.b 40 = (c.frctl.b 40 && !v.b 40) ∧ f.f 39 20 = c.frctl.f 39 20 ∧
      f.f 58 41 = c.frctl.f 58 41
    let frctl (P : Word → Prop) (bad : Bool) : Prop := Completes (.frctlWrite n v) s (fun t =>
      ∃ f, P f ∧ t = s.setCtxAt k { c with frctl := f, badwr := c.badwr || bad })
    let gives (off : Nat) (x : State) : Prop := Completes (.registerWrite off v) s (fun t => t = x)
    let l := s.linkAt j
    let x := s.rtAt 0 (j % 8)
    let rt := 0x900000 + 0x100 * (j % 8)
    let m := s.migAt 0
    let ln := s.lender j
    let b := s.borrower j
    config (page + 0x010) { c with quota := c.quota.merge v (maskF 40 32 + maskF 26 8) } ∧
    config (page + 0x018) { c with frbase := c.frbase.merge v (maskF 51 5) } ∧
    config (page + 0x028) { c with satlim := c.satlim.merge v (maskF 15 15 + maskF 9 0) } ∧
    (j < 16 → config (page + 0x100 + 16 * j) { c with range := c.range.set 0 (2 * j) (v &&& .ofNat 64 (maskF 63 63 + maskF 56 6)) } ∧
      config (page + 0x108 + 16 * j) { c with range := c.range.set 0 (2 * j + 1) (v &&& .ofNat 64 (maskF 63 11 + 7)) }) ∧
    (j < 64 → config (page + 0x200 + 8 * j) { c with leasebind := c.leasebind.set 0 j (v &&& .ofNat 64 (maskF 63 63 + maskF 19 0)) }) ∧
    config (0x700000 + 8 * k) { c with savebase := c.savebase.merge v (maskF 63 63 + maskF 51 33) } ∧
    (cfg → frctl (fun f => fr f ∧ f.f 63 59 = v.f 63 59) false) ∧
    (¬ cfg → c.stat ≠ .free → c.stat ≠ .draining →
      frctl (fun f => fr f ∧ f.f 63 59 = c.frctl.f 63 59) (v.f 63 59 != c.frctl.f 63 59)) ∧
    (c.stat = .free ∨ c.stat = .draining → frctl (fun f => f = c.frctl) (v.f 63 59 != c.frctl.f 63 59)) ∧
    gives (page + 0x008) (s.setCtxAt k { c with badcmd := c.badcmd && !v.b 8, badwr := c.badwr && !v.b 10 }) ∧
    gives 0x500000 { s with page := { s.page with ptbase := s.page.ptbase.merge v (maskF 63 63 + maskF 41 7) } } ∧
    gives 0x500010 { s with page := { s.page with lost := s.page.lost && !v.b 1 } } ∧
    (j < 60 → gives (0x500200 + 8 * j) { s with page := { s.page with ringattr := s.page.ringattr.set 0 j (v &&& 0x1F) } }) ∧
    (j < 64 → let q := s.queueAt k j
      gives (0x600018 + 0x1000 * k + 0x40 * j) (s.setQueue k j
        { q with limit := q.limit && !v.b 3, baddb := q.baddb && !v.b 2, badcmd := q.badcmd && !v.b 1 })) ∧
    (j < 256 → s.part.fitted j = true → gives (0x800000 + 0x100 * j) (s.setLinkAt j { l with auto := v.b 0 }) ∧
      gives (0x800010 + 0x100 * j) (s.setLinkAt j { l with replays := v.f 63 32, uncorr := v.f 31 0 })) ∧
    gives 0x810008 { s with flowcfg := s.flowcfg.merge v (maskF 47 32 + maskF 15 0) } ∧
    gives 0x810010 { s with linkcfg := s.linkcfg.merge v (maskF 39 0) } ∧
    (j < 64 → gives (0x810400 + 8 * j) { s with podmap := s.podmap.set 0 j v }) ∧
    (8 ≤ s.part.memch → 0 < j % 8 →
      (let u := s.setRt 0 (j % 8) { x with ctl := x.ctl.merge v 0xF }
        let T := s.taskAt 1024 (j % 8)
        (x.stat = 0 → gives rt u) ∧
        (x.stat ≠ 0 → gives rt (u.setTaskAt 1024 (j % 8) { T with place := { T.place with ctx := v.f 3 0 } }))) ∧
      (x.ctl.b 63 = true → ∀ o ∈ [0x08, 0x10, 0x18, 0x20], gives (rt + o) s) ∧
      (x.ctl.b 63 = false →
        gives (rt + 0x08) (s.setRt 0 (j % 8) { x with entry := x.entry.merge v (maskF 56 4) }) ∧
        gives (rt + 0x10) (s.setRt 0 (j % 8) { x with win := x.win.merge v (maskF 51 6) }) ∧
        gives (rt + 0x18) (s.setRt 0 (j % 8) { x with sram := x.sram.merge v (maskF 13 0) }) ∧
        gives (rt + 0x20) (s.setRt 0 (j % 8) { x with kick := x.kick.merge v (maskF 63 63 + maskF 51 3) }))) ∧
    (8 ≤ s.part.memch → m.busy = false →
      gives 0x900800 (s.setMig 0 { m with src := m.src.merge v (maskF 51 12) }) ∧
      gives 0x900808 (s.setMig 0 { m with dst := m.dst.merge v (maskF 63 62 + maskF 51 12) }) ∧
      gives 0x900810 (s.setMig 0 { m with tab := m.tab.merge v (maskF 51 0) })) ∧
    (j < 256 → ln.stat = .free →
      gives (0xA00000 + 0x20 * j) (s.setLender j { ln with base := ln.base.merge v (maskF 63 30 + maskF 15 0) }) ∧
      gives (0xA00008 + 0x20 * j) (s.setLender j { ln with cfg := ln.cfg.merge v (maskF 63 32 + maskF 6 0) })) ∧
    (j < 1024 → b.stat = .free →
      gives (0xA10000 + 0x20 * j) (s.setBorrower j { b with src := b.src.merge v (maskF 63 8) }) ∧
      gives (0xA10008 + 0x20 * j) (s.setBorrower j { b with fall := b.fall.merge v (maskF 63 62 + maskF 51 30) })) ∧
    gives 0xB00000 { s with modstat := { s.modstat with therm := s.modstat.therm && !v.b 0 } }) ∧
  (∀ (s : State) (n : BitVec 4) (q : BitVec 6) (bar off : Nat) (v : Word) (l8 : BitVec 8) (b10 : BitVec 10) (t3 : BitVec 3),
    let page := 0x400000 + 0x1000 * n.toNat
    let queue := 0x600000 + 0x1000 * n.toNat + 0x40 * q.toNat
    let wr (bar off : Nat) (v : Word) : Instr := .hostBarAccess true bar off v
    let same (i j : Instr) : Prop := ∃ t, exec i s = .next t ∧ exec j s = .next t
    (s.modstat.phase = 1 → Completes (.hostBarAccess true bar off v) s (fun t => t = s) ∧
      Completes (.hostBarAccess false bar off v) s (fun t => t = { s with hostReads := s.hostReads ++ [none] })) ∧
    (s.modstat.phase ≠ 1 → Completes (.hostBarAccess false bar off v) s (fun t =>
      t = { s with hostReads := s.hostReads ++ [some (s.barRead bar (off / 8 * 8))] })) ∧
    (s.modstat.phase = 1 ∨ s.modstat.phase = 5 →
      ∀ i ∈ [Instr.fgenFlush n, .ptinv v, .pgabort v, .preempt v, .rotorEnable, .llcmdGrant l8, .llcmdReclaim l8, .blcmdExpect b10,
        .blcmdRelease b10, .blcmdClear b10, .lnkctlTrain l8, .lnkctlDown l8, .rtThreadStart n t3, .rtThreadStop n t3, .miggo n],
        Completes i s (fun t => t = s)) ∧
    (s.modstat.phase ≠ 1 →
      (v.f 7 0 = 1 → same (wr 0 page v) (.ctxCreate n)) ∧ (v.f 7 0 = 2 → same (wr 0 page v) (.ctxStart n)) ∧
      (v.f 7 0 = 3 → same (wr 0 page v) (.ctxStop n)) ∧ (v.f 7 0 = 4 → same (wr 0 page v) (.ctxDestroy n)) ∧
      (v.f 7 0 = 0 ∨ 4 < v.f 7 0 → same (wr 0 page v) (.ctxcmdUndefined n) ∧ same (wr 0 (queue + 0x20) v) (.qcmdUndefined n q)) ∧
      same (wr 0 (page + 0x010) v) (.configRegisterWrite (page + 0x010) v) ∧ same (wr 0 (page + 0x020) v) (.frctlWrite n v) ∧
      same (wr 0 0x500008 v) (.ptinv v) ∧ same (wr 0 0x500018 v) (.pgabort v) ∧
      (v.b 8 = true → same (wr 0 (0x500100 + 8 * n.toNat) v) (.fgenFlush n)) ∧
      same (wr 0 queue v) (.queueConfigWrite n q false v) ∧ same (wr 0 (queue + 0x08) v) (.queueConfigWrite n q true v) ∧
      (v.f 7 0 = 1 → same (wr 0 (queue + 0x20) v) (.queueEnable n q)) ∧
      (v.f 7 0 = 2 → same (wr 0 (queue + 0x20) v) (.queueDisable n q)) ∧
      (v.f 7 0 = 3 → same (wr 0 (queue + 0x20) v) (.queueRetry n q)) ∧
      (v.f 7 0 = 4 → same (wr 0 (queue + 0x20) v) (.queueSkip n q)) ∧
      same (wr 2 (0x1000 * n.toNat + 8 * q.toNat) v) (.doorbell n q v) ∧
      same (wr 0 0x700100 v) (.preempt v) ∧ (v.b 0 = true → same (wr 0 0x810000 v) .rotorEnable) ∧
      same (wr 0 (0x600018 + 0x1000 * n.toNat) v) (.registerWrite (0x600018 + 0x1000 * n.toNat) v)))

/-- What an access that waits comes to (R106, R109, R112, R114, R115, R129, R176): a load held for order or a migration, or by a
fault that a flush follows, takes its bytes once it can be served; a reply brings its bytes or its cause; a PGABORT over one
of its bytes ends it with 0x08A; a write in a side log is performed. Flushes count GEN and wait for the invalidations before them;
a 17th invalidation is dropped and sets LOST (R103). -/
def Obligations.HeldAccessesGoOn : Prop :=
  ∀ (s : State) (h : Held) (c slot n key : Nat) (k : BitVec 4) (va v : Word) (zx : Bool) (ls : List Loc) (e : SideEnt)
      (data : List Byte) (cause : BitVec 9) (pstate : BitVec 3),
    let T := s.taskAt c slot
    let quietLogs : Prop := (∀ cx ∈ s.cores, cx.2.side = [] ∧ cx.2.fences = []) ∧ ∀ m, (s.ctxAt m).recs = []
    let load : Prop := s.held = [h] ∧ T.stat ≠ .free ∧ h.unit = .core c slot T.place.kernel ∧ h.req = .load va n zx ∧
      h.lat2 = false ∧ s.borrowers = [] ∧ quietLogs ∧ s.sentBy h.unit = [] ∧ T.fetchHold ≠ some h.id ∧ h.bad = [] ∧ h.taint = [] ∧
      (∀ a ∈ s.barq, a.unit ≠ h.unit) ∧ s.repWait = [] ∧
      ∀ p ∈ T.inflight, p.val = .await h.id → p.dest ≠ .jump true ∧ p.dest ≠ .jump false
    let local_ : Prop := ls.length = n ∧ (∀ l ∈ ls, s.mem.bad l = false) ∧
      ∀ i l, ls[i]? = some l → ∃ kind m ia, (s.looksOf h va n .read 0)[i]? = some (⟨i, .mem l kind, m, ia⟩ : ByteLook)
    let away : Prop := ∀ i < n, ∃ m ia kind m' ia', (s.looksOf h va n .read 0)[i]? =
      some (⟨i, .remote m ia kind, m', ia'⟩ : ByteLook)
    let fill (x : RVal) (ps : List Pend) : List Pend := ps.map fun p => if p.val = .await h.id then { p with val := x } else p
    let filled (x : RVal) (t : State) : Prop := t.held = [] ∧
      t.taskAt c slot = { T with inflight := fill x T.inflight, shadow := fill x T.shadow, hshadow := fill x T.hshadow } ∧ ∀ l, t.mem.rd l = s.mem.rd l
    let value (bs : List Byte) : RVal := .ready ((loaded n zx bs).setWidth 2048)
    let lo := v.f 51 12 * 4096 / 2 ^ v.f 11 6 * 2 ^ v.f 11 6
    let admits : Prop := s.modstat.phase ≠ 1 ∧ s.modstat.phase ≠ 5
    let inRange : Prop := 12 ≤ v.f 11 6 ∧ v.f 11 6 ≤ 52 ∧ h.ia < lo + 2 ^ v.f 11 6 ∧ lo < h.ia + n
    (load → local_ → h.why = .side ∨ h.why = .migration →
      Completes (.accessAtHomeController (2 * h.id)) s (filled (value (ls.map s.mem.rd)))) ∧
    (admits → load → local_ → h.why = .flush → h.ctx = k.toNat → s.page.ptinv = [] →
      Completes (.fgenFlush k) s (fun t => filled (value (ls.map s.mem.rd)) t ∧
        t.ctxAt k.toNat = { s.ctxAt k.toNat with gen := ((s.ctxAt k.toNat).gen + 1) % 256 })) ∧
    (load → away → 0 < n → h.why = .reply → cause ≠ 0 →
      (∀ p ∈ s.e2eSrc, ∀ u ∈ p.2.unacked ++ p.2.waiting, u.held ≠ some h.id) → Completes (.memoryReplyArrival h.id data cause pstate) s (filled (.late cause.toNat
      (.ofNat 64 (va.toNat % 2 ^ 57 + if cause = 0x089 then pstate.toNat * 2 ^ 57 else 0))))) ∧
    (load → h.why = .reply → h.got = [] → 0 < n → data.length = n →
      (∀ p ∈ s.e2eSrc, ∀ u ∈ p.2.unacked ++ p.2.waiting, u.held ≠ some h.id) → away →
      Completes (.memoryReplyArrival h.id data 0 pstate) s (filled (value data))) ∧
    (admits → load → h.why = .flush → h.ctx = v.f 63 60 → h.parts = [(0, s.part.module, h.ia, n)] → 0 < n →
      (inRange → Completes (.pgabort v) s (filled (.late 0x08A (addrVal (va + .ofNat 64 (lo - h.ia)))))) ∧
      (¬ inRange → Completes (.pgabort v) s (fun t => t.held = s.held ∧ t.tasks = s.tasks ∧ t.mem = s.mem))) ∧
    ((s.coreAt key).side = [e] → e.quiet = true → e.add = false → e.disc = 0 → e.unit.logKey = key → s.held = [] → s.sentBy e.unit = [] →
      s.borrowers = [] → (∀ a ∈ s.barq, a.unit ≠ e.unit) → (∀ rt ∈ s.rts, rt.2.kick.b 63 = false) → ls.length = e.bytes.length → 0 < ls.length → ls.Pairwise (· ≠ ·) →
      (∀ i l, ls[i]? = some l → ∃ kind, s.lookAt e.unit e.module (e.ia + i) .write = .mem l kind) →
      Completes (.accessAtHomeController (2 * key + 1)) s (fun t => (t.coreAt key).side = [] ∧ ls.map t.mem.rd = e.bytes ∧
        (∀ l, l ∉ ls → t.mem.rd l = s.mem.rd l) ∧ t.tasks = s.tasks)) ∧
    (admits → s.page.ptinv ≠ [] → Completes (.fgenFlush k) s (fun t => t = s.setCtxAt k.toNat
      { s.ctxAt k.toNat with flushAfter := (s.ctxAt k.toNat).flushAfter ++ [s.page.ptinv.length] })) ∧
    (admits → s.page.ptinv.length < 16 → Completes (.ptinv v) s (fun t => t = { s with page := { s.page with ptinv := s.page.ptinv ++ [v] } })) ∧
    (admits → 16 ≤ s.page.ptinv.length → Completes (.ptinv v) s (fun t => t = { s with page := { s.page with lost := true } })) ∧
    (s.page.ptinv = [] → Completes .ptinvComplete s (fun t => t = s)) ∧
    (s.page.ptinv ≠ [] → s.held = [] → quietLogs → s.repWait = [] → (∀ p ∈ s.e2eSrc, ∀ u ∈ p.2.unacked ++ p.2.waiting, u.own = none) →
      Completes .ptinvComplete s (fun t =>
      let r := ptinvRange (s.page.ptinv.headD 0)
      t.page = { s.page with
        ptinv := s.page.ptinv.drop 1
        cache := s.page.cache.filter fun x => !(x.base < r.2 && r.1 < x.base + leafSize x.leaf) } ∧ (∀ l, t.mem.rd l = s.mem.rd l) ∧ ∀ m < 16,
        let x := s.ctxAt m
        let due := (x.flushAfter.filter (· ≤ 1)).length
        t.ctxAt m = { x with gen := if due = 0 then x.gen else (x.gen + due) % 256
                             flushAfter := (x.flushAfter.filter (1 < ·)).map (· - 1) }))

/-- Page migration (R104, R105, R394): MIGGO of a page whose home is the retriever's controller makes every copy of a
RESIDENT or COMPRESSED page's leaf MIGRATING, CF naming its old form, and refuses any other page with RESULT 2; at the end of a migration of plain bytes between places of LPDDR6 the new place
holds the page's bytes and every copy of the leaf names it, RESIDENT. -/
def Obligations.MigrationMovesPages : Prop :=
  ∀ (s : State) (r : BitVec 4) (e : Word) (at_ : Nat),
    let m := s.migAt r.toNat
    let ia := m.src.f 51 12 * 4096
    let st := e.f 61 59
    let copies := leafCopies e at_ ia
    let moving := (e.setF 61 59 1).setF 8 8 (if st = 2 then 1 else 0)
    let d := m.leaf
    let here := m.at_ + 8 * (ia % leafSize d / leafSpan d)
    let olds := leafCopies d here ia
    let dst := m.dst.f 51 12 * 4096
    let src := d.f 51 12 * 4096
    let new := (((d.setF 61 59 0).setF 8 8 0).setF 52 52 0).setF 51 12 (m.dst.f 51 12)
    let only (t : State) (ks : List Nat) : Prop := ∀ l, (∀ k ∈ ks, ∀ j < 8, l ≠ .dram (k + j)) → t.mem.rd l = s.mem.rd l
    (m.busy = true ∨ s.part.retrievers ≤ r.toNat → Completes (.miggo r) s (fun t => t = s)) ∧
    (s.modstat.phase ≠ 1 → s.modstat.phase ≠ 5 → m.busy = false → r.toNat < s.part.retrievers → s.pageHome ia r.toNat = true →
      ((∀ e a, s.walk ia ≠ .leaf e a) ∨ s.walk ia = .leaf e at_ ∧ st ≠ 0 ∧ st ≠ 2 →
        Completes (.miggo r) s (fun t => t = s.setMig r.toNat { m with result := 2 })) ∧
      (s.walk ia = .leaf e at_ → st = 0 ∨ st = 2 → (∃ k ∈ copies, s.mem.dramWord k ≠ e) →
        Completes (.miggo r) s (fun t => t = s.setMig r.toNat { m with result := 1 })) ∧
      (s.walk ia = .leaf e at_ → st = 0 ∨ st = 2 → (∀ k ∈ copies, s.mem.dramWord k = e) → Completes (.miggo r) s (fun t =>
        t.migAt r.toNat = { m with busy := true, result := 0, leaf := moving, at_ := at_ - 8 * (ia % leafSize e / leafSpan e),
                                   discard := false } ∧
        (∀ k ∈ copies, t.mem.dramWord k = moving) ∧ only t copies ∧ t.tasks = s.tasks))) ∧
    (m.busy = false → Completes (.migrationComplete r) s (fun t => t = s)) ∧
    (m.busy = true → m.discard = false → m.dst.b 63 = false → m.dst.b 62 = false → d.b 52 = false → d.b 8 = false →
      (∀ k < leafSize d, s.mem.bad (.dram (src + k)) = false) → (∀ k ∈ olds, s.mem.dramWord k = d) →
      (∀ k ∈ olds, k + 8 ≤ dst ∨ dst + leafSize d ≤ k) → s.held = [] → (∀ cx ∈ s.cores, cx.2.side = []) → s.tgtWait = [] →
      s.repWait = [] → (∀ nc ∈ s.ctxs, nc.2.recs = []) →
      Completes (.migrationComplete r) s (fun t => t.migAt r.toNat = { m with busy := false, result := 0 } ∧
        (∀ k < leafSize d, t.mem.rd (.dram (dst + k)) = s.mem.rd (.dram (src + k))) ∧
        (∀ k ∈ olds, t.mem.dramWord k = new) ∧ t.tasks = s.tasks))


/-! ### Launch, tile, barrier and queue events (R152 to R217, R259 to R261, R326 to R344) -/

/-- The launch scheduler (R152, R155, R157, R160, R163, R164): the oldest record of an ACTIVE context is refused where its check
fails, posted where its level has room, else parked or answered FULL; the kernel taken next gets its task on every core of its
rectangle; the last task that ends retires its kernel. -/
def Obligations.LaunchEventsPlaceAndRetireKernels : Prop :=
  ∀ (s : State) (l : LaunchReq) (rest : List LaunchReq) (k core slot : Nat) (kn : Kernel),
    let T := s.taskAt l.core l.slot
    let fill (x : RVal) (ps : List Pend) : List Pend := ps.map fun p => if p.val = .await l.id then { p with val := x } else p
    let filled (x : RVal) (t : State) : Prop := t.taskAt l.core l.slot = { T with
      inflight := fill x T.inflight, shadow := fill x T.shadow, hshadow := fill x T.hshadow }
    let due : Prop := s.launches = l :: rest ∧ (∀ m ∈ rest, m.id ≠ l.id) ∧ (s.ctxAt l.ctx).stat = .active ∧
      l.at_ ≤ s.cycle.toNat ∧ l.posted = false ∧ s.offs = []
    let plain : Prop := due ∧ l.park = false ∧ T.stat ≠ .free ∧ T.place.kernel = l.kernel ∧ T.wait = .none ∧ T.kept = .none
    let check := checkRec s.part (s.ctxAt l.ctx) l.rec_ l.addr.toNat (l.level + 1)
    let level (x : Kernel) : Nat := (x.rec_.getD 1 0).f 63 62
    let pool := (s.kernels.filter fun x => x.2.stat = .posted ∧ level x.2 = l.level + 1)
    let room : Prop := pool.length < 256 ∧ (pool.filter fun x => x.2.ctx = l.ctx).length < Nat.min 256 ((s.ctxAt l.ctx).quota.f 40 32)
    let parked : Prop := ∃ p ∈ s.parked, p.ctx = l.ctx ∧ p.level = l.level
    let g := kn.rec_.getD 1 0
    let me := s.taskAt core slot
    let gone (t : State) : Prop := t.taskAt core slot = .empty ∧ ∀ j, j ≠ taskKey core slot → t.tasks.get .empty j = s.tasks.get .empty j
    ((∀ m ∈ s.launches, (s.ctxAt m.ctx).stat ≠ .active ∧ m.posted = false ∨ s.cycle.toNat < m.at_) → Completes .launchRecordArrival s (fun t => t = s)) ∧
    (plain →
      (∀ c, check = some c → Completes .launchRecordArrival s (fun t => t.launches = rest ∧ filled (.late c 0) t ∧ t.kernels = s.kernels)) ∧
      (check = none → room → ¬ parked → Completes .launchRecordArrival s (fun t => t.launches = rest ∧ filled (.ready 1) t ∧
        t.kernels = s.kernels.put s.nextId ⟨l.ctx, l.rec_, .posted, 2 ^ (l.rec_.getD 1 0).f 34 32 * 2 ^ (l.rec_.getD 1 0).f 31 29, 0, none,
          s.cycle.toNat + 48⟩)) ∧
      (check = none → ¬ room ∨ parked → Completes .launchRecordArrival s (fun t =>
        t.launches = rest ∧ filled (.ready 0) t ∧ t.kernels = s.kernels ∧ t.parked = s.parked))) ∧
    (due → l.park = true → check = none →
      ¬ room ∨ parked → Completes .launchRecordArrival s (fun t =>
        t = { s with launches := rest, parked := s.parked ++ [l] })) ∧
    (s.nextKernel ≠ some k → Completes (.kernelPlacement k) s (fun t => t = s)) ∧
    (s.nextKernel = some k → s.kernels.get? k = some kn → s.parked = [] → Completes (.kernelPlacement k) s (fun t =>
      t.kernels.get? k = some { kn with stat := .placed } ∧ (∀ a, t.mem.rd a = s.mem.rd a) ∧
      ∀ c cl, c ∈ geomCores g → s.claimOn c kn.ctx (g.f 63 62) (g.f 56 52) (g.f 51 47) = some cl →
        let n := t.taskAt c cl.slot
        n.stat = .ready ∧ n.pc = kn.rec_.getD 0 0 ∧ n.place.ctx = kn.ctx ∧ n.place.kernel = k ∧ n.place.groups = cl.groups ∧
          n.place.vregs = 64 * g.f 51 47 ∧ (∀ i, 1 ≤ i → i ≤ 15 → n.gReg i = kn.rec_.getD (i + 3) 0) ∧
          (∀ i, 15 < i → n.gReg i = 0) ∧ n.loops = [] ∧ n.regs.v = [] ∧ n.trap = TrapCsr.zero)) ∧
    (me.stat ≠ .ending → Completes (.taskEndComplete core slot) s (fun t => t = s)) ∧
    (me.stat = .ending → (∀ ed ∈ (s.coreAt core).deps, ed.2.of slot me.place.kernel = false) → me.inflight = [] →
      s.unitBusy (.core core slot me.place.kernel) = false → me.strays = [] → (s.coreAt core).rawSt = [] → s.kernels.get? me.place.kernel = some kn → kn.rec_.getD 2 0 = 0 →
      (1 < kn.left → Completes (.taskEndComplete core slot) s (fun t => gone t ∧
        t.kernels = s.kernels.put me.place.kernel { kn with left := kn.left - 1 })) ∧
      (kn.left ≤ 1 → kn.node = none → Completes (.taskEndComplete core slot) s (fun t => gone t ∧
        t.kernels = s.kernels.del me.place.kernel)) ∧
      (kn.left ≤ 1 → kn.node ≠ none → Completes (.taskEndComplete core slot) s (fun t => gone t ∧
        t.kernels = s.kernels.put me.place.kernel { kn with left := 0, stat := .retired })))

/-- The engines of a core (R181, R183, R260, R261, R326, R327, R333, R342 to R344): the entry its engine takes next starts, a TMMA
for 32 cols / S + 12 clks and a TZERO for 4; after them a TMMA has added the exact products to its accumulator, saturated once,
a TZERO has emptied its own, and the entry is free; a TLD moves its next burst, and retires when its bytes are there and its
promise is due; a missed promise wakes its task with 0x127; a WAITE that reads again ends, with its read performed, where its test holds. -/
def Obligations.TileEventsRunTasks : Prop :=
  ∀ (s : State) (core e : Nat) (d : Dep) (x : BitVec 5) (y z : BitVec 6) (ls : List Loc) (id ts sc : Nat) (va cmp p : Word) (fl : Bool),
    let c := s.coreAt core
    let T := s.taskAt core d.slot
    let a := T.tdesc y.toNat
    let b := T.tdesc z.toNat
    let ea := T.tile.e.get 0 y.toNat
    let eb := T.tile.e.get 0 z.toNat
    let ze := T.tile.ze.get 0 x.toNat
    let ep := expOf ea + expOf eb
    let sound (d : TDesc) (e : Word) : Prop := d.d = 1 ∧ d.offBad e = false ∧ c.tilePoison d = none
    let starts : Prop := d.ins = .tmma x y z ∧ sound a ea ∧ sound b eb ∧ a.rows = 32 ∧ b.rows = a.cols ∧ b.cols = 32 ∧ b.oen = false ∧
      colv ea = false ∧ rowv eb = false ∧
      (autoBit ze = true ∧ -128 ≤ ep ∧ ep ≤ 127 ∨
        autoBit ze = false ∧ ep = expOf ze ∧ sameBits ze ea rowMask = true ∧ sameBits ze eb colMask = true)
    let A (i k : Nat) : Int := ((c.tileRows a).getD i []).getD k 0
    let B (k j : Nat) : Int := ((c.tileRows b).getD k []).getD j 0
    let Z (i j : Nat) : Int := (T.tile.z.get 0 (1024 * x.toNat + 32 * i + j)).toInt
    let next : Prop := (s.nextDep core (engineOf d.ins)).map (·.1) = some e
    let td := T.tdesc x.toNat
    let row := d.done / td.rb
    let off := d.done % td.rb
    let src : Word := d.ops.getD 0 0 + (if d.ops.getD 1 0 = 0 then .ofNat 64 td.rb else d.ops.getD 1 0) * .ofNat 64 row + .ofNat 64 off
    let n := td.rb - off
    let dst := td.base + 32 * td.pitch * row + off
    let u := UnitId.copy core e d.seq
    let k := copyRun Piece.src T c d 256 d.done
    let back (t : State) (d' : Dep) : Prop := (t.coreAt core).deps.get? e = some d' ∧ t.tasks = s.tasks ∧ ∀ l, t.mem.rd l = s.mem.rd l
    let me := s.taskAt core e
    c.deps.get? e = some d →
    (¬ next → Completes (.tileTaskStart core e) s (fun t => t = s)) ∧
    (next → isCopyIns d.ins = true → startFail (copyStart T d.ins) = none → Completes (.tileTaskStart core e) s (fun t => t = s.setDep core e { d with stat := .running })) ∧
    (next → starts → Completes (.tileTaskStart core e) s (fun t => t = s.setDep core e
      { d with stat := .running, shift := 0, done := 0, total := 32 * a.cols / (256 / (if a.ty = 0 then 1 else if a.ty = 1 then 2 else 8)) + 12 })) ∧
    (next → d.ins = .tzero x → Completes (.tileTaskStart core e) s (fun t => t = s.setDep core e
      { d with stat := .running, shift := 0, done := 0, total := 4 })) ∧
    (d.stat ≠ .running ∨ d.done < d.total → Completes (.tileTaskComplete core e) s (fun t => t = s)) ∧
    (d.stat = .running → d.total ≤ d.done → starts → Completes (.tileTaskComplete core e) s (fun t =>
      (∀ i < 32, ∀ j < 32, (t.taskAt core d.slot).tile.z.get 0 (1024 * x.toNat + 32 * i + j) =
        .ofInt 32 (sat (Z i j + ((List.range a.cols).map fun k => A i k * B k j).sum) 32)) ∧
      expOf ((t.taskAt core d.slot).tile.ze.get 0 x.toNat) = ep ∧ autoBit ((t.taskAt core d.slot).tile.ze.get 0 x.toNat) = false ∧
      (t.taskAt core d.slot).regs = T.regs ∧ (t.coreAt core).deps.get? e = none ∧ ∀ l, t.mem.rd l = s.mem.rd l)) ∧
    (d.stat = .running → d.total ≤ d.done → d.ins = .tzero x → Completes (.tileTaskComplete core e) s (fun t =>
      (∀ i < 1024, (t.taskAt core d.slot).tile.z.get 0 (1024 * x.toNat + i) = 0) ∧
      (t.taskAt core d.slot).tile.ze.get 0 x.toNat = .ofNat 64 (2 ^ 61) ∧ (t.taskAt core d.slot).tile.zc.get 0 x.toNat = 0 ∧
      (t.taskAt core d.slot).regs = T.regs ∧ (t.coreAt core).deps.get? e = none ∧ ∀ l, t.mem.rd l = s.mem.rd l)) ∧
    (d.ins = .tld (x.setWidth 6) y z → d.stat = .running → d.hold = none →
      (d.done < d.total → 0 < td.rb → d.buf = [] → d.parts = [] → ls.length = k → s.sideOf u = [] → s.sentBy u = [] → (∀ a ∈ s.barq, a.unit ≠ u) →
        (∀ h ∈ s.held, h.req.isStore = false) → (∀ l ∈ ls, s.mem.bad l = false) →
        (∀ i l, ls[i]? = some l → ∃ kind m ia, s.lookU u d.ctx (src + .ofNat 64 i) .decoded = (.mem l kind, m, ia)) →
        Completes (.copyBurstReply core e) s (fun t => t.coreAt core = { c with deps := (t.coreAt core).deps } ∧
          back t { d with buf := ls.map fun l => (s.mem.rd l, false) })) ∧
      (d.done + n < d.total → 0 < td.rb → n ≤ d.buf.length → (∀ b ∈ d.buf, b.2 = false) →
        Completes (.copyBurstReply core e) s (fun t => back t { d with done := d.done + n, buf := d.buf.drop n } ∧
          (∀ i < n, (t.coreAt core).tileMem.get 0 (dst + i) = (d.buf.getD i (0, false)).1) ∧
          ∀ q, q < dst ∨ dst + n ≤ q → (t.coreAt core).tileMem.get 0 q = c.tileMem.get 0 q)) ∧
      (d.total ≤ d.done → s.sideOf u = [] → (∀ q ∈ s.e2eSrc, q.2.unacked = [] ∧ q.2.waiting = []) →
        (s.cycle.toNat + 1 < d.promise.toNat → Completes (.copyBurstReply core e) s (fun t => t = s)) ∧
        (d.promise.toNat ≤ s.cycle.toNat + 1 → Completes (.copyBurstReply core e) s (fun t =>
          (t.coreAt core).deps.get? e = none ∧ (t.taskAt core d.slot).regs = T.regs ∧ ∀ l, t.mem.rd l = s.mem.rd l)))) ∧
    (me.stat = .sleeping → me.wait = .copy id ts p →
      (p = 0 ∨ s.cycle.toNat < p.toNat → Completes (.missedPromise core e) s (fun t => t = s)) ∧
      (p ≠ 0 → p.toNat ≤ s.cycle.toNat → me.trap.cause.getLsbD 63 = false → Completes (.missedPromise core e) s (fun t =>
        t = s.setTaskAt core e { me with stat := .ready, wait := .none, woke := true, events := me.events ++ [⟨0x127, p⟩] }))) ∧
    (me.stat = .sleeping → me.wait = .reread id ts sc va cmp fl → core < 1024 → e < 16 → (∀ h ∈ s.held, h.id = id ∧ h.why = .poll) →
      (∀ h ∈ s.held, h.req.isStore = false) → s.borrowers = [] → (∀ a ∈ s.barq, a.unit ≠ .core core e me.place.kernel) →
      s.sideOf (.core core e me.place.kernel) = [] → s.sentBy (.core core e me.place.kernel) = [] → ls.length = 8 → (∀ l ∈ ls, s.mem.bad l = false) →
      (∀ i l, ls[i]? = some l → ∃ kind m ia, s.lookU (.core core e me.place.kernel) me.place.ctx (va + .ofNat 64 i) .read = (.mem l kind, m, ia)) →
      let w : Word := .ofNat 64 (s.bytesAt ls)
      let holds : Prop := match ts with | 0 => w = cmp | 1 => w ≠ cmp | 2 => cmp.toNat ≤ w.toNat | _ => w.toNat < cmp.toNat
      (holds → Completes (.waiteReread core e) s (fun t =>
        t = { s.setTaskAt core e { me with stat := .ready, wait := .none } with held := [] })) ∧
      (¬ holds → Completes (.waiteReread core e) s (fun t => t = s)))

/-- Barrier arrivals and breaks (R193 to R197): an arrival that may leave its core is counted, the last one releases the phase and
the GEN goes on, its issuer gets the phase it arrived in; an entry that is not the kernel's, or is BROKEN, counts nothing; a
barrier whose member has been away too long breaks, and its waiters wake with 0x123. -/
def Obligations.BarrierEventsCountArrivals : Prop :=
  ∀ (s : State) (a : Arrival) (rest : List Arrival) (id home n : Nat) (r : BitVec 2) (key : Nat),
    let e := (s.coreAt a.home).bars.get .zero a.n
    let T := s.taskAt a.core a.slot
    let fill (x : RVal) (ps : List Pend) : List Pend := ps.map fun p => if p.val = .await id then { p with val := x } else p
    let filled (x : RVal) (t : State) : Prop := t.arrivals = rest ∧
      t.taskAt a.core a.slot = { T with inflight := fill x T.inflight, shadow := fill x T.shadow, hshadow := fill x T.hshadow }
    let tv : Word := .ofNat 64 (a.n + a.group * 2 ^ 16)
    let now := some s.cycle.toNat
    let mine : Prop := e.stat ≠ .idle ∧ e.owner = a.kernel ∧ e.group = a.group
    let bar (t : State) (x : Barrier) : Prop := (t.coreAt a.home).bars.get .zero a.n = x ∧
      ∀ h m, (h, m) ≠ (a.home, a.n) → (t.coreAt h).bars.get .zero m = (s.coreAt h).bars.get .zero m
    let b := (s.coreAt home).bars.get .zero n
    let w := s.tasks.get .empty key
    let waits (g : Nat) (t : Task) : Prop := t.stat = .sleeping ∧ t.wait = .barrier home n g ∧ g < 2 ^ 16
    (s.arrivals = [] → Completes .barrierArrival s (fun t => t = s)) ∧
    (s.arrivals = a :: rest → s.arrivalFree a = true → a.reached = none → a.id = some id → T.stat ≠ .free →
      T.place.kernel = a.kernel → T.kept = .none → T.wait = .none → (∀ b ∈ rest, s.arrivalFree b = false ∧ b.reached = none) →
      e.busy ≠ some s.cycle.toNat →
      (¬ mine → Completes .barrierArrival s (fun t => filled (.late 0x125 tv) t ∧ bar t e)) ∧
      (mine → e.stat = .broken → Completes .barrierArrival s (fun t => filled (.late 0x123 tv) t ∧ bar t { e with busy := now })) ∧
      (mine → e.stat ≠ .broken → e.arrived + 1 ≠ e.count → Completes .barrierArrival s (fun t =>
        filled (.ready ((BitVec.ofNat 64 e.gen).setWidth 2048)) t ∧
        ∃ ms, bar t { e with stat := .waiting, arrived := e.arrived + 1, members := ms, busy := now } ∧
          ∀ m, m ∈ ms ↔ m ∈ e.members ∨ m = taskKey a.core a.slot)) ∧
      (mine → e.stat ≠ .broken → e.arrived + 1 = e.count → Completes .barrierArrival s (fun t =>
        filled (.ready ((BitVec.ofNat 64 e.gen).setWidth 2048)) t ∧
        bar t { e with
          stat := .released, gen := (e.gen + 1) % 2 ^ 16, arrived := 0, members := [], since := s.cycle.toNat, busy := now }))) ∧
    (s.breaks home n r.toNat = false → Completes (.barrierBreak home n r) s (fun t => t = s)) ∧
    (b.busy = now → Completes (.barrierBreak home n r) s (fun t => t = s)) ∧
    (s.breaks home n r.toNat = true → b.busy ≠ now → Completes (.barrierBreak home n r) s (fun t =>
      (t.coreAt home).bars.get .zero n = { b with stat := .broken, reason := r.toNat, busy := now } ∧
      (∀ g, waits g w → t.tasks.get .empty key = { w with stat := .ready, wait := .none, woke := !w.trap.cause.getLsbD 63
                                                          events := w.events ++ [⟨0x123, .ofNat 64 (n + b.group * 2 ^ 16)⟩] }) ∧
      ((∀ g, ¬ waits g w) → t.tasks.get .empty key = w)))

/-- The queue commands, the doorbell and the ends of a graph (R200 to R203, R216): each command moves the queue as the table of R203
states and sets BADCMD in any other state, in a context in ERROR or in a module in ERROR (the last by log 71), and does nothing in
BOOTFAIL; QBASE and QCFG take writes while DISABLED; a doorbell sets
TAIL or BADDB; a graph starts, is refused for what its nodes break (R204, R205), or runs; HALTING ends as HALTED. -/
def Obligations.QueueCommandsMoveQueues : Prop :=
  ∀ (s : State) (c : BitVec 4) (q : BitVec 6) (v : Word) (g : Graph) (ls : List Loc) (i run : Nat),
    let x := s.queueAt c.toNat q.toNat
    let st := (s.ctxAt c.toNat).stat
    let reset : Prop := s.modstat.phase = 1
    let admits : Prop := ¬ reset ∧ s.modstat.phase ≠ 5
    let becomes (j : Instr) (y : HostQueue) : Prop := Completes j s (fun t => t = s.setQueue c.toNat q.toNat y)
    let bad (j : Instr) : Prop := ¬ reset → becomes j { x with badcmd := true }
    let size := 2 ^ x.cfg.f 3 0
    let go : Prop := st = .active
    let stays : Prop := Completes (.graphStart c q) s (fun t => t = s)
    let u := s.schedUnit c.toNat q.toNat 2047
    let va : Word := x.base + .ofNat 64 (32 * x.head)
    let entry := s.wordsAt ls 4
    let s1 := s.withMem s.mem (s.nextId + 1)
    let later (j : Instr) (y : HostQueue) : Prop := Completes j s (fun t => t = s1.setQueue c.toNat q.toNat y)
    let halts (cause node : Nat) (t : State) : Prop := let y := t.queueAt c.toNat q.toNat
      y.stat = .halting ∧ y.cause = cause ∧ y.node = node ∧ y.head = x.head ∧ s.keeps t
    bad (.qcmdUndefined c q) ∧
    (reset → (∀ j ∈ [Instr.qcmdUndefined c q, .queueEnable c q, .queueDisable c q, .queueSkip c q, .queueConfigWrite c q true v,
      .queueConfigWrite c q false v, .doorbell c q v], Completes j s (fun t => t = s)) ∧ Completes (.queueRetry c q) s (fun t => t = s1)) ∧
    (s.modstat.phase = 5 → bad (.queueEnable c q) ∧ bad (.queueDisable c q) ∧ bad (.queueSkip c q) ∧
      later (.queueRetry c q) { x with badcmd := true }) ∧
    (admits → st ≠ .error → x.stat = .disabled → 1 ≤ x.cfg.f 3 0 → x.cfg.f 3 0 ≤ 12 →
      becomes (.queueEnable c q) { x with head := x.tail, stat := .idle }) ∧
    (st = .error ∨ x.stat ≠ .disabled ∨ x.cfg.f 3 0 = 0 ∨ 12 < x.cfg.f 3 0 → bad (.queueEnable c q)) ∧
    (admits → x.stat = .halted → becomes (.queueDisable c q) { x with stat := .disabled }) ∧
    (admits → x.stat = .running → becomes (.queueDisable c q) { x with off := true }) ∧
    (admits → x.stat = .idle → Completes (.queueDisable c q) s (fun t =>
      t.queueAt c.toNat q.toNat = { x with stat := .disabled, graph := none } ∧ t.tasks = s.tasks ∧ s.keeps t)) ∧
    (x.stat = .disabled ∨ x.stat = .halting → bad (.queueDisable c q)) ∧
    (admits → st ≠ .error → x.stat = .halted →
      later (.queueRetry c q) { x with stat := .running, graph := some (.start s.nextId) } ∧
      becomes (.queueSkip c q) { x with stat := .idle, head := (x.head + 1) % size }) ∧
    (¬ reset → st = .error ∨ x.stat ≠ .halted → later (.queueRetry c q) { x with badcmd := true } ∧ bad (.queueSkip c q)) ∧
    (¬ reset → x.stat = .disabled → becomes (.queueConfigWrite c q true v) { x with cfg := x.cfg.merge v 0xCF } ∧
      becomes (.queueConfigWrite c q false v) { x with base := x.base.merge v (maskF 56 5) }) ∧
    (x.stat ≠ .disabled → ∀ b, bad (.queueConfigWrite c q b v)) ∧
    (¬ reset → v.f 63 12 ≠ 0 ∨ size ≤ v.f 11 0 → becomes (.doorbell c q v) { x with baddb := true }) ∧
    (v.f 63 12 = 0 → v.f 11 0 < size → st = .free ∨ st = .draining → Completes (.doorbell c q v) s (fun t => t = s)) ∧
    (v.f 63 12 = 0 → v.f 11 0 < size → st ≠ .free → st ≠ .draining → ¬ reset → becomes (.doorbell c q v) { x with tail := v.f 11 0 }) ∧
    (¬ go ∨ x.stat ∉ [.idle, .running] → stays) ∧
    (go → x.stat = .idle → x.graph = none → x.head = x.tail → stays) ∧
    (go → x.stat = .idle → x.graph = none → x.head ≠ x.tail →
      later (.graphStart c q) { x with graph := some (.start s.nextId) }) ∧
    (go → x.stat = .idle → x.graph = some (.start run) → ls.length = 32 → s.opens u c.toNat va .read ls →
      later (.graphStart c q) { x with graph := some { Graph.start run with entry := entry } }) ∧
    (go → x.stat = .idle → x.graph = some g → g.entry ≠ [] → g.stored = false →
      (s.nextStored = some (64 * c.toNat + q.toNat) → s.storeUsed + g.nnodes ≤ 16384 →
        becomes (.graphStart c q) { x with stat := .running, graph := some { g with stored := true } }) ∧
      (s.nextStored ≠ some (64 * c.toNat + q.toNat) ∨ 16384 < s.storeUsed + g.nnodes → stays)) ∧
    (go → x.stat = .running → x.graph = some g → g.entry ≠ [] → g.stored = true → g.loaded = false →
      (g.nodes.length < g.nnodes → g.hold = none → ls.length = 64 →
        s.opens u c.toNat (.ofNat 64 ((g.entry.getD 0 0).f 56 6 * 64 + 64 * g.nodes.length)) .read ls →
        Completes (.graphStart c q) s (fun t => t = s1.setQueue c.toNat q.toNat
          { x with graph := some { g with nodes := g.nodes ++ [.new (s.wordsAt ls 8)] } })) ∧
      (g.nnodes ≤ g.nodes.length →
        (g.firstBad = none → becomes (.graphStart c q) { x with graph := some { g with loaded := true } }) ∧
        (g.firstBad = some i → Completes (.graphStart c q) s (halts 0x117 i)))) ∧
    (x.stat = .halting → (∀ g, x.graph = some g → ∀ n ∈ g.nodes, n.stat = .idle ∨ n.stat = .done) →
      becomes (.graphHaltComplete c q) { x with stat := if x.off then .disabled else .halted, off := false, graph := none }) ∧
    (x.stat ≠ .halting → Completes (.graphHaltComplete c q) s (fun t => t = s))

/-- The nodes of a graph (R206 to R214): a node other than a kernel node starts only where it is the one chosen next; a kernel node's record is
read and checked as soon as the node is ready, before it is the one chosen (the model's choice, log 48), and is posted once it is,
which is where the level-0 pool has room; the node is complete when its kernel retires; a copy node reads and writes bytes; a signal node
stores or adds its operand; wait, conditional and loop nodes test the word they read; a loop that reaches MAXIT sets
QSTAT.LIMIT; the end node adds 1 to DONE and advances HEAD. -/
def Obligations.GraphNodesRun : Prop :=
  ∀ (s : State) (c : BitVec 4) (q : BitVec 6) (i : Nat) (g : Graph) (n : GNode) (ls ld : List Loc) (id : Nat) (kn : Kernel),
    let key := 64 * c.toNat + q.toNat
    let x := s.queueAt c.toNat q.toNat
    let u := s.schedUnit c.toNat q.toNat i
    let active : Prop := x.stat = .running ∧ (s.ctxAt c.toNat).stat = .active
    let s1 := s.withMem s.mem (s.nextId + 1)
    let reads (j : Instr) (m : GNode) : Prop := Completes j s (fun t => t = s1.setNode c.toNat q.toNat i m)
    let halts (cause : Nat) (t : State) : Prop := let y := t.queueAt c.toNat q.toNat
      y.stat = .halting ∧ (x.stat = .running → y.cause = cause ∧ y.node = i) ∧ y.head = x.head ∧ s.keeps t
    let word (k : Nat) : Word := n.words.getD k 0
    let opA := word 1
    let opB := word 2
    let opC := word 3
    let w : Word := .ofNat 64 (s.bytesAt ls)
    let test : Prop := match opC.f 2 0 with
      | 0 => w = opB | 1 => w ≠ opB | 2 => opB.toNat ≤ w.toNat | _ => w.toNat < opB.toNat
    let read8 : Prop := n.hold = none ∧ ls.length = 8 ∧ s.opens u c.toNat opA .read ls
    let now := s.cycle.toNat
    let inside (j : Nat) : Prop := i < j ∧ j ≤ (word 0).f 9 0
    let node (t : State) (j : Nat) : Option GNode := (t.queueAt c.toNat q.toNat).graph.bind fun g => g.nodes[j]?
    let marks (j : Instr) (m : GNode) (f : GNode → GNode) : Prop := Completes j s (fun t => node t i = some m ∧ s.keeps t ∧
      (∀ k, inside k → k < g.nodes.length → node t k = (g.nodes[k]?).map f) ∧ ∀ k, ¬ inside k → k ≠ i → node t k = g.nodes[k]?)
    let closed : Prop := ∀ k, inside k → k < g.nodes.length → ∃ m : GNode, g.nodes[k]? = some m ∧ m.stat = .done
    let finished (m : GNode) : GNode := { m with stat := .done }
    let src : Word := opA + .ofNat 64 n.moved
    let dst : Word := opB + .ofNat 64 n.moved
    let cut := transferCut src.toNat dst.toNat (opC.toNat - n.moved)
    let at_ : Word := src + .ofNat 64 n.buf.length
    let moved := { n with buf := n.buf.drop cut.1, moved := n.moved + cut.1, stat := if opC.toNat ≤ n.moved + cut.1 then .moved else .busy }
    let quiet : Prop := s.sideOf u = [] ∧ ∀ p ∈ s.e2eSrc, p.2.unacked = [] ∧ p.2.waiting = []
    let kind := (word 0).f 63 60
    let again (n : GNode) : GNode := if opC.f 63 32 ≠ 0 ∧ n.iter = opC.f 63 32 then { n with stat := .done, hold := none } else { n with stat := .busy }
    let limits (j : Instr) : Prop := Completes j s (fun t =>
      (t.queueAt c.toNat q.toNat).limit = (x.limit || decide (opC.f 63 32 ≠ 0 ∧ n.iter = opC.f 63 32)))
    x.graph = some g → g.nodes[i]? = some n → g.loaded = true → x.stat = .running ∨ x.stat = .halting → s.unitErrs = [] →
    (n.stat = .idle → s.nextNode ≠ some (key, i) → kind ≠ 0 ∨ g.ready i = false ∨ ¬ active → ∀ j ∈ [Instr.kernelNode c q i, .kernelNodeAdmit c q i, .copyNode c q i,
      .signalNode c q i, .waitNodeRead c q i, .conditionalNode c q i, .loopNodeEvaluate c q i], Completes j s (fun t => t = s)) ∧
    (kind = 0 →
      (n.stat = .busy ∨ n.stat = .idle ∧ g.ready i = true ∧ active → n.hold = none → ls.length = 160 →
        s.opens u c.toNat opA .read ls →
        (∀ e, checkRec s.part (s.ctxAt c.toNat) (s.wordsAt ls 20) opA.toNat 0 = some e → Completes (.kernelNode c q i) s (halts e)) ∧
        (checkRec s.part (s.ctxAt c.toNat) (s.wordsAt ls 20) opA.toNat 0 = none →
          reads (.kernelNode c q i) { n with hold := none, stat := .checked, rec_ := s.wordsAt ls 20 })) ∧
      (n.stat = .checked → s.nextNode ≠ some (key, i) → Completes (.kernelNodeAdmit c q i) s (fun t => t = s)) ∧
      (n.stat = .checked → s.nextNode = some (key, i) → Completes (.kernelNodeAdmit c q i) s (fun t => node t i = some { n with stat := .posted, kernel := some s.nextId } ∧
          t.kernels.get? s.nextId = some ⟨c.toNat, n.rec_, .posted,
            2 ^ (n.rec_.getD 1 0).f 34 32 * 2 ^ (n.rec_.getD 1 0).f 31 29, 0, some (key, i), now + 48⟩ ∧
          s.keeps t)) ∧
      (n.stat = .posted → n.kernel = some id → s.kernels.get? id = some kn → kn.stat = .retired → Completes (.kernelNode c q i) s (fun t =>
        node t i = some { n with stat := .done, hold := none } ∧ t.kernels = s.kernels.del id ∧ s.keeps t))) ∧
    (kind = 1 → n.stat = .busy → n.moved < opC.toNat →
      (n.buf.length < cut.2 → n.hold = none → ls.length = Nat.min (cut.2 - n.buf.length) (256 - at_.toNat % 256) →
        s.opens u c.toNat at_ .read ls → reads (.copyNode c q i) { n with buf := n.buf ++ ls.map fun l => (s.mem.rd l, false) }) ∧
      (cut.2 ≤ n.buf.length → ld.length = cut.1 → s.opens u c.toNat dst .write ld → (∀ b ∈ n.buf, b.2 = false) →
        Completes (.copyNode c q i) s (fun t => s.stores t ld ((n.buf.take cut.1).map (·.1)) ∧ node t i = some moved))) ∧
    ((kind = 1 ∨ kind = 2) → n.stat = .moved → quiet → Completes (.copyNodeComplete c q i) s (fun t =>
      t = s.setNode c.toNat q.toNat i { n with stat := .done, hold := none })) ∧
    (kind = 2 → n.stat = .busy → n.hold = none → ls.length = 8 →
      (opC.b 4 = false → s.opens u c.toNat opA .write ls → Completes (.signalNode c q i) s (fun t =>
        s.stores t ls (toBytes 8 opB.toNat) ∧ node t i = some { n with stat := .moved })) ∧
      (opC.b 4 = true → s.opens u c.toNat opA .atomic ls → (∀ l ∈ ls, ∀ a, l ≠ .host a) → Completes (.signalNode c q i) s (fun t =>
        s.stores t ls (toBytes 8 (w + opB).toNat) ∧ node t i = some { n with stat := .moved, hold := none }))) ∧
    (kind = 3 →
      (n.stat = .busy → n.firstAt = none ∨ n.readAt + 1400 ≤ now → read8 →
        let m := { n with firstAt := some (n.firstAt.getD now), readAt := now, hold := none }
        (test → reads (.waitNodeRead c q i) { m with stat := .done }) ∧ (¬ test → reads (.waitNodeRead c q i) m)) ∧
      (∀ f, n.stat = .busy → n.firstAt = some f → x.stat = .running → opC.f 63 32 ≠ 0 →
        (f + opC.f 63 32 * 1400 ≤ now → Completes (.waitNodeTimeout c q i) s (halts 0x118)) ∧
        (now < f + opC.f 63 32 * 1400 → Completes (.waitNodeTimeout c q i) s (fun t => t = s)))) ∧
    (kind = 4 →
      (n.stat = .busy → read8 → (test → reads (.conditionalNode c q i) { n with hold := none, stat := .range }) ∧
        (¬ test → marks (.conditionalNode c q i) { n with hold := none, stat := .done } finished)) ∧
      (n.stat = .range → (word 0).f 9 0 < g.nodes.length → closed → marks (.conditionalNode c q i) { n with hold := none, stat := .done } (fun m => m))) ∧
    (kind = 5 →
      (n.stat = .busy → opC.b 8 = true → marks (.loopNodeEvaluate c q i) { n with stat := .range, iter := n.iter + 1 } (fun m => .new m.words)) ∧
      (n.stat = .busy → opC.b 8 = false → read8 →
        (test → marks (.loopNodeEvaluate c q i) { n with hold := none, stat := .range, iter := n.iter + 1 } (fun m => .new m.words)) ∧
        (¬ test → marks (.loopNodeEvaluate c q i) { n with hold := none, stat := .done } finished)) ∧
      (n.stat = .range → (word 0).f 9 0 < g.nodes.length → closed →
        (opC.b 8 = true → marks (.loopNodeEvaluate c q i) { n with stat := .moved } (fun m => m)) ∧
        (opC.b 8 = false → marks (.loopNodeEvaluate c q i) (again n) (fun m => m) ∧ limits (.loopNodeEvaluate c q i))) ∧
      (n.stat = .moved → read8 →
        (test → closed → marks (.loopNodeEvaluate c q i) (again { n with hold := none }) (fun m => m) ∧
          limits (.loopNodeEvaluate c q i)) ∧
        (¬ test → marks (.loopNodeEvaluate c q i) { n with hold := none, stat := .done } finished))) ∧
    (kind = 6 → i + 1 = g.nodes.length → n.stat = .busy → n.hold = none →
      let ended (t : State) : Prop := t.queueAt c.toNat q.toNat =
        { x with stat := if x.off then .disabled else .idle, off := false, graph := none, head := (x.head + 1) % 2 ^ x.cfg.f 3 0 }
      (g.entry.getD 2 0 = 0 → Completes (.endNode c q) s (fun t => ended t ∧ s.keeps t)) ∧
      (g.entry.getD 2 0 ≠ 0 → ls.length = 8 → s.opens u c.toNat (g.entry.getD 2 0) .atomic ls → (∀ l ∈ ls, ∀ a, l ≠ .host a) →
        Completes (.endNode c q) s (fun t => ended t ∧ s.stores t ls (toBytes 8 (w + 1).toNat))))

/-- The COLL commands (R221, R404 to R409, R414): a misaligned block raises 0x08C and one without a translation its cause; else the
COLL goes to the herder and its result is awaited. The herder waits for what the task issued before, reads the block, then the
vector or the program, 256 bytes at a time: a malformed block, or one that names no context of this one's, ends it with a late
0x141, a program for an absent rotor with 0x140, a quota used up with 0x142; else OPEN takes the lowest free collective context,
RUN starts or queues its program, SHRINK and JOIN record a change for a round to come, CATCH begins the replay, CLOSE frees, and
the result takes the code. That herder 0 reads the block and serves OPEN, and that of the codes of RUN that apply the first of 5, 4,
1, 2 is given, is the model's choice (log 53). -/
def Obligations.CollCommandResults : Prop :=
  ∀ (s : State) (d a : BitVec 6) (q : CollCmd) (c n : Nat) (ls : List Loc) (bs : List Byte),
    let va := s.task.gReg a.toNat
    let all : List (Nat × Instr) :=
      [(0, .collOpen d a), (1, .collRun d a), (2, .collShrink d a), (3, .collJoin d a), (4, .collCatch d a), (5, .collClose d a)]
    let T := s.taskAt q.core q.slot
    let waits : Prop := T.stat ≠ .free ∧ T.place.kernel = q.kernel ∧ .await q.id ∈ T.inflight.map Pend.val
    let ends (t : State) (cs : Tab Coll) (v : RVal) : Prop :=
      t.colls = cs ∧ t.collCmds = s.collCmds.filter (fun x => x.id ≠ q.id) ∧ (∀ l, t.mem.rd l = s.mem.rd l) ∧
      (∀ k, k ≠ taskKey q.core q.slot → t.tasks.get .empty k = s.tasks.get .empty k) ∧
      let r := t.taskAt q.core q.slot
      r.inflight = T.inflight.map (fun p => if p.val = .await q.id then { p with val := v } else p) ∧ r.regs = T.regs ∧ r.latch = T.latch
    let reply (t : State) (cs : Tab Coll) (v : Nat) : Prop := ends t cs (.ready (.ofNat 2048 (v % 2 ^ 64)))
    let fails (t : State) (cause : Nat) : Prop := ends t s.colls (.late cause 0)
    let goesOn (t : State) (x : CollCmd) : Prop := t.colls = s.colls ∧ t.tasks = s.tasks ∧ (∀ l, t.mem.rd l = s.mem.rd l) ∧
      t.collCmds = s.collCmds.map (fun y => if y.id = q.id then x else y)
    let gets (u : UnitId) (va : Word) (n : Nat) : Prop := bs.length = n ∧
      (s.answers.get? q.id = some (.data (bs.map fun b => (b, false))) ∨
        (s.answers.get? q.id = none ∧ (∀ h ∈ s.held, h.id ≠ q.id) ∧ ls.length = n ∧ s.opens u q.ctx va .read ls ∧ bs = ls.map s.mem.rd ∧
          (q.stage = 0 → q.parts = (s.withParts (Held.new q.id u q.ctx (.raw va n) 0 0)).parts)))
    let w (b : List Word) (k : Nat) : Word := b.getD k 0
    let arg (b : List Word) := (w b 0).f 31 0
    let at_ (b : List Word) (k : Nat) := (w b k).f 56 0
    let cc (b : List Word) := (w b 0).f 41 36
    let k (b : List Word) := s.collAt (cc b)
    let bad (b : List Word) : Prop :=
      (w b 0).f 47 42 ≠ 0 ∨ (w b 0).f 35 32 ≠ 0 ∨ (∃ k ∈ [1, 2, 3], (w b k).f 63 57 ≠ 0) ∨ (∃ k ∈ [4, 5, 6, 7], w b k ≠ 0) ∨
      (q.op = 0 ∧ (let l := arg b / 2 ^ 8 % 2 ^ 8
        arg b / 2 ^ 16 % 2 ^ 8 ≠ 0 ∨ arg b % 2 ^ 8 ≠ 0 ∨ (l ≠ 0 ∧ (l < 16 ∨ 40 < l ∨ at_ b 3 % 2 ^ l ≠ 0)) ∨ at_ b 1 % 64 ≠ 0 ∨
          at_ b 2 % 64 ≠ 0 ∨ ∃ kc ∈ s.colls, kc.2.stat ≠ .free ∧ kc.2.ctx = q.ctx ∧ kc.2.gid = (w b 0).f 63 48)) ∨
      (q.op ≠ 0 ∧ ((k b).stat = .free ∨ (k b).ctx ≠ q.ctx)) ∨ (q.op = 1 ∧ (arg b = 0 ∨ 256 < arg b ∨ at_ b 1 % 32 ≠ 0))
    let t := s.cmdGo q
    (va.toNat % 64 ≠ 0 → s.canTrap → ∀ i ∈ all, Completes i.2 s (fun t => Raises s t false 0x08C (addrVal va))) ∧
    (va.toNat % 64 = 0 → (s.lookU (.core s.iss.core s.iss.slot s.task.place.kernel) s.task.place.ctx va .read).1 = .xlat c →
      s.iss.core < 1024 → s.canTrap → c ≠ 0x089 →
      ∀ i ∈ all, Completes i.2 s (fun t => Raises (s.withMem s.mem (s.nextId + 1)) t false c (addrVal va))) ∧
    (va.toNat % 64 = 0 → ls.length = 64 → s.spans va .read ls → ∀ i ∈ all, Completes i.2 s (fun t =>
      (∃ parts, t.collCmds = s.collCmds ++ [⟨s.nextId, s.iss.core, s.iss.slot, s.task.place.kernel, s.task.place.ctx, i.1, s.iss.pos,
        s.iss.pc, va, 0, [], [], parts⟩]) ∧
      t.task = { s.task with inflight := s.task.inflight ++ [⟨gDest d, .await s.nextId, 48, s.iss.pos, s.iss.pc, false⟩] } ∧
      t.iss = s.iss ∧ t.colls = s.colls ∧ ∀ l, t.mem.rd l = s.mem.rd l)) ∧
    ((s.taskOf q.core q.slot q.kernel).awaits q.id = false →
      t.collCmds = s.collCmds.filter (fun x => x.id ≠ q.id) ∧ t.colls = s.colls ∧ t.tasks = s.tasks) ∧
    (waits → q.stage = 0 →
      ((s.older (.core q.core q.slot q.kernel) q.id).clear = false → t = s) ∧
      ((s.older (.core q.core q.slot q.kernel) q.id).clear = true → gets (.coll 0) q.va 64 →
        let b : List Word := (List.range 8).map fun k => .ofNat 64 (ofBytes ((bs.drop (8 * k)).take 8))
        (bad b → fails t 0x141) ∧
        (¬ bad b → q.op ≤ 3 → goesOn t { q with stage := 1, block := b }) ∧
        (¬ bad b → (k b).stat = .idle ∨ (k b).stat = .halted →
          (q.op = 4 → reply t (s.colls.put (cc b) { k b with
            stat := .catching, snap := arg b, donor := (w b 1).f 11 0, join := (w b 2).f 31 0, since := s.cycle.toNat, reason := 0
            cause := 0, failed := 0 }) 0) ∧
          (q.op = 5 → reply t (s.colls.del (cc b)) 0)) ∧
        (¬ bad b → (k b).stat = .running ∨ (k b).stat = .catching → 4 ≤ q.op → reply t s.colls 5))) ∧
    (waits → q.stage = 1 → q.op ≤ 3 →
      let b := q.block
      let left := (if q.op = 1 then 32 * arg b else 512) - q.buf.length
      let u := UnitId.coll (if q.op = 0 then 0 else cc b % 8)
      let all := q.buf ++ bs
      let addr : Word := .ofNat 64 (at_ b 1) + .ofNat 64 q.buf.length
      let ranks : List Nat := (List.range 4096).filter fun r => (all.getD (r / 8) 0).getLsbD (r % 8)
      let mine := (s.colls.filter fun kc => kc.2.stat ≠ .free ∧ kc.2.ctx = q.ctx).length
      let prog : List (List Word) := (List.range (arg b)).map fun i => (List.range 4).map fun j =>
        .ofNat 64 (ofBytes ((all.drop (32 * i + 8 * j)).take 8))
      let r := ((k b).cur + 1) % 2 ^ 32
      (256 < left → gets u addr 256 → goesOn t { q with buf := all }) ∧
      (0 < left → left ≤ 256 → gets u addr left →
        (bad b → fails t 0x141) ∧
        (¬ bad b → q.op = 0 →
          (s.part.module ∉ ranks → fails t 0x141) ∧
          (s.part.module ∈ ranks → (s.ctxAt q.ctx).herd ≤ mine → fails t 0x142) ∧
          (s.part.module ∈ ranks → mine < (s.ctxAt q.ctx).herd → (∀ c < 64, (s.collAt c).stat ≠ .free) → reply t s.colls (2 ^ 63)) ∧
          (s.part.module ∈ ranks → mine < (s.ctxAt q.ctx).herd → n < 64 → (s.collAt n).stat = .free →
            (∀ c < n, (s.collAt c).stat ≠ .free) → reply t (s.colls.put n { Coll.zero with
              stat := .idle, ctx := q.ctx, gid := (w b 0).f 63 48, members := ranks, status := .ofNat 64 (at_ b 2)
              log := .ofNat 64 (at_ b 3), logl2 := arg b / 2 ^ 8 % 2 ^ 8, tmo := arg b / 2 ^ 24 % 2 ^ 8 }) n)) ∧
        (¬ bad b → q.op = 2 ∨ q.op = 3 →
          (arg b ≤ (k b).cur → reply t s.colls 3) ∧
          ((k b).cur < arg b → reply t (s.colls.put (cc b) { k b with
            changes := (k b).changes ++ [(arg b, decide (q.op = 2), ranks)] }) 0)) ∧
        (¬ bad b → q.op = 1 →
          (progBad (prog.map cstep) = true → fails t 0x141) ∧
          (progBad (prog.map cstep) = false → s.part.hasRotor = false → progRotor (prog.map cstep) = true → fails t 0x140) ∧
          (progBad (prog.map cstep) = false → s.part.hasRotor = true ∨ progRotor (prog.map cstep) = false →
            let x := k b
            let member : Prop := s.part.module ∈ x.membersAt r
            let busy : Prop := x.stat = .running ∧ (x.queued ≠ none ∨ x.fin = some .halted)
            let full : Prop := 2048 < s.stepsHeld (cc b) + arg b
            let code (v : Nat) : Prop := reply t s.colls (r * 2 ^ 32 + v)
            (x.stat = .catching → code 5) ∧
            (x.stat ≠ .catching → ¬ member → code 4) ∧
            (x.stat ≠ .catching → member → busy → code 1) ∧
            (x.stat ≠ .catching → member → ¬ busy → full → code 2) ∧
            (x.stat = .running → member → ¬ busy → ¬ full → reply t (s.colls.put (cc b) { x with queued := some prog }) (r * 2 ^ 32)) ∧
            (x.stat = .idle ∨ x.stat = .halted → member → ¬ full → (∀ p ∈ s.tgtWait, ∀ m, p.op ≠ .coll m) → ∃ y : Coll, reply t (s.colls.put (cc b) y) (r * 2 ^ 32) ∧
              y.stat = .running ∧ y.prog = prog ∧ y.pc = 0 ∧ y.begun = false ∧ y.cnt = [0, 0, 0, 0] ∧ y.round = x.round ∧
              y.members = x.membersAt r ∧ y.fin = none)))))


/-! ### Traps, pre-emption and watchdogs (R174 to R184, R218 to R237) -/

/-- What a task takes before its next bundle (R218, R220, R221, R223, R226, R237): a due late cause, then outside a handler the
oldest report, then the lowest event. The record names its kind, the loop depth, the pc (that of its wait where an event
ended it, with the branch whose delay bundle that is) and the slots that have committed; the results in flight move to the shadow buffer; the latches read zero. Without a
handler the context enters ERROR or quiesces. A handler that TRAPI asked for is entered first. A task off issue, or on a frozen
or gated core, takes nothing. -/
def Obligations.PendingTrapsAreTaken : Prop :=
  ∀ (s : State) (core slot : Nat) (r : Report) (p : Pend) (cause : Nat) (tv : Word),
    let T := s.taskAt core slot
    let free : Prop := (T.stat = .ready ∨ T.stat = .issuing) ∧ s.coreFrozen core = false ∧ s.gatedCore core = false ∧
      core < 1024 ∧ T.replay = false ∧ T.entering = false ∧ T.jumpErr = none
    let awake : Prop := free ∧ T.lateDue = none ∧ T.inTrap = false
    let taken (kind late cause : Nat) (tv : Word) (mask : Nat) (ipc : Word) (inflight : List Pend) (t : State) : Prop :=
      let n := t.taskAt core slot
      let pc : Word := if T.woke then T.waitPc else T.pc
      ((∀ f, T.delay ≠ .taken f) → (T.woke = true → T.waitFlow = none) →
        n.trap.cause = .ofNat 64 (2 ^ 63 + kind * 2 ^ 60 + late * 2 ^ 59 + T.loops.length * 2 ^ 53 + cause) ∧ n.trap.tgt = 0) ∧
      (∀ f, T.delay = .taken f → T.woke = false →
        n.trap.cause = .ofNat 64 (2 ^ 63 + 2 ^ 62 + kind * 2 ^ 60 + late * 2 ^ 59 + f.pops * 2 ^ 56 + T.loops.length * 2 ^ 53 + cause) ∧
        n.trap.tgt = f.tgt &&& .ofNat 64 (maskF 56 4)) ∧
      (∀ f ls, T.woke = true → T.waitFlow = some (f, ls) →
        n.trap.cause = .ofNat 64 (2 ^ 63 + 2 ^ 62 + kind * 2 ^ 60 + late * 2 ^ 59 + f.pops * 2 ^ 56 + ls.length * 2 ^ 53 + cause) ∧
        n.trap.tgt = f.tgt &&& .ofNat 64 (maskF 56 4) ∧ n.loops = ls) ∧
      n.trap.pc = pc &&& .ofNat 64 (maskF 56 4) ∧
      n.trap.slots = .ofNat 64 ((if T.skip ≠ 0 then T.skip.toNat else if T.woke then 14 else 0) * 16 + mask) ∧
      n.trap.val = tv ∧ n.trap.ipc = ipc ∧ n.trap.vec = T.trap.vec ∧ n.trap.scr0 = T.trap.scr0 ∧ n.trap.scr1 = T.trap.scr1 ∧
      n.pc = T.trap.vec &&& .ofNat 64 (maskF 56 4) ∧ n.delay = .no ∧ n.skip = 0 ∧ n.latch = .zero ∧ n.inflight = [] ∧
      (∃ ps : List Pend, n.shadow = T.shadow ++ ps ∧ (inflight = [] → ps = []) ∧
        ∀ q ∈ inflight, q.dest ≠ .qAll → q.dest.atDrain = false → { q with again := true } ∈ ps) ∧
      n.regs = T.regs ∧ ((T.woke = true → T.waitFlow = none) → n.loops = T.loops) ∧ n.stat = T.stat ∧ ((∀ q ∈ T.inflight, q.dest.atDrain = false) → n.tile = T.tile) ∧
      (t.coreAt core).mono = 0 ∧ (t.coreAt core).pauseTill = (s.coreAt core).lastAt + 2 ∧
      (∀ k, k ≠ taskKey core slot → t.tasks.get .empty k = s.tasks.get .empty k) ∧ ∀ l, t.mem.rd l = s.mem.rd l
    (¬ (T.stat = .ready ∨ T.stat = .issuing) ∨ s.coreFrozen core = true ∨ s.gatedCore core = true →
      Completes (.takePendingTrap core slot) s (fun t => t = s)) ∧
    ((T.stat = .ready ∨ T.stat = .issuing) → s.coreFrozen core = false → s.gatedCore core = false → T.entering = true →
      Completes (.takePendingTrap core slot) s (fun t =>
        let n := t.taskAt core slot
        n.entering = false ∧ n.pc = T.pc ∧ n.trap = T.trap ∧ n.latch = .zero ∧ n.inflight = [] ∧ n.regs = T.regs ∧
          ∀ q ∈ T.inflight, q.dest ≠ .qAll → q.dest.atDrain = false → { q with again := true } ∈ n.shadow)) ∧
    (awake → T.reports = [] → T.events = [] → T.pre = none → Completes (.takePendingTrap core slot) s (fun t => t = s)) ∧
    (awake → T.reports = r :: T.reports.drop 1 → T.hasHandler = true → r.cause ≠ 0x158 → r.cause ≠ 0x15A →
      Completes (.takePendingTrap core slot) s (fun t => taken 1 0 r.cause r.tval 0 0 T.inflight t ∧
        (t.taskAt core slot).reports = T.reports.drop 1 ∧ (t.taskAt core slot).events = T.events)) ∧
    (awake → T.reports = [] → r ∈ T.events → r.cause ≠ 0x158 → r.cause ≠ 0x15A → (∀ x ∈ T.events, x ≠ r → r.cause < x.cause) →
      (r.cause = 0x120 → T.delay = .no) → T.hasHandler = true →
      Completes (.takePendingTrap core slot) s (fun t => taken 2 0 r.cause r.tval 0 0 T.inflight t ∧
        (t.taskAt core slot).reports = [] ∧ (t.taskAt core slot).events = T.events.erase r)) ∧
    (free → T.inflight.find? (fun q => q.left ≤ 1 && q.isLate) = some p → p.val = .late cause tv → T.inTrap = false →
      T.hasHandler = true → cause ≠ 0x158 → cause ≠ 0x15A →
      Completes (.takePendingTrap core slot) s (fun t =>
        taken 0 1 cause tv (2 ^ p.slot) (p.pc &&& .ofNat 64 (maskF 56 4)) (T.inflight.erase p) t)) ∧
    (awake → T.reports = r :: T.reports.drop 1 → T.hasHandler = false → (s.ctxAt T.place.ctx).stat = .active →
      Completes (.takePendingTrap core slot) s (fun t => (t.taskAt core slot).stat = .held ∧
        (t.ctxAt T.place.ctx).stat = .quiescing ∧ (t.ctxAt T.place.ctx).toError = true ∧ (t.ctxAt T.place.ctx).cause = r.cause))

/-- Pre-emption (R228 to R236): PREEMPT marks the task it names; at its next landing point, or 2^20 clk after the request, and not
while a freeze is in force unless it sleeps, the task leaves issue, its results in flight go to the shadow buffer, its latches and hoisted loads are lost and its save begins;
the save waits for the slot's tile tasks, fails with 0x129 without a save area, and ends with the slot free; a HELD task of an
ACTIVE context goes on where it stood.
The two watchdogs of a core (R174, R178, R179): 2^24 clk of issue by one task set TASKST bit 1 and post 0x120,
once until another hold or a trap entry; a freeze of FRZWD × 1,400 clk, FRZWD that of the task that holds issue, converts a task
outside a delay bundle: bit 2 is set and the task leaves the core. In a handler whose access a serviceable fault holds it is 0x128. -/
def Obligations.PreemptionAndWatchdogs : Prop :=
  (∀ (s : State) (v : Word) (core slot : Nat) (q : PreReq),
    let c := v.f 16 8
    let j := v.f 3 0
    let P := s.taskAt c j
    let T := s.taskAt core slot
    let left (t : State) : Prop :=
      t = { s.withTasks t.tasks with nextId := s.nextId + 1 } ∧
      (∀ k, k ≠ taskKey core slot → t.tasks.get .empty k = s.tasks.get .empty k) ∧
      let n := t.taskAt core slot
      n.stat = (if q.inPlace then .held else .offcore) ∧ n.pre = none ∧ n.hoist = [] ∧ n.latch = .lost ∧ n.saving = true ∧
        n.saveAt = 0 ∧ n.inflight = [] ∧ n.leftAt = s.nextId ∧ n.passes = 0 ∧ n.pc = T.pc ∧ n.regs = T.regs ∧ n.loops = T.loops ∧
        n.wait = T.wait ∧ n.trap = T.trap ∧ n.csr = T.csr ∧ ((∀ x ∈ T.inflight, x.dest.atDrain = false) → n.tile = T.tile) ∧
        (T.inTrap = false → T.replay = false → ∀ x ∈ T.inflight, x.dest ≠ .qAll → x.dest.atDrain = false → { x with again := true } ∈ n.shadow) ∧
        (T.inTrap = true → T.entering = false →
          ∀ x ∈ T.inflight, x.dest ≠ .qAll → x.dest.atDrain = false → { x with again := true } ∈ n.hshadow)
    let thaw : Prop := s.coreFrozen core = false ∧ s.gatedCore core = false ∧ (s.coreAt core).frozen = 0
    let turn : Prop := (T.stat = .ready ∨ T.stat = .issuing) ∧ T.wait = .none ∧ T.entering = false ∧ T.jumpErr = none ∧
      T.lateDue = none ∧ T.inTrap = false ∧ T.replay = false ∧ T.reports = [] ∧ T.events = [] ∧ T.delay = .no
    let busy : Prop := (∃ ed ∈ (s.coreAt core).deps, ed.2.slot = slot ∧ ed.2.kernel = T.place.kernel ∧ ∀ a b, ed.2.stat ≠ .failed a b) ∨
      ∃ w ∈ (s.coreAt core).rawSt, w.slot = slot ∧ w.kernel = T.place.kernel
    let u := UnitId.save core slot
    let whole : Prop := (savePieces ((s.saveRegions core slot T (T.stat == .held)).filter regionUsed)).length = T.saveAt
    let ready : Prop := T.stat = .held ∧ T.saving = false ∧ (s.ctxAt T.place.ctx).stat = .active ∧
      (∀ x ∈ T.shadow ++ T.hshadow, ∀ id, x.val ≠ .await id) ∧ T.fix = [] ∧ (1024 ≤ core → (s.rtAt (core - 1024) slot).stat = 1)
    (s.modstat.phase ≠ 1 → s.modstat.phase ≠ 5 → P.onCore = true → P.stat ≠ .ending → P.place.ctx = v.f 23 20 → P.pre = none → Completes (.preempt v) s (fun t =>
      t.taskAt c j = { P with pre := some ⟨false, true, s.cycle.toNat⟩ } ∧ t = s.withTasks t.tasks ∧
        ∀ k, k ≠ taskKey c j → t.tasks.get .empty k = s.tasks.get .empty k)) ∧
    (P.onCore = false ∨ P.stat = .ending ∨ P.place.ctx ≠ v.f 23 20 ∨ P.pre ≠ none → Completes (.preempt v) s (fun t => t = s)) ∧
    (T.pre = none → Completes (.preemptionLanding core slot) s (fun t => t = s) ∧
      Completes (.preemptionForced core slot) s (fun t => t = s)) ∧
    (T.pre = some q → T.stat = .sleeping → Completes (.preemptionLanding core slot) s left) ∧
    (∀ bs, T.pre = some q → thaw → turn → T.loops = [] → s.peekFetch core slot = some bs →
      (decodeBundle false bs).readsLatch = false → Completes (.preemptionLanding core slot) s left) ∧
    (T.pre = some q → ¬ thaw → T.stat = .ready ∨ T.stat = .issuing → T.wait = .none →
      Completes (.preemptionLanding core slot) s (fun t => t = s) ∧ Completes (.preemptionForced core slot) s (fun t => t = s)) ∧
    (T.pre = some q → thaw → turn → q.at_ + 2 ^ 20 ≤ s.cycle.toNat → Completes (.preemptionForced core slot) s left) ∧
    (T.pre = some q → T.stat = .ready ∨ T.stat = .issuing → T.wait = .none → s.cycle.toNat < q.at_ + 2 ^ 20 →
      Completes (.preemptionForced core slot) s (fun t => t = s)) ∧
    (T.saving = true → busy → Completes (.saveComplete core slot) s (fun t => t = s)) ∧
    (T.saving = true → ¬ busy → core < 1024 → (s.ctxAt T.place.ctx).savebase.b 63 = false → (s.ctxAt T.place.ctx).stat = .active →
      Completes (.saveComplete core slot) s (fun t => (t.taskAt core slot).stat = .held ∧
        (t.ctxAt T.place.ctx).toError = true ∧ (t.ctxAt T.place.ctx).cause = 0x129)) ∧
    (T.saving = true → ¬ busy → (s.ctxAt T.place.ctx).savebase.b 63 = true → (∀ e ∈ s.unitErrs, e.1 ≠ u) → whole →
      s.sideOf u = [] → (∀ pr ∈ s.e2eSrc, ∀ x ∈ pr.2.unacked ++ pr.2.waiting, x.unit ≠ u) →
      Completes (.saveComplete core slot) s (fun t => (∀ l, t.mem.rd l = s.mem.rd l) ∧
        (T.stat = .held → t.taskAt core slot = { T with
          saving := false, saveAt := T.shadow.length, unsaved := (t.taskAt core slot).unsaved }) ∧
        (T.stat ≠ .held → t.taskAt core slot = .empty ∧ ∃ o : OffTask, t.offs = s.offs ++ [o] ∧ o.core = core ∧ o.slot = slot ∧
          o.task.regs = T.regs ∧ o.task.pc = T.pc ∧ o.task.tile = T.tile))) ∧
    (T.saving = false → (∀ o ∈ s.offs, ¬ (o.core = core ∧ o.slot = slot)) → Completes (.saveComplete core slot) s (fun t => t = s)) ∧
    (ready → T.wait = .none → Completes (.taskResume core slot) s (fun t =>
      let n := t.taskAt core slot
      n.stat = .ready ∧ n.latch = .lost ∧ n.hoist = [] ∧ n.replay = true ∧ n.pc = T.pc ∧ n.regs = T.regs ∧ n.trap = T.trap ∧
        n.passes = 0 ∧ n.loops = T.loops ∧ n.tile = T.tile ∧ (∀ l, t.mem.rd l = s.mem.rd l) ∧
        (T.inTrap = false → n.shadow = T.shadow ++ T.inflight ∧ n.inflight = T.hshadow ∧ n.hshadow = []) ∧
        (T.inTrap = true → n.shadow = T.shadow ∧ n.hshadow = T.hshadow ++ T.inflight ∧ n.inflight = []))) ∧
    (T.stat ≠ .held → (∀ o ∈ s.offs, o.core ≠ core) → Completes (.taskResume core slot) s (fun t => t = s))) ∧
  (∀ (s : State) (core slot : Nat) (T : Task),
    let c := s.coreAt core
    let n : Nat := Nat.max 1 (T.csr.frzwd.f 7 0) * 1400
    let alone : Prop := ∀ x ∈ s.tasksOn core, x = (slot, T)
    (s.issuerOf core = none → Completes (.monopolyWatchdogExpiry core) s (fun t => t = s)) ∧
    (s.issuerOf core = some (slot, T) → c.mono ≠ 2 ^ 24 → Completes (.monopolyWatchdogExpiry core) s (fun t => t = s)) ∧
    (s.issuerOf core = some (slot, T) → c.mono = 2 ^ 24 → Completes (.monopolyWatchdogExpiry core) s (fun t =>
      t.coreAt core = { c with mono := 2 ^ 24 + 1 } ∧ t.taskAt core slot = { T with
        csr := { T.csr with taskst := T.csr.taskst ||| 2 }, events := T.events ++ [⟨0x120, 0⟩] })) ∧
    (s.issuerOf core = some (slot, T) → c.frozen < n → Completes (.freezeConversion core) s (fun t => t = s)) ∧
    (s.issuerOf core = some (slot, T) → alone → T.delay ≠ .no → s.held = [] →
      Completes (.freezeConversion core) s (fun t => t = s)) ∧
    (s.issuerOf core = some (slot, T) → alone → n ≤ c.frozen → T.delay = .no → s.held = [] → T.inTrap = false → T.replay = false →
      Completes (.freezeConversion core) s (fun t =>
        let m := t.taskAt core slot
        m.stat = .offcore ∧ m.saving = true ∧ m.latch = .lost ∧ m.inflight = [] ∧ m.regs = T.regs ∧ m.pc = T.pc ∧
          m.csr = { T.csr with taskst := T.csr.taskst ||| 4 } ∧ (t.coreAt core).frozen = 0 ∧ ∀ l, t.mem.rd l = s.mem.rd l)) ∧
    (∀ h ∈ s.held, s.issuerOf core = some (slot, T) → alone → n ≤ c.frozen → T.inTrap = true → T.entering = false →
      T.fetchHold = some h.id → h.why = .flush → (s.ctxAt T.place.ctx).stat = .active →
      Completes (.freezeConversion core) s (fun t => (t.taskAt core slot).stat = .held ∧
        (t.ctxAt T.place.ctx).toError = true ∧ (t.ctxAt T.place.ctx).cause = 0x128)))


/-! ### Links, packets, leases and collectives (R351 to R426) -/

/-- A link (R352 to R362, R366): TRAIN and DOWN; training takes the widest set of healthy lanes within 10 ms and starts
the sequence numbers at 0; a link that cannot fails with FAILCAUSE 3; a lost lane, or one with more than 15 symbol errors in 16 codewords,
stops sending until a width is agreed, and the last healthy quarter fails the link; a window of 2^32 bits over BERTHR retrains its lane, for
at most 100 µs; a failed lane is checked every 10 ms; a link widens to lanes healthy for 10 ms; a codeword with the expected number is
answered with the acknowledgement, the credits owed and the depths; an acknowledgement frees its flits; a replay sends them again, is
counted, and the ninth in a row fails a torus link; a codeword with more than 15 symbol errors asks for a replay. That a link starts with no
credits, and that a packet's buffer is free at once, are the model's choices (log 77), and that LNKCTL does nothing in BOOTFAIL or ERROR
is log 71. -/
def Obligations.LinksTrainAndReplay : Prop :=
  ∀ (s : State) (n : BitVec 8) (k : BitVec 4) (healthy : BitVec 16) (syms : BitVec 32) (seq : BitVec 12) (cw : CwLoad)
      (errs : List Nat) (cseq cack : Nat) (found : Option (BitVec 32)) (j : Nat),
    let N := n.toNat
    let l := s.linkAt N
    let now := s.cycle.toNat
    let x := l.lanes.get .zero k.toNat
    let good (a w : Nat) : Prop := ∀ i, a ≤ i → i < a + w → healthy.getLsbD i = true ∧ (l.lanes.get .zero i).failed = false
    let whole (a w : Nat) : Prop := ∀ i, a ≤ i → i < a + w → l.healthy.testBit i = true
    let one (y : Link) (t : State) : Prop := t = s.setLinkAt N y
    let sole (y : Link) (t : State) : Prop :=
      t.linkAt N = y ∧ (∀ m, m ≠ N → t.linkAt m = s.linkAt m) ∧ t.tasks = s.tasks ∧ t.mem = s.mem ∧ t.rotor = s.rotor
    let same (i : Instr) : Prop := Completes i s (fun t => t = s)
    let may : Prop := s.modstat.phase ≠ 1 ∧ s.modstat.phase ≠ 5 ∧ s.part.fitted N = true
    let starts (st : LStat) (g : Nat) (t : State) : Prop :=
      let m := t.linkAt N
      m.stat = st ∧ m.group = g ∧ m.next = 0 ∧ m.sent = [] ∧ m.accept = 0 ∧ m.tries = 0 ∧ m.discard = false ∧ m.stopped = false ∧
        m.credits = List.replicate 8 0 ∧ m.owed = List.replicate 8 0 ∧
        (∀ i < 16, m.lanes.get .zero i = { l.lanes.get .zero i with errs := [], since := now }) ∧ t.tasks = s.tasks ∧ t.mem = s.mem
    let fails (st : LStat) (cause : Nat) (t : State) : Prop :=
      let m := t.linkAt N
      m.stat = st ∧ m.failcause = cause ∧ m.sent = [] ∧ m.queue = []
    let up : Prop := l.stat = .active16 ∨ l.stat = .active8 ∨ l.stat = .active4 ∨ l.stat = .retrain
    let thr := s.linkcfg.f 31 0
    let full : Prop := s.part.fitted N = true ∧ 2 ^ 32 ≤ x.bits
    let count := Nat.min (2 ^ 32 - 1) (x.count + syms.toNat)
    let y : Lane := { x with crossed := decide (thr < count), syms := count, count := 0, bits := x.bits - 2 ^ 32 }
    let l1 : Link := { l with lanes := l.lanes.put k.toNat y }
    let exceeds : Prop := full ∧ thr < count ∧ l.auto = true ∧ l.uses k.toNat = true ∧ k.toNat ∉ l.waiting
    let again (z : Link) : Link := { z with
      replays := Nat.min (2 ^ 32 - 1) (l.replays + 1), tries := l.tries + 1, ackAt := now, owed := List.replicate 8 0
      busy := Nat.max (8 * now) l.busy + (l.sent.length + 1) / 2 * z.cwTime }
    let flitsOf (o : OutMsg) : List (List Byte) := match o with | .codeword _ _ _ f _ _ => f | _ => []
    let replays (z : Link) (t : State) : Prop := sole (again z) t ∧ ∃ out : List OutMsg, t.msgs = s.msgs ++ out ∧
      out.length = (l.sent.length + 1) / 2 ∧ out.flatMap flitsOf = l.sent.map fun f => pktFlit f.1 f.2
    let errsOn (i : Nat) : Nat := (errs.filter fun p => p < 544 ∧ p % 16 = i).length
    let sum (ns : List Nat) : Nat := ns.foldl (· + ·) 0
    let got (z : Link) (t : State) : Prop :=
      let m := t.linkAt N
      { m with lanes := l.lanes } = { z with credits := addCounts l.credits cw.credits, discard := false, far := cw.depths, heardAt := now } ∧
        (∀ i < 16, let v := l.lanes.get .zero i
          m.lanes.get .zero i = { v with
            count := Nat.min (2 ^ 32 - 1) (v.count + errsOn i), bits := v.bits + 340, errs := (v.errs ++ [errsOn i]).drop (v.errs.length - 15) }) ∧
        (∀ m, m ≠ N → t.linkAt m = s.linkAt m) ∧ t.tasks = s.tasks ∧ t.mem = s.mem
    let owed := addCounts l.owed ((List.range 8).map fun i => (cw.ends.filter (· == i)).length)
    let answers (t : State) : Prop :=
      t.msgs = s.msgs ++ [OutMsg.codeword N l.next ((l.accept + cw.flits + 4095) % 4096) [] owed s.depths]
    let runs : Prop := l.stat = .active16 ∧ l.stopped = false ∧ l.queue = [] ∧ l.next < 4096 ∧ l.sent.length ≤ 512 ∧ errs.length ≤ 15
    let clean : Prop := ∀ i < 16, sum (l.lanes.get .zero i).errs + errs.length ≤ 15
    let frees (i : Nat) (z : Link) : Link := { z with sent := l.sent.drop i, ackseq := cack, tries := 0, ackAt := now }
    let covers (i : Nat) : Prop := 0 < i ∧ i ≤ l.sent.length ∧ (cack + 1 + (l.sent.length - i)) % 4096 = l.next
    let moved : Link := { l with accept := (l.accept + cw.flits) % 4096, owed := List.replicate 8 0 }
    (may → l.stat = .down ∨ l.stat = .failed → Completes (.lnkctlTrain n) s
      (one { l with stat := .training, healthy := 0, failcause := 0, heardAt := now, since := now })) ∧
    (¬ may ∨ ¬ (l.stat = .down ∨ l.stat = .failed) → same (.lnkctlTrain n)) ∧
    (may → Completes (.lnkctlDown n) s (fails .down l.failcause)) ∧
    (¬ may → same (.lnkctlDown n)) ∧
    (l.stat ≠ .training ∨ l.since + 14000000 ≤ now → same (.linkTrainingComplete n healthy)) ∧
    (144 ≤ N ∨ l.stat ≠ .training ∨ now < l.since + 14000000 → same (.linkTrainingTimeout n)) ∧
    (N < 144 → l.stat = .training → l.since + 14000000 ≤ now → Completes (.linkTrainingTimeout n) s (fails .failed 3)) ∧
    (l.stat = .training → now < l.since + 14000000 → l.queue = [] →
      (good 0 16 → Completes (.linkTrainingComplete n healthy) s (starts .active16 0)) ∧
      (∀ g < 2, ¬ good 0 16 → (∀ i < g, ¬ good (8 * i) 8) → good (8 * g) 8 →
        Completes (.linkTrainingComplete n healthy) s (starts .active8 g)) ∧
      (∀ g < 4, (∀ i < 2, ¬ good (8 * i) 8) → (∀ i < g, ¬ good (4 * i) 4) → good (4 * g) 4 →
        Completes (.linkTrainingComplete n healthy) s (starts .active4 g)) ∧
      ((∀ i < 4, ¬ good (4 * i) 4) → Completes (.linkTrainingComplete n healthy) s (fun t =>
        { t.linkAt N with healthy := l.healthy } = l ∧ ∀ m, m ≠ N → t.linkAt m = s.linkAt m))) ∧
    (s.part.fitted N = true → l.stat = .active16 →
      ((∃ g < 4, g ≠ k.toNat / 4 ∧ whole (4 * g) 4) → Completes (.laneLost n k) s (fun t =>
        let m := t.linkAt N
        m.stat = .active16 ∧ m.stopped = true ∧ (m.lanes.get .zero k.toNat).failed = true ∧ m.healthy.testBit k.toNat = false)) ∧
      ((¬ ∃ g < 4, g ≠ k.toNat / 4 ∧ whole (4 * g) 4) → Completes (.laneLost n k) s (fails .failed 1))) ∧
    (s.part.fitted N = false → same (.laneLost n k)) ∧
    (l.stopped = false → same (.linkWidthAgreed n)) ∧
    (l.stopped = true → l.queue = [] → l.waiting = [] → ¬ whole 0 8 → whole 8 8 → l.sent ≠ [] → l.tries < 8 → Completes (.linkWidthAgreed n) s
      (replays { l with stat := .active8, group := 1, stopped := false })) ∧
    (¬ full → same (.laneThresholdCrossed n k syms)) ∧
    (exceeds → l.stat = .active16 ∨ l.stat = .active8 ∨ l.stat = .active4 → l.stopped = false → l.waiting = [] →
      Completes (.laneThresholdCrossed n k syms) s (one { l1 with stat := .retrain, left := l.stat, rlane := k.toNat, since := now })) ∧
    (exceeds → (l.stat = .retrain ∧ l.rlane ≠ k.toNat) ∨ (l.stat = .active16 ∧ l.stopped = true) →
      Completes (.laneThresholdCrossed n k syms) s (one { l1 with waiting := (l.waiting ++ [k.toNat]).filter l.uses })) ∧
    (full → ¬ (thr < count ∧ l.auto = true ∧ l.uses k.toNat = true ∧ k.toNat ∉ l.waiting) → Completes (.laneThresholdCrossed n k syms) s (one l1)) ∧
    (l.stat ≠ .retrain ∨ l.since + 140000 ≤ now → same (.laneRetrainComplete n)) ∧
    (l.stat ≠ .retrain ∨ now < l.since + 140000 → same (.laneRetrainTimeout n)) ∧
    (l.stat = .retrain → now < l.since + 140000 → l.waiting = [] →
      Completes (.laneRetrainComplete n) s (one { l with stat := l.left, rlane := 0 })) ∧
    (l.stat = .retrain → now < l.since + 140000 → l.left = .active16 → l.auto = true → l.stopped = false → j ∈ l.waiting → j < 16 →
      (∀ i ∈ l.waiting, j ≤ i) → Completes (.laneRetrainComplete n) s
        (one { l with rlane := j, waiting := (l.waiting.filter l.uses).filter (· != j), since := now })) ∧
    (l.stat = .retrain → l.since + 140000 ≤ now → l.left = .active16 → l.rlane < 16 → (∃ g < 4, g ≠ l.rlane / 4 ∧ whole (4 * g) 4) →
      Completes (.laneRetrainTimeout n) s (fun t =>
        let m := t.linkAt N
        m.stat = .active16 ∧ m.stopped = true ∧ (m.lanes.get .zero l.rlane).failed = true ∧ m.healthy.testBit l.rlane = false)) ∧
    (l.stat = .active8 ∨ l.stat = .active4 → l.stopped = false → l.queue = [] → whole 0 16 →
      (∀ i < 16, (l.lanes.get .zero i).since + 14000000 ≤ now) →
      Completes (.linkWiden n) s (one { l with stat := .active16, group := 0 })) ∧
    (l.stat = .active16 ∨ l.stopped = true ∨ (l.stat = .active8 ∧ ∃ i < 16, now < (l.lanes.get .zero i).since + 14000000) →
      same (.linkWiden n)) ∧
    (x.failed = true → x.since + 14000000 ≤ now →
      ((∃ e, found = some e ∧ e.toNat * 2 ^ 16 ≤ thr) → Completes (.laneBackgroundCheck n k found) s (fun t =>
        let m := t.linkAt N
        m.healthy.testBit k.toNat = true ∧ m.lanes.get .zero k.toNat = { x with failed := false, since := now } ∧ m.stat = l.stat ∧
          m.sent = l.sent)) ∧
      ((∀ e, found = some e → thr < e.toNat * 2 ^ 16) → Completes (.laneBackgroundCheck n k found) s
        (one { l with lanes := l.lanes.put k.toNat { x with since := now } }))) ∧
    (x.failed = false ∨ now < x.since + 14000000 → same (.laneBackgroundCheck n k found)) ∧
    (¬ up → same (.codewordReceived n errs cseq cack cw) ∧ same (.replayRequestReceived n seq)) ∧
    (up → 15 < errs.length → Completes (.codewordReceived n errs cseq cack cw) s (fun t =>
      t.linkAt N = { l with uncorr := Nat.min (2 ^ 32 - 1) (l.uncorr + 1), discard := true } ∧
        t.msgs = s.msgs ++ if l.discard then [] else [OutMsg.replay N l.accept])) ∧
    (up → errs.length ≤ 15 → cseq ≠ l.accept → l.discard = true → same (.codewordReceived n errs cseq cack cw)) ∧
    (runs → clean → cseq = l.accept → cw.flits ≠ 0 →
      (∀ i, covers i → Completes (.codewordReceived n errs cseq cack cw) s (fun t => got (frees i moved) t ∧ answers t)) ∧
      ((cack + 1 + l.sent.length) % 4096 = l.next → Completes (.codewordReceived n errs cseq cack cw) s (fun t => got moved t ∧ answers t))) ∧
    (runs → clean → (cseq ≠ l.accept ∧ l.discard = false) ∨ cw.flits = 0 ∧ cseq = l.accept →
      (∀ i, covers i → Completes (.codewordReceived n errs cseq cack cw) s (fun t => got (frees i l) t ∧ t.msgs = s.msgs)) ∧
      ((cack + 1 + l.sent.length) % 4096 = l.next → Completes (.codewordReceived n errs cseq cack cw) s (fun t => got l t ∧ t.msgs = s.msgs))) ∧
    (runs → cseq = l.accept → 15 < sum ((x.errs ++ [errsOn k.toNat]).drop (x.errs.length - 15)) →
      Completes (.codewordReceived n errs cseq cack cw) s (fun t => let m := t.linkAt N
        (m.lanes.get .zero k.toNat).failed = true ∧ (m.stopped = true ∨ m.stat = .failed))) ∧
    (up → l.queue = [] → l.next < 4096 → l.sent.length ≤ 512 → l.sent ≠ [] → (seq.toNat + l.sent.length) % 4096 = l.next →
      (l.stopped = true → same (.replayRequestReceived n seq)) ∧
      (l.stopped = false → l.tries < 8 ∨ 144 ≤ N → Completes (.replayRequestReceived n seq) s (replays l)) ∧
      (l.stopped = false → 8 ≤ l.tries → N < 144 → Completes (.replayRequestReceived n seq) s (fails .failed 2))) ∧
    (up → l.stopped = false → l.sent ≠ [] → l.ackAt + 2800 ≤ now →
      (l.tries < 8 ∨ 144 ≤ N → Completes (.replayAckTimeout n) s (replays l)) ∧
      (8 ≤ l.tries → N < 144 → Completes (.replayAckTimeout n) s (fails .failed 2))) ∧
    (now < l.ackAt + 2800 ∨ l.sent = [] ∨ l.stopped = true → same (.replayAckTimeout n)) ∧
    (l.heardAt + 1400 ≤ now → Completes (.farDepthTimeout n) s (one { l with far := List.replicate 7 255 })) ∧
    (now < l.heardAt + 1400 → same (.farDepthTimeout n))

/-- The rotor (R10, R369 to R374, R376, R381): ROTCTL.EN = 1 copies a calendar that names every other module of the group once, and
sets CALERR for any other; at a dwell the links train and the module sends its index and relay credits; a dwell whose partners match the
calendar's next slot keeps or gives the lock, any other loses it; darkness of 0.25 µs is a guard, and one away from its time, or none for
3 µs, loses the lock. That CALERR is set by three dwells in a row that match no slot, that an accepted calendar clears it, and the figure of the credit, are the model's choices
(log 78); that ROTCTL.EN does nothing in BOOTFAIL or ERROR is log 71. -/
def Obligations.RotorFollowsItsCalendar : Prop :=
  ∀ (s : State) (idx : List Nat) (credits : List (Nat × Nat × Nat)) (n : Nat),
    let r := s.rotor
    let now := s.cycle.toNat
    let own := rotorIndex s.part.module
    let word (cal : Tab Word) (i p : Nat) : Nat := (cal.get 0 i).f (9 * p + 8) (9 * p)
    let names : List Nat := (List.range 73).flatMap fun i => (List.range 7).map fun p => word r.calw i p
    let sound : Prop := ∀ i < 512, names.count i = if i = own then 0 else 1
    let idle : Prop := s.part.hasRotor = true ∧ r.relay = [] ∧ (∀ nl ∈ s.links, 144 ≤ nl.1 → nl.2.queue = []) ∧
      ∀ i, 144 ≤ i → i < 256 → (s.linkAt i).stat ≠ .down ∧ (s.linkAt i).stat ≠ .failed ∧
        ∀ k < 16, ((s.linkAt i).lanes.get .zero k).failed = false
    let may : Prop := s.part.hasRotor = true ∧ r.en = false ∧ s.modstat.phase ≠ 1 ∧ s.modstat.phase ≠ 5
    let seen (i : Nat) : Prop := i < 73 ∧ idx.length = 7 ∧ (∀ p < 7, idx.getD p 512 = word r.cal i p) ∧
      ∀ j < i, ∃ p < 7, idx.getD p 512 ≠ word r.cal j p
    let dwell (t : State) : Prop := t.rotor.guard = false ∧ t.rotor.start = now ∧ t.rotor.credits = credits ∧ t.rotor.cal = r.cal ∧
      t.msgs = s.msgs ++ (List.range 7).map (fun pl => OutMsg.identity pl own 146 []) ∧
      ∀ i, 144 ≤ i → i < 256 → (t.linkAt i).stat = .active16 ∧ (t.linkAt i).next = 0 ∧ (t.linkAt i).sent = [] ∧ (t.linkAt i).accept = 0
    let unsent : Prop := ∀ nl ∈ s.links, 144 ≤ nl.1 → nl.2.sent = []
    let began := now - 350
    let guarded (lock : Bool) (t : State) : Prop :=
      t.rotor = (if r.en then { r with guard := true, guardAt := began, lock := lock } else { r with lock := lock }) ∧
      ∀ i, 144 ≤ i → (t.linkAt i).sent = [] ∧ (t.linkAt i).stat.up = false
    (¬ may → Completes .rotorEnable s (fun t => t = s)) ∧
    (may → sound → Completes .rotorEnable s (fun t => t.rotor.en = true ∧ t.rotor.calerr = false ∧
      t.rotor.lock = r.lock ∧ t.rotor.fails = 0 ∧ t.rotor.guardAt = now ∧ ∀ i < 73, ∀ p < 7, word t.rotor.cal i p = word r.calw i p)) ∧
    (may → ¬ sound → Completes .rotorEnable s (fun t =>
      t = { s with rotor := { r with calerr := true } })) ∧
    (s.part.hasRotor = false → Completes (.rotorDwellStart idx credits) s (fun t => t = s)) ∧
    (s.part.hasRotor = false → Completes .rotorGuardStart s (fun t => t = s)) ∧
    (idle → r.en = false → Completes (.rotorDwellStart idx credits) s (fun t => dwell t ∧ t.rotor.lock = r.lock)) ∧
    (idle → r.en = true → r.lock = true → (∀ p < 7, idx.getD p 512 = word r.cal ((r.slot + 1) % 73) p) →
      Completes (.rotorDwellStart idx credits) s (fun t => dwell t ∧ t.rotor.lock = true ∧ t.rotor.slot = (r.slot + 1) % 73)) ∧
    (idle → r.en = true → r.lock = true → (∃ p < 7, idx.getD p 512 ≠ word r.cal ((r.slot + 1) % 73) p) →
      Completes (.rotorDwellStart idx credits) s (fun t => dwell t ∧ t.rotor.lock = false)) ∧
    (idle → r.en = true → r.lock = false → seen n → r.seen = some ((n + 72) % 73) →
      Completes (.rotorDwellStart idx credits) s (fun t => dwell t ∧ t.rotor.lock = true ∧ t.rotor.slot = n)) ∧
    (idle → r.en = true → r.lock = false → seen n → r.seen ≠ some ((n + 72) % 73) →
      Completes (.rotorDwellStart idx credits) s (fun t => dwell t ∧ t.rotor.lock = false ∧ t.rotor.seen = some n ∧ t.rotor.fails = 0)) ∧
    (idle → r.en = true → r.lock = false → (∀ i < 73, ∃ p < 7, idx.getD p 512 ≠ word r.cal i p) →
      Completes (.rotorDwellStart idx credits) s (fun t => dwell t ∧ t.rotor.lock = false ∧ t.rotor.seen = none ∧
        t.rotor.fails = r.fails + 1 ∧ t.rotor.calerr = (r.calerr || decide (2 ≤ r.fails)))) ∧
    (idle → unsent → r.start + 3010 ≤ began → began ≤ r.start + 3150 → Completes .rotorGuardStart s (guarded r.lock)) ∧
    (idle → unsent → began < r.start + 3010 ∨ r.start + 3150 < began → Completes .rotorGuardStart s (guarded false)) ∧
    (r.lock = false ∨ now < r.guardAt + 4200 → Completes .rotorLockTimeout s (fun t => t = s)) ∧
    (idle → r.lock = true → r.guardAt + 4200 ≤ now → Completes .rotorLockTimeout s (fun t =>
      t.rotor = { r with lock := false } ∧ t.tasks = s.tasks ∧ t.mem = s.mem))

/-- Packets and end-to-end numbers (R145, R146, R356, R364, R365, R367, R375 to R377, R379, R382): the torus takes a packet the shorter way
in x, then y, then z, or on in the direction it has come, in channel 1 from a wrap link on; it leaves its link with a codeword where there is a
credit for its class and channel and fewer than 512 flits await acknowledgement; the target performs each number once, in its flow's order,
and acknowledges it in class 1, a packet that opens the pair afresh too, but not its re-send; the source frees what is
acknowledged, reports a refusal, re-sends RESENDT after a packet has left, gives it up with 0x148 after eight re-sends, and likewise what it
sent to a module that was reset; a packet to relay is held, or takes the torus where the rotor is not locked. That a re-sent opener does not
open the pair again is log 44, and one credit a packet, freed at once, log 77. -/
def Obligations.PacketsArePerformedOnce : Prop :=
  ∀ (s : State) (p : Packet) (rest : List Packet) (dim n c j w : Nat) (tgt : BitVec 12) (seq : BitVec 32) (data : List Byte)
      (cause : BitVec 9) (pstate : BitVec 3) (u : Unacked) (r : Reply) (ls : List Loc),
    let me := s.part.module
    let at_ (m d : Nat) : Nat := m / 16 ^ d % 16
    let k := (at_ p.dst dim + 16 - at_ me dim) % 16
    let dir := n / 24
    let L := s.linkAt n
    let now := s.cycle.toNat
    let q := { p with relayed := false }
    let sent : Packet := { q with via := some dir, vc := p.vc || decide (at_ me (dir / 2) = if dir % 2 = 0 then 15 else 0) }
    let heads : Prop := s.outq = p :: rest ∧ (p.src = me → s.part.hasRotor = false ∧ s.flowOf p = none) ∧ dim < 3 ∧ k ≠ 0 ∧
      ((p.via = none ∧ (∀ d < dim, at_ p.dst d = at_ me d) ∧ dir = 2 * dim + if k ≤ 8 then 0 else 1) ∨
        (p.via = some dir ∧ dir / 2 = dim)) ∧ n < 144 ∧ s.part.fitted n = true ∧ L.stat = .active16 ∧ L.stopped = false ∧
      (∀ nl ∈ s.links, nl.2.queue = []) ∧ ∀ m, 24 * dir ≤ m → m < 24 * dir + 24 → m ≠ n → (s.linkAt m).stat.up = false
    let fl := if p.op = .discard ∨ p.len ≤ 224 then [(sent, true)] else [(sent, false), (sent, true)]
    let chan := 2 * p.cls + if sent.vc then 1 else 0
    let notAck : Prop := ∀ d e ps, p.op ≠ .ack d e ps
    let tells (t : State) (src seq : Nat) (data : List Byte) (cause pstate : Nat) (reset : Bool) : Prop :=
      t = { s with outq := s.outq ++ [ackPkt me src seq data cause pstate reset] }
    let still : Prop := ∀ i < 16, ∀ a b d e f g, (s.taskAt c i).wait ≠ .reread a b d e f g
    let seen : Option E2ETgt := s.e2eTgt.get? p.src
    let quiet : Prop := s.held = [] ∧ (∀ cx ∈ s.cores, cx.2.side = []) ∧ (∀ nc ∈ s.ctxs, nc.2.recs = []) ∧ s.repWait = []
    let fresh (h : E2ETgt) : Prop := p.dst = me ∧ p.isOpen = false ∧ seen = some h ∧ h.dup p.seq = false ∧
      (∀ x, p.pred = some x → h.dup x = true) ∧ p.lease = none ∧ quiet
    let place (i : Nat) (a : Acc) (l : Loc) : Prop := ∃ kind, s.lookFor (fun _ => false) (p.ia + i) a = .mem l kind
    let src := s.e2eSrc.get ⟨0, true, [], []⟩ tgt.toNat
    let found : Prop := src.unacked.find? (fun x => x.pkt.seq == seq.toNat) = some u
    let left (t : State) : Prop := (t.e2eSrc.get ⟨0, true, [], []⟩ tgt.toNat).unacked = src.unacked.filter (fun x => x.pkt.seq != seq.toNat)
    let T := s.taskAt c j
    let mine : Prop := u.unit = .core c j T.place.kernel ∧ T.stat ≠ .free ∧ T.place.ctx = u.ctx ∧ u.held = none ∧ u.done = false
    let told (cause : Nat) (va : Word) (t : State) : Prop :=
      t.taskAt c j = { T with reports := T.reports ++ [⟨cause, .ofNat 64 (va.toNat % 2 ^ 57)⟩] }
    (s.outq = [] → Completes .packetRoute s (fun t => t = s)) ∧
    (heads → rest = [] → L.busy ≤ 8 * now → L.sent.length + fl.length ≤ 512 → L.credits.getD chan 0 ≠ 0 →
      Completes .packetRoute s (fun t => t.outq = [] ∧
        (t.linkAt n).sent = L.sent ++ fl ∧ (t.linkAt n).next = (L.next + fl.length) % 4096 ∧ (t.linkAt n).queue = [] ∧
        (t.linkAt n).credits = L.credits.set chan (L.credits.getD chan 0 - 1) ∧ (t.linkAt n).busy = 8 * now + 34 ∧
        t.msgs = s.msgs ++ [OutMsg.codeword n L.next ((L.accept + 4095) % 4096) (fl.map fun f => pktFlit f.1 f.2) L.owed s.depths] ∧
        (p.src = me → pktNumbered p = true → ∀ y ∈ (t.e2eSrc.get ⟨0, true, [], []⟩ p.dst).unacked, y.pkt.seq = p.seq → y.sentAt = some (now + 5)) ∧
        (∀ m, m ≠ n → t.linkAt m = s.linkAt m) ∧ t.mem = s.mem ∧ t.tasks = s.tasks)) ∧
    (heads → rest ≠ [] ∨ 8 * (now + 1) ≤ L.busy ∨ 512 < L.sent.length + fl.length ∨ L.credits.getD chan 0 = 0 →
      Completes .packetRoute s (fun t => t.outq = rest ∧
        (t.linkAt n).sent = L.sent ∧ (t.linkAt n).queue = [sent] ∧ ∀ m, m ≠ n → t.linkAt m = s.linkAt m)) ∧
    (p.dst ≠ me →
      (p.relayed = true ∧ s.part.hasRotor = true →
        (s.rotor.en = true → s.rotor.lock = true →
          (s.relayFlits none + pktFlits p ≤ 65536 → s.relayFlits (some p.dst) + pktFlits p ≤ 1024 → s.planeOfNow p.dst = none →
            Completes (.packetArrivalAtTarget p) s (fun t => t = { s with rotor := { s.rotor with relay := s.rotor.relay ++ [p] } })) ∧
          (65536 < s.relayFlits none + pktFlits p ∨ 1024 < s.relayFlits (some p.dst) + pktFlits p →
            Completes (.packetArrivalAtTarget p) s (fun t => t = s))) ∧
        (s.rotor.en = false ∨ s.rotor.lock = false → s.torusLink q = some w →
          (s.linkAt w).queue = [] → Completes (.packetArrivalAtTarget p) s (fun t => ∃ y, (t.linkAt w).queue = [y] ∧ y.seq = p.seq ∧
            y.relayed = false ∧ y.via = some (w / 24) ∧ t.rotor = s.rotor ∧ t.tasks = s.tasks ∧ t.mem = s.mem))) ∧
      (¬ (p.relayed = true ∧ s.part.hasRotor = true) → Completes (.packetArrivalAtTarget p) s (fun t =>
        t = { s with outq := s.outq ++ [p] }))) ∧
    (∀ d (e : BitVec 9) (ps : BitVec 3), p.dst = me → p.op = .ack d e.toNat ps.toNat →
      (p.reset = true → exec (.packetArrivalAtTarget p) s = exec (.resetNoticeArrival (.ofNat 12 p.src)) s) ∧
      (p.reset = false → exec (.packetArrivalAtTarget p) s = exec (.e2eAckArrival (.ofNat 12 p.src) (.ofNat 32 p.seq) d e ps) s)) ∧
    (p.dst = me → notAck → p.isOpen = false →
      (seen = none → Completes (.packetArrivalAtTarget p) s (fun t => tells t p.src p.seq [] 0 0 true)) ∧
      (∀ h, seen = some h → p.seq ∈ h.done → h.replies.find? (fun x => x.seq == p.seq) = some r →
        Completes (.packetArrivalAtTarget p) s (fun t => tells t p.src r.seq r.data r.cause r.pstate false)) ∧
      (∀ h x, seen = some h → h.dup p.seq = false → p.pred = some x → h.dup x = false →
        Completes (.packetArrivalAtTarget p) s (fun t => t = s))) ∧
    (p.dst = me → notAck → p.isOpen = true →
      (∀ h, seen = some h → h.opener = some q → p.seq ∈ h.done → h.replies.find? (fun x => x.seq == p.seq) = some r →
        Completes (.packetArrivalAtTarget p) s (fun t => tells t p.src r.seq r.data r.cause r.pstate false)) ∧
      ((∀ h, seen = some h → h.opener ≠ some q) → p.pred = none → p.lease = none → quiet → p.op = .read → ls.length = p.len →
        (∀ l ∈ ls, s.mem.bad l = false) → (∀ i l, ls[i]? = some l → place i .read l) →
        Completes (.packetArrivalAtTarget p) s (fun t => ackPkt me p.src p.seq (ls.map s.mem.rd) 0 0 false ∈ t.outq ∧ t.mem = s.mem ∧
          ∃ h' : E2ETgt, t.e2eTgt.get? p.src = some h' ∧ h'.done = [p.seq] ∧ h'.opener = some q))) ∧
    (∀ h, fresh h → p.op = .read → ls.length = p.len → (∀ l ∈ ls, s.mem.bad l = false) → (∀ i l, ls[i]? = some l → place i .read l) →
      Completes (.packetArrivalAtTarget p) s (fun t => ackPkt me p.src p.seq (ls.map s.mem.rd) 0 0 false ∈ t.outq ∧ t.mem = s.mem ∧
        t.tasks = s.tasks ∧ ((p.seq + 2 ^ 32 - h.latest) % 2 ^ 32 < 2 ^ 31 → ∃ h' : E2ETgt, t.e2eTgt.get? p.src = some h' ∧ p.seq ∈ h'.done))) ∧
    (∀ h, fresh h → p.op = .write → ls.length = p.data.length → ls.Nodup → (∀ rt ∈ s.rts, rt.2.kick.b 63 = false) →
      (∀ i l, ls[i]? = some l → place i .write l) →
      Completes (.packetArrivalAtTarget p) s (fun t => ackPkt me p.src p.seq [] 0 0 false ∈ t.outq ∧ s.stores t ls p.data ∧ t.tasks = s.tasks)) ∧
    (src.unacked.find? (fun x => x.pkt.seq == seq.toNat) = none →
      Completes (.e2eAckArrival tgt seq data cause pstate) s (fun t => t = s) ∧
      Completes (.e2eResendTimeout tgt seq) s (fun t => t = s)) ∧
    (found → quiet → still → u.pkt.lease = none → src.waiting = [] → mine →
      (cause = 0 → Completes (.e2eAckArrival tgt seq data cause pstate) s (fun t => left t ∧ t.tasks = s.tasks ∧ t.mem = s.mem)) ∧
      (cause ≠ 0 → cause ≠ 0x089 → Completes (.e2eAckArrival tgt seq data cause pstate) s (fun t =>
        left t ∧ told cause.toNat u.va t ∧ t.mem = s.mem))) ∧
    (found → let R := Nat.max 1 (s.linkcfg.f 39 32) * 1400
      (u.sentAt = none ∨ u.sentAt = some w ∧ now < w + R → Completes (.e2eResendTimeout tgt seq) s (fun t => t = s)) ∧
      (u.sentAt = some w → w + R ≤ now → quiet → u.resends < 8 → Completes (.e2eResendTimeout tgt seq) s (fun t =>
        u.pkt ∈ t.outq ∧ (t.e2eSrc.get ⟨0, true, [], []⟩ tgt.toNat).unacked = src.unacked.map (fun x =>
          if x.pkt.seq = seq.toNat then { x with resends := x.resends + 1, sentAt := none } else x) ∧
        t.mem = s.mem ∧ t.tasks = s.tasks)) ∧
      (u.sentAt = some w → w + R ≤ now → quiet → 8 ≤ u.resends → src.unacked = [u] → src.waiting = [] → mine →
        Completes (.e2eResendTimeout tgt seq) s (fun t => told 0x148 u.va t ∧
          (t.e2eSrc.get ⟨0, true, [], []⟩ tgt.toNat).unacked = []))) ∧
    (quiet → src.unacked = [u] → src.waiting = [] → mine → Completes (.resetNoticeArrival tgt) s (fun t => told 0x148 u.va t ∧
      t.e2eSrc.get ⟨0, true, [], []⟩ tgt.toNat = ⟨0, true, [], []⟩ ∧ (∀ y ∈ t.outq, ¬ (pktNumbered y = true ∧ y.src = me ∧ y.dst = tgt.toNat)) ∧
      t.mem = s.mem))

/-- The lender of a lease (R395, R396, R398): GRANT lends the region's leaves and sends the offer, or sets RESULT 2; the
acceptance starts the term; refusal, no answer for 1 ms, the report of the eviction and its force timeout give the region back
with their RESULT; RECLAIM and the end of the term send the notice. A command in BOOTFAIL or ERROR does nothing (log 71).
The borrower of a lease (R396, R398, R399): EXPECT takes the expected grant and accepts it, any other is refused; a renewal
leaves after a quarter of the term without an acknowledgement; a notice, a lapse or RELEASE begins the eviction, which
rewrites the BORROWED leaves by BLFALL and, its accesses acknowledged, reports; CLEAR frees a DEMOTED entry that nothing
binds. A renewal's form is the model's (log 16); a command in BOOTFAIL or ERROR does nothing (log 71). -/
def Obligations.LeasesFollowTheirStates : Prop :=
  (∀ (s : State) (m : BitVec 8) (e : Word) (a : Nat) (rel : Bool),
    let k := m.toNat
    let l := s.lender k
    let now := s.cycle.toNat
    let toward := l.base.f 63 52
    let lease := l.base.f 15 0
    let term := Nat.max 1000 (l.cfg.f 63 32)
    let ia := l.base.f 51 30 * 2 ^ 30
    let copies := leafCopies e a ia
    let quiet : Prop := s.held = [] ∧ (∀ cx ∈ s.cores, cx.2.side = []) ∧ (∀ nc ∈ s.ctxs, nc.2.recs = []) ∧ s.repWait = []
    let may : Prop := s.modstat.phase ≠ 1 ∧ s.modstat.phase ≠ 5
    let oneLeaf (st : Nat) : Prop := l.cfg.f 6 0 = 1 ∧ s.walk ia = .leaf e a ∧ leafSize e = 2 ^ 30 ∧ e.f 61 59 = st ∧
      (∀ c ∈ copies, s.mem.dramWord c = e)
    let only (t : State) : Prop := ∀ x, (∀ c ∈ copies, ∀ j < 8, x ≠ .dram (c + j)) → t.mem.rd x = s.mem.rd x
    let ends (result : Nat) (t : State) : Prop := t.lender k = { l with stat := .free, result := result } ∧
      (∀ c ∈ copies, t.mem.dramWord c = e.setF 61 59 0) ∧ only t ∧ t.tasks = s.tasks ∧ t.msgs = s.msgs
    let same (i : Instr) : Prop := Completes i s (fun t => t = s)
    (¬ may → same (.llcmdGrant m) ∧ same (.llcmdReclaim m)) ∧
    (l.stat ≠ .free → same (.llcmdGrant m)) ∧
    (may → l.stat = .free → toward = s.part.module ∨ l.cfg.f 6 0 = 0 ∨ 64 < l.cfg.f 6 0 ∨ (∀ f x, s.walk ia ≠ .leaf f x) →
      Completes (.llcmdGrant m) s (fun t => t = s.setLender k { l with result := 2 })) ∧
    (may → l.stat = .free → toward ≠ s.part.module → oneLeaf 0 → e.b 52 = false → Completes (.llcmdGrant m) s (fun t =>
      t.lender k = { l with stat := .granting, lapsed := false, at_ := now } ∧
      t.msgs = s.msgs ++ [OutMsg.grant toward lease k (l.base.f 51 30) term 1] ∧
      (∀ c ∈ copies, t.mem.dramWord c = e.setF 61 59 4) ∧ only t ∧ t.tasks = s.tasks)) ∧
    (l.stat ≠ .active → same (.llcmdReclaim m) ∧ same (.leaseTermExpiry m)) ∧
    (may → l.stat = .active → Completes (.llcmdReclaim m) s (fun t =>
      t = (s.setLender k { l with stat := .recalling, lapsed := false, at_ := now }).say (OutMsg.notice toward lease false))) ∧
    (l.stat = .active → l.expiry ≤ now → Completes (.leaseTermExpiry m) s (fun t =>
      t = (s.setLender k { l with stat := .recalling, lapsed := true, at_ := now }).say (OutMsg.notice toward lease true))) ∧
    (now < l.expiry → same (.leaseTermExpiry m)) ∧
    (l.stat ≠ .granting → same (.leaseAcceptArrival m) ∧ same (.leaseRefusalArrival m) ∧ same (.leaseGrantTimeout m)) ∧
    (l.stat = .granting → Completes (.leaseAcceptArrival m) s (fun t =>
      t = s.setLender k { l with stat := .active, result := 1, expiry := now + 1400 * term })) ∧
    (l.stat = .granting → quiet → oneLeaf 4 → Completes (.leaseRefusalArrival m) s (ends 3) ∧
      (l.at_ + 1400000 ≤ now → Completes (.leaseGrantTimeout m) s (ends 3))) ∧
    (now < l.at_ + 1400000 → same (.leaseGrantTimeout m)) ∧
    (l.stat = .active ∨ l.stat = .recalling → Completes (.leaseRenewalArrival m) s (fun t =>
      t = s.setLender k { l with expiry := Nat.max l.expiry (now + 1400 * term) })) ∧
    (¬ (l.stat = .active ∨ l.stat = .recalling) → same (.leaseRenewalArrival m) ∧ same (.evictionReportArrival m rel)) ∧
    (l.stat = .active → same (.evictionReportArrival m false)) ∧
    (quiet → oneLeaf 4 →
      (l.stat = .active ∨ l.stat = .recalling → Completes (.evictionReportArrival m true) s (ends 7)) ∧
      (l.stat = .recalling → Completes (.evictionReportArrival m false) s (ends (if l.lapsed then 6 else 4))) ∧
      (l.stat = .recalling → l.at_ + 560000 ≤ now → Completes (.reclaimForceTimeout m) s (ends 5))) ∧
    (l.stat ≠ .recalling ∨ now < l.at_ + 560000 → same (.reclaimForceTimeout m))) ∧
  (∀ (s : State) (n : BitVec 10) (lender : BitVec 12) (lia : BitVec 22) (term : BitVec 32) (pages : BitVec 7) (lapsed : Bool)
      (e : Word) (a : Nat),
    let k := n.toNat
    let b := s.borrower k
    let now := s.cycle.toNat
    let from_ := b.src.f 63 52
    let same (i : Instr) : Prop := Completes i s (fun t => t = s)
    let may : Prop := s.modstat.phase ≠ 1 ∧ s.modstat.phase ≠ 5
    let evicts (lapsed rel : Bool) (t : State) : Prop :=
      t = s.setBorrower k { b with stat := .evicting, lapsed := lapsed, rel := rel, unmapped := false, told := [] }
    let bound : Prop := ∃ cx ∈ s.ctxs, ∃ kw ∈ cx.2.leasebind, kw.2.b 63 = true ∧ kw.2.f 15 0 = k
    let expected : Prop := b.stat = .expect ∧ from_ = lender.toNat ∧ b.src.f 51 30 = lia.toNat
    let quarter := b.term * 1400 / 4
    let busy : Prop := ∃ p ∈ s.e2eSrc, ∃ u ∈ p.2.unacked ++ p.2.waiting, u.pkt.lease = some k
    let ia := b.src.f 29 8 * 2 ^ 30
    let copies := leafCopies e a ia
    let old : Word := if b.fall.b 63
      then ((e.setF 61 59 0).setF 52 52 (if b.fall.b 62 then 1 else 0)).setF 51 12 (b.fall.f 51 30 * 2 ^ 18) else e.setF 63 63 0
    let reports (t : State) : Prop := (t.borrower k).stat = (if b.rel then .free else .demoted) ∧
      t.msgs = s.msgs ++ [OutMsg.report from_ k b.rel] ∧ t.tasks = s.tasks
    (¬ may → same (.blcmdExpect n) ∧ same (.blcmdRelease n) ∧ same (.blcmdClear n)) ∧
    (may → b.stat = .free → Completes (.blcmdExpect n) s (fun t => t = s.setBorrower k { b with stat := .expect })) ∧
    (b.stat ≠ .free → same (.blcmdExpect n)) ∧
    (may → b.stat = .active → Completes (.blcmdRelease n) s (evicts false true)) ∧
    (b.stat = .active →
      Completes (.reclaimNoticeArrival n lapsed) s (evicts lapsed false) ∧
      (b.ackAt + b.term * 1400 ≤ now → Completes (.leaseLapse n) s (evicts true false))) ∧
    (b.stat ≠ .active → same (.blcmdRelease n) ∧ same (.reclaimNoticeArrival n lapsed) ∧ same (.leaseLapse n) ∧
      same (.leaseRenewalSend n)) ∧
    (now < b.ackAt + b.term * 1400 → same (.leaseLapse n)) ∧
    (may → b.stat = .demoted → ¬ bound → Completes (.blcmdClear n) s (fun t => t = s.setBorrower k { b with stat := .free })) ∧
    (b.stat ≠ .demoted ∨ bound → same (.blcmdClear n)) ∧
    (expected → Completes (.leaseGrantArrival n lender lia term pages) s (fun t =>
      t.borrower k = { b with stat := .active, term := term.toNat, pages := pages.toNat, rel := false, unmapped := false
                              ackAt := now, renewAt := now } ∧ t.msgs = s.msgs ++ [OutMsg.accept lender.toNat k] ∧ t.mem = s.mem)) ∧
    (¬ expected → Completes (.leaseGrantArrival n lender lia term pages) s (fun t =>
      t = s.say (OutMsg.refuse lender.toNat k))) ∧
    (b.stat = .active → b.ackAt + quarter ≤ now → b.renewAt + quarter ≤ now →
      s.e2eSrc.get ⟨0, true, [], []⟩ from_ = ⟨0, true, [], []⟩ → Completes (.leaseRenewalSend n) s (fun t =>
        (t.borrower k).renewAt = now ∧ t.mem = s.mem ∧ t.tasks = s.tasks ∧ ∃ p : Packet, t.outq = s.outq ++ [p] ∧ p.dst = from_ ∧ p.op = .write ∧
          p.lease = some k ∧ p.len = 0 ∧ p.isOpen = true)) ∧
    (now < b.ackAt + quarter ∨ now < b.renewAt + quarter → same (.leaseRenewalSend n)) ∧
    (b.stat ≠ .evicting → same (.evictionComplete n)) ∧
    (b.stat = .evicting → b.unmapped = true → busy → same (.evictionComplete n)) ∧
    (b.stat = .evicting → b.unmapped = true → ¬ busy → Completes (.evictionComplete n) s (fun t => reports t ∧ t.mem = s.mem)) ∧
    (b.stat = .evicting → b.unmapped = false → b.pages = 1 → s.walk ia = .leaf e a → e.f 61 59 = 5 →
      (∀ c ∈ copies, s.mem.dramWord c = e) → s.held = [] → (∀ cx ∈ s.cores, cx.2.side = []) → (∀ nc ∈ s.ctxs, nc.2.recs = []) →
      s.repWait = [] →
      Completes (.evictionComplete n) s (fun t => (∀ c ∈ copies, t.mem.dramWord c = old) ∧ (t.borrower k).unmapped = true ∧
        (∀ x, (∀ c ∈ copies, ∀ j < 8, x ≠ .dram (c + j)) → t.mem.rd x = s.mem.rd x) ∧
        (busy → (t.borrower k).stat = .evicting ∧ t.msgs = s.msgs) ∧ (¬ busy → reports t))))

/-- The steps that move and reduce data, and END (R404, R411 to R418, R421, R422, R425): a step of another kind, or of a context
that does not run, does nothing; the herder's own writes come first; SEND and PSEND send the bytes, or the exact values of
the own partial, to their peer; RECV and RRS take the peer's message of the round and tag; RED sums what every expected
contributor sent, saturated once; COPY moves a piece; a length or type that differs fails with REASON 2; END writes the log and the status
area, word 0 last, and only then counts the round. What a sender may have unacknowledged is the model's choice (log 74), the layout of a
log entry's header log 4, what a log longer than its region keeps log 75. -/
def Obligations.HerderStepsMoveData : Prop :=
  ∀ (s : State) (c : BitVec 6) (k : Coll) (m : CollMsg) (rest : List CollMsg) (p : Nat) (ls : List Loc)
      (w : Word × List (Byte × Bool) × Bool) (ws : List (Word × List (Byte × Bool) × Bool)),
    let C := c.toNat
    let u := UnitId.coll C
    let x := k.step
    let own := s.part.module
    let now := s.cycle.toNat
    let round := (k.round + 1) % 2 ^ 32
    let live : Prop := s.colls.get? C = some k ∧ k.stat = .running ∧ k.fin = none ∧ (s.ctxAt k.ctx).stat = .active ∧ k.writes = [] ∧
      s.unitErrs = [] ∧ k.hold = none ∧ s.tgtWait = []
    let ending : Prop := s.colls.get? C = some k ∧ k.stat = .running ∧ s.unitErrs = []
    let quiet : Prop := s.sideOf u = [] ∧ ∀ q ∈ s.e2eSrc, q.2.unacked = [] ∧ q.2.waiting = []
    let becomes (y : Coll) (t : State) : Prop := t.collAt C = y ∧ s.keeps t ∧ t.tasks = s.tasks
    let goes (y : Coll) (t : State) : Prop := becomes { y with
      pc := k.pc + 1, begun := false, phase := 0, idx := 0, moved := 0, buf := [], hold := none, bucket := .zero, tmp := []
      out := [], since := now } t
    let fails (reason cause : Nat) (t : State) : Prop := (t.collAt C).fin = some .halted ∧ (t.collAt C).reason = reason ∧
      (t.collAt C).cause = cause ∧ (t.collAt C).failed = k.pc ∧ (t.collAt C).queued = none ∧ s.keeps t ∧ t.tasks = s.tasks
    let blank (kind : Nat) : CollMsg := ⟨k.gid, round, own, x.tag, kind, x.ty, x.op, [], [], [], [], []⟩
    let sends (dst : Nat) (m : CollMsg) (t : State) : Prop := ∃ (parts : List Packet) (q : Packet), t.outq = s.outq ++ parts ++ [q] ∧
      q.op = .coll m ∧ (∀ y ∈ parts, y.op = .part ∧ y.len = 256) ∧ (∀ y ∈ parts ++ [q], y.src = own ∧ y.dst = dst ∧ y.cls = 2 ∧ y.len ≤ 256) ∧
      (parts ++ [q]).flatMap (·.data) = msgWire m
    let va := k.chunk own x x.a1
    let one (va : Word) (n : Nat) : Prop := k.buf = [] ∧ 0 < n ∧ va.toNat % 256 + n ≤ 256 ∧ ls.length = n ∧ s.opens u k.ctx va .read ls
    let bs := ls.map s.mem.rd
    let plain (bs : List Byte) : List (Byte × Bool) := bs.map fun b => (b, false)
    let sz := 2 ^ x.ty
    let els (bs : List Byte) : List Int := (List.range (x.len / sz)).map fun i => (BitVec.ofNat (8 * sz) (ofBytes bs / 2 ^ (8 * sz * i))).toInt
    let joins (a b : List Int) : List Int := (a.zip b).map fun z => match x.op with | 0 => z.1 + z.2 | 1 => min z.1 z.2 | _ => max z.1 z.2
    let took (kind : Nat) : Prop := k.inbox = m :: rest ∧ m.round = round ∧ m.kind = kind ∧ m.tag = x.tag ∧ m.sender = p
    let nothing (kind : Nat) : Prop := ∀ m ∈ k.inbox, ¬ (m.round = round ∧ m.kind = kind ∧ m.tag = x.tag ∧ m.sender = p)
    let differs : Prop := m.ty ≠ x.ty ∨ m.op ≠ x.op ∨ (m.incl ≠ [] ∧ m.vals.length ≠ x.len / sz)
    let ended (va : Word) (i : Instr) : Prop := quiet →
      (x.log = false ∨ k.logl2 = 0 → Completes i s (goes k)) ∧
      (x.log = true → k.logl2 ≠ 0 → k.out.length ≤ 2 ^ k.logl2 / 2 → Completes i s (goes { k with
        entries := k.entries ++ [logEntry 1 round k.pc va.toNat k.out.length k.out] })) ∧
      (x.log = true → k.logl2 ≠ 0 → 2 ^ k.logl2 / 2 < k.out.length → Completes i s (fails 8 0))
    let moves := [Instr.collStepSend c, .collStepRecv c, .collStepPsend c, .collStepRrs c, .collStepRed c, .collStepCopy c]
    let all := k.bucket.incl ++ k.bucket.excl
    let want := k.expected own x
    let value (v : Int) : Int := if x.op = 0 then max (-2 ^ (8 * sz - 1)) (min (2 ^ (8 * sz - 1) - 1) v) else v
    let sum := k.bucket.vals.flatMap fun v => toBytes sz (BitVec.ofInt (8 * sz) (value v)).toNat
    let off : Word := .ofNat 64 k.moved
    let cut := transferCut (va + off).toNat (k.chunk own x x.a2 + off).toNat (x.len - k.moved)
    let noted := k.entries ++ [logEntry 3 round 0 0 512 (plain (vectorOf k.excl))]
    let log := noted.flatten
    let size := 2 ^ k.logl2
    let past := log.length - size
    let done (st : CollStat) (y : Coll) : Coll := { y with stat := st, fin := none, stw := 0, prog := [], begun := false, phase := 0 }
    (s.colls.get? C = none → ∀ i ∈ Instr.collStepEnd c :: moves, Completes i s (fun t => t = s)) ∧
    (s.colls.get? C = some k → ∀ z ∈ moves.zip (List.range' 1 6), k.stat ≠ .running ∨ k.fin ≠ none ∨ x.kind ≠ z.2 →
      Completes z.1 s (fun t => t = s)) ∧
    (ending → k.fin = some .idle → k.writes = w :: ws → ls.length = w.2.1.length → w.2.2 = false →
      w.1.toNat % 256 + w.2.1.length ≤ 256 → (∀ b ∈ w.2.1, b.2 = false) → s.opens u k.ctx w.1 .write ls → 0 < ls.length →
      Completes (.collStepEnd c) s (fun t => s.stores t ls (w.2.1.map (·.1)) ∧ t.collAt C = { k with writes := ws, since := now } ∧
        t.tasks = s.tasks)) ∧
    (live → x.kind = 0 →
      let y := { k with begun := true, fin := some .idle, stw := 0, reason := 0, cause := 0, failed := 0, entries := noted }
      (k.logl2 = 0 → Completes (.collStepEnd c) s (becomes y)) ∧
      (k.logl2 ≠ 0 → Completes (.collStepEnd c) s (becomes { y with
        writes := logWrites k.log size ((k.logAt + past) % size) (log.drop past)
        logged := (dropRounds size 66 (k.logged ++ [(round, log.length - past)])).dropLast }))) ∧
    (ending → k.fin = some .halted → k.writes = [] → quiet → k.stw = 2 → k.queued = none →
      Completes (.collStepEnd c) s (becomes (done .halted k))) ∧
    (ending → k.fin = some .idle → k.writes = [] → quiet →
      (k.stw = 0 → Completes (.collStepEnd c) s (becomes { k with stw := 1, writes :=
        [(k.status + 64, plain (vectorOf k.excl), false),
         (k.status + 8, plain (toBytes 8 (k.excl.length * 2 ^ 48 + k.missing.length * 2 ^ 32 + k.missing.min?.getD 0) ++
           toBytes 8 (k.ovf * 2 ^ 32 + ((k.logged[0]?).map (·.1)).getD (if k.logl2 = 0 then 0 else round)) ++ toBytes 8 k.members.length), false)] })) ∧
      (k.stw = 1 → Completes (.collStepEnd c) s (becomes { k with stw := 2, writes := [(k.status, plain (toBytes 8
        ((if k.queued = none then 1 else 2) * 2 ^ 61 + k.reason * 2 ^ 57 + k.cause * 2 ^ 48 + k.failed * 2 ^ 40 + round)), true)] })) ∧
      (k.stw = 2 → k.queued = none → k.logl2 = 0 →
        Completes (.collStepEnd c) s (becomes (done .idle { k with round := round, noted := [], results := [] }))) ∧
      (k.stw = 2 → k.queued = none → k.logl2 ≠ 0 → let len := (k.entries.map List.length).sum
        Completes (.collStepEnd c) s (becomes (done .idle { k with
          round := round, noted := [], results := []
          logged := k.logged ++ [(round, Nat.min size len)], logAt := (k.logAt + len) % size })))) ∧
    (live → k.peer own x = some p →
      (x.kind = 1 → k.phase = 0 → p ≠ own → quiet → one va x.len → Completes (.collStepSend c) s (fun t =>
        sends p { blank 0 with bytes := bs } t ∧ becomes { k with begun := true, phase := 1, since := now } t)) ∧
      (x.kind = 1 → k.phase = 1 → ended 0 (.collStepSend c)) ∧
      (x.kind = 2 → k.phase = 0 → nothing 0 → Completes (.collStepRecv c) s (becomes { k with begun := true })) ∧
      (x.kind = 2 → k.phase = 0 → took 0 → m.bytes.length ≠ x.len → Completes (.collStepRecv c) s (fails 2 0)) ∧
      (x.kind = 2 → k.phase = 0 → took 0 → m.bytes.length = x.len → m.bad = [] → Completes (.collStepRecv c) s (becomes { k with
        begun := true, phase := 1, inbox := rest, writes := [(va, plain m.bytes, false)], out := plain m.bytes, since := now })) ∧
      (x.kind = 2 → k.phase = 1 → ended va (.collStepRecv c)) ∧
      (x.kind = 3 → k.phase = 0 → p ≠ own → quiet → one va x.len → Completes (.collStepPsend c) s (fun t =>
        sends p { blank 1 with vals := els bs, incl := [own] } t ∧ becomes { k.without [] with begun := true, phase := 1, since := now } t)) ∧
      (x.kind = 3 → k.phase = 1 → ended 0 (.collStepPsend c)) ∧
      (x.kind = 4 → k.phase = 0 → nothing 1 → Completes (.collStepRrs c) s (becomes { k with begun := true })) ∧
      (x.kind = 4 → k.phase = 0 → took 1 → differs → Completes (.collStepRrs c) s (fails 2 0)) ∧
      (x.kind = 4 → k.phase = 0 → took 1 → ¬ differs → k.bucket = .zero → Completes (.collStepRrs c) s (becomes { k with
        begun := true, phase := 1, inbox := rest, since := now
        bucket := ⟨m.incl, m.excl, if m.incl = [] then [] else m.vals⟩ }))) ∧
    (live → k.peer own x = none → k.phase = 0 →
      (x.kind = 4 → Completes (.collStepRrs c) s (becomes { k with begun := true, phase := 1 })) ∧
      (x.kind = 1 → quiet → x.log = false → Completes (.collStepSend c) s (goes k))) ∧
    (live → x.kind = 4 → k.phase = 1 → k.peer2 own x = some p → p ≠ own → quiet → own ∉ all → k.bucket.incl ≠ [] → one va x.len →
      Completes (.collStepRrs c) s (fun t => sends p { blank 1 with
        vals := joins k.bucket.vals (els bs), incl := k.bucket.incl ++ [own], excl := k.bucket.excl } t ∧
        becomes { k.without k.bucket.excl with begun := true, phase := 2, since := now } t)) ∧
    (live → x.kind = 4 → k.phase = 2 → ended 0 (.collStepRrs c)) ∧
    (live → x.kind = 5 →
      (k.phase = 0 → k.bucket = .zero → one va x.len → Completes (.collStepRed c) s (becomes { k with
        begun := true, phase := 1, since := now, bucket := ⟨[own], [], els bs⟩ })) ∧
      (k.phase = 1 → (∀ r ∈ want, r ∈ all) → (∀ r ∈ all, r ∈ want) → k.bucket.incl ≠ [] → k.bucket.excl = [] → k.excl = [] →
        Completes (.collStepRed c) s (becomes { k with
          begun := true, phase := 2, writes := [(va, plain sum, false)], out := plain sum })) ∧
      (k.phase = 1 → (∃ r ∈ want, r ∉ all) → took 1 → p ∈ want → ¬ differs → (∀ r ∈ m.incl ++ m.excl, r ∉ all) → m.incl ≠ [] →
        k.bucket.incl ≠ [] → Completes (.collStepRed c) s (becomes { k with
          begun := true, inbox := rest, since := now
          bucket := ⟨k.bucket.incl ++ m.incl, k.bucket.excl ++ m.excl, joins k.bucket.vals m.vals⟩ })) ∧
      (k.phase = 1 → (∃ r ∈ want, r ∉ all) → took 1 → p ∈ want → ¬ differs → (∃ r ∈ m.incl ++ m.excl, r ∈ all) →
        Completes (.collStepRed c) s (becomes { k with begun := true, inbox := rest, since := now })) ∧
      (k.phase = 2 → ended va (.collStepRed c))) ∧
    (live → x.kind = 6 →
      (k.moved < x.len → x.log = false → one (va + off) cut.2 → Completes (.collStepCopy c) s (becomes { k with
        begun := true, moved := k.moved + cut.1, buf := plain (bs.drop cut.1), out := [], since := now
        writes := [(k.chunk own x x.a2 + off, plain (bs.take cut.1), false)] })) ∧
      (x.len ≤ k.moved → ended (k.chunk own x x.a2) (.collStepCopy c)))

/-- The other steps, the messages and the routers (R404, R411, R415, R416, R419 to R426): WAIT reads its word again each µs until it
is at least A2; LOOP and ENDL count; SIGNAL adds at POD scope once all is acknowledged; APPEND sends its rows one by one; A2A
reads its descriptor and releases its peers; SAR joins the partials at the root; a message waits in the context of its GID;
TMO without progress fails with REASON 1; a replay writes the logged results of the rounds it lacks, waits for the donor's, or fails with
REASON 5; a row joins its queue or finds it full. The donor's answer as one event is the model's (log 76), that the routers' messages have no
end-to-end number log 32, when WAIT reads again log 31. -/
def Obligations.HerderStepsCountAndSignal : Prop :=
  ∀ (s : State) (c : BitVec 6) (k : Coll) (m : CollMsg) (rest : List CollMsg) (j src row dst : Nat) (ls hd tl ds : List Loc)
      (pkt : Packet) (logged : List CatchEntry) (donor : CatchLog) (q : BitVec 52) (data : List Byte) (h : SarHold),
    let C := c.toNat
    let u := UnitId.coll C
    let x := k.step
    let own := s.part.module
    let now := s.cycle.toNat
    let round := (k.round + 1) % 2 ^ 32
    let live : Prop := s.colls.get? C = some k ∧ k.stat = .running ∧ k.fin = none ∧ (s.ctxAt k.ctx).stat = .active ∧ k.writes = [] ∧
      s.unitErrs = [] ∧ k.hold = none ∧ s.tgtWait = []
    let quiet : Prop := s.sideOf u = [] ∧ ∀ q ∈ s.e2eSrc, q.2.unacked = [] ∧ q.2.waiting = []
    let becomes (y : Coll) (t : State) : Prop := t.collAt C = y ∧ s.keeps t ∧ t.tasks = s.tasks
    let to_ (pc : Nat) (y : Coll) : Coll := { y with
      pc := pc, begun := false, phase := 0, idx := 0, moved := 0, buf := [], hold := none, bucket := .zero, tmp := []
      out := [], since := now }
    let goes (pc : Nat) (y : Coll) (t : State) : Prop := becomes (to_ pc y) t
    let fails (reason cause : Nat) (t : State) : Prop := (t.collAt C).fin = some .halted ∧ (t.collAt C).reason = reason ∧
      (t.collAt C).cause = cause ∧ (t.collAt C).failed = k.pc ∧ (t.collAt C).queued = none ∧ s.keeps t ∧ t.tasks = s.tasks
    let read (va : Word) (n : Nat) : Prop := k.buf = [] ∧ va.toNat % 256 + n ≤ 256 ∧ ls.length = n ∧ s.opens u k.ctx va .read ls
    let bs := ls.map s.mem.rd
    let plain (bs : List Byte) : List (Byte × Bool) := bs.map fun b => (b, false)
    let step (i : Nat) : CStep := cstep (k.prog.getD i [])
    let count := k.cnt.getD x.csel 0 + 1
    let counted := { k with cnt := k.cnt.set x.csel count }
    let entry := x.a1 + .ofNat 64 (x.w3lo * x.len + 8 * k.idx)
    let dest := (k.tmp.getD 0 []).headD 0
    let root := k.members.headD 0
    let y := k.sarTag x
    let partial_ : CollMsg := ⟨k.gid, round, own, y.tag, 5, x.ty, x.op, [], k.bucket.vals, k.bucket.incl, k.bucket.excl, []⟩
    let unseen : Prop := s.sarKeys = [] ∧ s.sarHolds = []
    let tail : Word := .ofNat 64 (s.bytesAt (hd.take 8))
    let base := s.bytesAt (tl.take 8) % 2 ^ 52
    let cap := s.bytesAt (tl.drop 8)
    let place (ia : Nat) (a : Acc) (ls : List Loc) : Prop := ∀ i l, ls[i]? = some l → ∃ kind, s.lookIA (ia + i) a = .mem l kind
    let idle : Prop := s.held = [] ∧ (∀ cx ∈ s.cores, cx.2.side = []) ∧ (∀ rt ∈ s.rts, rt.2.kick.b 63 = false) ∧
      (∀ nc ∈ s.ctxs, nc.2.recs = []) ∧ s.repWait = []
    let wanted (r : Nat) : Prop := k.snap < r ∧ r < k.join
    let lost : Prop := donor.reachable = false ∨ wanted (k.snap + 1) ∧ k.snap + 1 < donor.first
    let behind : Prop := wanted (k.snap + 1) ∧ donor.last + 1 < k.join
    let theirs := [Instr.collStepWait c, .collStepLoop c, .collStepEndl c, .collStepAppend c, .collStepA2a c, .collStepSignal c,
      .collStepSar c]
    (s.colls.get? C = none → ∀ i ∈ .sarPartialResend c :: theirs, Completes i s (fun t => t = s)) ∧
    (s.colls.get? C = some k → ∀ z ∈ theirs.zip (List.range' 7 7), k.stat ≠ .running ∨ k.fin ≠ none ∨ x.kind ≠ z.2 →
      Completes z.1 s (fun t => t = s)) ∧
    (live → x.kind = 7 →
      (x.a1.toNat % 8 ≠ 0 → Completes (.collStepWait c) s (fails 3 0x08C)) ∧
      (x.a1.toNat % 8 = 0 → k.idx ≠ 0 → now + 1 < k.idx + 1400 → Completes (.collStepWait c) s (becomes { k with begun := true })) ∧
      (x.a1.toNat % 8 = 0 → k.idx = 0 ∨ k.idx + 1400 ≤ now + 1 → read x.a1 8 →
        (x.a2.toNat ≤ s.bytesAt ls → Completes (.collStepWait c) s (goes (k.pc + 1) k)) ∧
        (s.bytesAt ls < x.a2.toNat → Completes (.collStepWait c) s (becomes { k with begun := true, idx := now + 1 })))) ∧
    (live → x.kind = 8 →
      let k0 := { k with cnt := k.cnt.set x.csel 0 }
      (x.a1 ≠ 0 → Completes (.collStepLoop c) s (goes (k.pc + 1) k0)) ∧
      (x.a1 = 0 → k.pc < j → j < k.prog.length → (step j).kind = 9 → (step j).off = k.pc →
        (∀ i, k.pc < i → i < j → ¬ ((step i).kind = 9 ∧ (step i).off = k.pc)) →
        Completes (.collStepLoop c) s (goes (j + 1) k0))) ∧
    (live → x.kind = 9 →
      (count < (step x.off).a1.toNat → Completes (.collStepEndl c) s (goes (x.off + 1) counted)) ∧
      ((step x.off).a1.toNat ≤ count → Completes (.collStepEndl c) s (goes (k.pc + 1) counted))) ∧
    (live → x.kind = 10 →
      (x.w3lo ≤ k.idx → quiet → x.log = false → Completes (.collStepAppend c) s (goes (k.pc + 1) k)) ∧
      (k.idx < x.w3lo →
        (k.phase = 0 → read entry 8 → Completes (.collStepAppend c) s (becomes { k with
          begun := true, phase := 1, tmp := [[s.bytesAt ls % 2 ^ 12]], since := now })) ∧
        (k.phase = 1 → dest ∉ k.members → k.buf = [] → Completes (.collStepAppend c) s (becomes { k with
          begun := true, phase := 3, ovf := k.ovf + 1, writes := [(entry + 4, plain (toBytes 4 0xFFFFFFFF), false)], since := now })) ∧
        (k.phase = 1 → dest ∈ k.members → dest ≠ own → 0 < x.len → read (x.a1 + .ofNat 64 (x.len * k.idx)) x.len → quiet →
          s.translate k.ctx x.a2 permRW = .ok (src, dst) → Completes (.collStepAppend c) s (fun t =>
            (t.collAt C).phase = 2 ∧ s.keeps t ∧ ∃ p : Packet, t.outq = s.outq ++ [p] ∧ p.dst = dest ∧ p.op = .appendRow k.idx ∧ p.ia = dst ∧
              p.data = bs)) ∧
        (k.phase = 3 → Completes (.collStepAppend c) s (becomes { k with begun := true, phase := 0, idx := k.idx + 1 })))) ∧
    (live → x.kind = 11 →
      (k.phase = 0 → read x.a1 16 → Completes (.collStepA2a c) s (becomes { k with
        begun := true, phase := 1, since := now, tmp := k.tmp ++ [[s.bytesAt (ls.take 8), s.bytesAt (ls.drop 8)]] })) ∧
      (k.phase = 5 → k.tmp.getD 5 [] = [] → Completes (.collStepA2a c) s (becomes { k with begun := true, phase := 6 })) ∧
      (k.phase = 7 → k.inbox = [] → k.members ≠ [] → Completes (.collStepA2a c) s (becomes { k with begun := true })) ∧
      (k.phase = 10 → (k.tmp.getD 2 []).getD 3 0 < sumTo (k.tmp.getD 3 []) k.members.length → Completes (.collStepA2a c) s (fails 6 0)) ∧
      (k.phase = 8 → x.log = false → quiet → Completes (.collStepA2a c) s (goes (k.pc + 1) k))) ∧
    (live → x.kind = 12 →
      (x.a1.toNat % 8 ≠ 0 → Completes (.collStepSignal c) s (fails 3 0x08C)) ∧
      (x.a1.toNat % 8 = 0 → quiet → ls.length = 8 → s.opens u k.ctx x.a1 .atomic ls → (∀ l ∈ ls, ∀ a, l ≠ .host a) →
        Completes (.collStepSignal c) s (fun t => s.stores t ls (toBytes 8 (.ofNat 64 (s.bytesAt ls) + x.a2 : Word).toNat) ∧
          t.collAt C = to_ (k.pc + 1) k ∧ t.tasks = s.tasks))) ∧
    (live → x.kind = 13 →
      (k.phase = 0 → own = root → 0 < x.len → read x.a1 x.len → Completes (.collStepSar c) s (becomes { k with
        begun := true, phase := 1, idx := now, since := now, bucket := ⟨[own], [], elems x.ty bs⟩ })) ∧
      (k.phase = 1 → own ≠ root → k.inbox = m :: rest → m.round = round → m.kind = 6 → m.tag = y.tag → m.bytes.length = x.len →
        k.excl = [] → m.excl = [] → k.hold = none → Completes (.collStepSar c) s (becomes { k with
          begun := true, phase := 2, inbox := rest, writes := [(x.a1, plain m.bytes, false)], out := plain m.bytes
          sars := k.sars ++ [x.tag], since := now })) ∧
      (k.phase = 2 → x.log = false → quiet → Completes (.collStepSar c) s (goes (k.pc + 1) k)) ∧
      (k.phase = 1 → own ≠ root → k.idx + Nat.max 1 (s.linkcfg.f 39 32) * 1400 ≤ now → unseen →
        Completes (.sarPartialResend c) s (fun t => t.sarHolds = [⟨partial_, root, now + 70⟩] ∧
          becomes { k with begun := true, idx := now } t)) ∧
      (k.phase = 1 → now < k.idx + Nat.max 1 (s.linkcfg.f 39 32) * 1400 →
        Completes (.sarPartialResend c) s (becomes { k with begun := true }))) ∧
    (m.kind ≠ 5 → m.kind ≠ 6 → Completes (.collMessageArrival m) s (fun t => s.keeps t ∧ t.tasks = s.tasks ∧
      (s.colls.get? C = some k → k.stat ≠ .free → k.gid = m.gid → t.collAt C = { k with inbox := k.inbox ++ [m] }) ∧
      (s.colls.get? C = some k → k.stat = .free ∨ k.gid ≠ m.gid → t.collAt C = k))) ∧
    (s.colls.get? C = some k →
      (k.stat = .running → k.fin = none → k.begun = true → k.tmo ≠ 0 → k.since + k.tmo * 140000 ≤ now →
        Completes (.collStepTimeout c) s (fails 1 0)) ∧
      (k.stat ≠ .running ∨ k.begun = false ∨ k.tmo = 0 ∨ now < k.since + k.tmo * 140000 →
        Completes (.collStepTimeout c) s (fun t => t = s)) ∧
      (k.stat = .catching → k.fin = none →
        let y := { k with stw := 0, excl := [], missing := [], ovf := 0, donorMs := donor.members }
        (lost → Completes (.collCatchComplete c logged donor) s (becomes { y with fin := some .halted, reason := 5, cause := 0, failed := 0 })) ∧
        (¬ lost → behind → Completes (.collCatchComplete c logged donor) s (fun t => t = s)) ∧
        (¬ lost → ¬ behind → Completes (.collCatchComplete c logged donor) s (becomes { y with
          fin := some .idle
          writes := (logged.filter fun e => k.snap < e.round && e.round < k.join).map
            fun e => (.ofNat 64 e.va, plain e.data, false) }))) ∧
      (k.stat ≠ .catching ∨ k.fin ≠ none → Completes (.collCatchComplete c logged donor) s (fun t => t = s))) ∧
    (pkt.op = .coll m →
      (m.kind = 6 → pkt.dst ≠ own → Completes (.sarRouterCombine pkt) s (fun t => ∃ o : Packet, t.outq = s.outq ++ [o] ∧ o.dst = pkt.dst ∧
        o.op = .coll m)) ∧
      (m.kind ≠ 6 → unseen → Completes (.sarRouterCombine pkt) s (fun t => t.sarHolds = [⟨m, pkt.dst, now + 70⟩] ∧
        t.outq = s.outq ∧ t.colls = s.colls)) ∧
      (m.kind ≠ 6 → s.sarKeys = [] → s.sarHolds = [h] → h.msg.gid = m.gid → h.msg.round = m.round → h.msg.tag = m.tag →
        (∀ r ∈ m.incl ++ m.excl, r ∉ h.msg.incl ++ h.msg.excl) → m.incl ≠ [] → h.msg.incl ≠ [] → m.op = 0 →
        Completes (.sarRouterCombine pkt) s (fun t => t.sarHolds = [{ h with msg := { h.msg with
          incl := h.msg.incl ++ m.incl, excl := h.msg.excl ++ m.excl
          vals := (h.msg.vals.zip m.vals).map fun z => z.1 + z.2 } }]))) ∧
    (idle → hd.length = 16 → tl.length = 16 → (hd ++ tl ++ ds).Nodup →
      (∀ l ∈ hd ++ tl ++ ds, s.mem.bad l = false ∧ ∀ a, l ≠ .host a) → place q.toNat .atomic hd → place (q.toNat + 16) .read tl →
      (cap ≤ tail.toNat → Completes (.appendRowArrival q (.ofNat 12 src) (.ofNat 32 row) data) s (fun t => s.keeps t ∧
        t.tasks = s.tasks)) ∧
      (tail.toNat < cap → ds.length = data.length + 8 → src < 4096 → row < 2 ^ 32 →
        place (base + tail.toNat * (data.length + 8)) .write ds →
        Completes (.appendRowArrival q (.ofNat 12 src) (.ofNat 32 row) data) s (fun t =>
          t.mem.word (hd.take 8) = tail + 1 ∧ ds.map t.mem.rd = toBytes 8 (src * 2 ^ 52 + row) ++ data ∧
          t.mem.word (hd.drop 8) = s.mem.word (hd.drop 8) + 1 ∧ ∀ l, l ∉ hd ++ ds → t.mem.rd l = s.mem.rd l)))

/-- Power, errors, the host link and module reset (R9, R11, R146, R447, R450, R451, R453 to R457, R459): a re-grant gives each
island its grant and its duty, no grant above its kind's share and all of them within the limit, and applies the limit that I3C
wrote; an island over its grant, and a module over its coolant limit, are throttled; the limit of I3C stays within the package
power; a scrub counts a line it corrects and poisons one it cannot; an attestation carries the images' measurements, the fuse state and the
nonce, with both signatures, none of whose bytes this model fixes; a module reset returns everything but
host memory to reset, with PHASE MEMTRAIN or BOOTFAIL; LPDDR6 trained, the torus links train, and once each runs or has failed the module is
READY. The shares of a part with half the islands and the islands' order are the model's choice (log 50), the places of the tile and mask
stores in a scrub's address log 70, the verification's outcome as one input and the nonce's length log 73. -/
def Obligations.ModuleEventsDoTheirEffect : Prop :=
  ∀ (s : State) (asks duties : List Nat) (island g w line k link n : Nat) (nonce : List Byte) (sp err : BitVec 2) (verified : Bool) (l : Loc),
    let mesh : Nat := if s.part.variant = 2 then 16 else 32
    let power : Nat := if s.part.variant = 0 then 2600000 else if s.part.variant = 1 then 2400000 else 1300000
    let real : Prop := k < 2 * mesh
    let frame (t : State) : Prop := t = { s with islands := t.islands, modstat := t.modstat } ∧
      (real → (t.island k).gated = (s.island k).gated)
    let at_ := line / 64 * 64
    let p := (sp.toNat, at_)
    let now := s.cycle.toNat
    let early : Prop := ∃ a, s.modstat.grantAt = some a ∧ now < a + 5600
    let limit := s.modstat.nextLimit.getD s.modstat.limit
    let torus (q : LStat → Prop) : Prop := ∀ n < 144, s.part.fitted n = true → q (s.linkAt n).stat
    (early → Completes (.powerRegrant asks duties) s (fun t => t = s)) ∧
    (¬ early → Completes (.powerRegrant asks duties) s (fun t => frame t ∧
      (real → (t.island k).duty = duties.getD k 0 % 16 ∧ (t.island k).grant ≤ asks.getD k 0 ∧
        (t.island k).grant ≤ (if k < mesh then 1700000 else if k < mesh + mesh / 4 then 410000
          else if k < mesh + mesh / 2 then 180000 else 300000) * mesh / 32) ∧
      ((upFrom 0 (2 * mesh)).map fun j => (t.island j).grant).sum ≤ limit ∧
      t.modstat = { s.modstat with limit := limit, nextLimit := none, grantAt := some now })) ∧
    Completes (.islandGrantExceeded island g) s (fun t => frame t ∧ t.modstat = s.modstat ∧
      (1 ≤ g → g ≤ 15 → real → (t.island k).duty = if k = island then g else (s.island k).duty) ∧ (g = 0 ∨ 15 < g → t = s)) ∧
    Completes .coolantLimit s (fun t => frame t ∧ (real → (t.island k).duty = 1 ∧ (t.island k).grant = (s.island k).grant) ∧
      t.modstat = { s.modstat with therm := true }) ∧
    Completes (.i3cPowerLimitWrite w) s (fun t => t = { s with modstat := { s.modstat with nextLimit := some (min w power) } }) ∧
    (nonce.length = 32 → Completes (.attestationRequest nonce) s (fun t => let m := OutMsg.attest (if s.modstat.phase ≤ 1 then 0 else 3) nonce
      t = { s with msgs := s.msgs ++ [m] } ∧ m.attested.1.length = (if s.modstat.phase ≤ 1 then 64 else 208) ∧
        m.attested.2.map List.length = [384, 16224])) ∧
    (nonce.length ≠ 32 → Completes (.attestationRequest nonce) s (fun t => t = s)) ∧
    Completes (.patrolScrub sp line err) s (fun t => t.tasks = s.tasks ∧ (∀ x, t.mem.rd x = s.mem.rd x) ∧
      (err = 0 → t = s) ∧
      (err = 1 → t = { s with modstat := { s.modstat with corrected := s.modstat.corrected + 1 } }) ∧
      (2 ≤ err.toNat → sp.toNat < 2 → p ∈ t.mem.poison ∧ ∀ q, q ∈ t.mem.poison → q = p ∨ q ∈ s.mem.poison) ∧
      (2 ≤ err.toNat → sp = 2 → at_ % 0x80000 ∈ (t.coreAt (at_ / 0x80000)).poisonTile) ∧
      (2 ≤ err.toNat → sp = 3 → at_ % 0x8000 ∈ (t.coreAt (at_ / 0x8000)).poisonMask) ∧
      (2 ≤ sp.toNat → t.mem = s.mem)) ∧
    Completes .lpddr6Refresh s (fun t => t = s) ∧
    Completes .hostLinkDown s (fun t => t = { s with hostUp := false }) ∧
    Completes .hostLinkUp s (fun t => t = { s with hostUp := true }) ∧
    Completes (.moduleReset verified) s (fun t => t.part = s.part ∧ t.tasks = [] ∧ t.cores = [] ∧ t.kernels = [] ∧ t.held = [] ∧
      t.queues = [] ∧ t.ctxs = State.reset.ctxs ∧ t.borrowers = [] ∧ t.lenders = [] ∧ t.rotor = State.reset.rotor ∧
      t.e2eSrc = [] ∧ t.e2eTgt = [] ∧ t.cycle = State.reset.cycle ∧ t.hostUp = s.hostUp ∧ t.islands = State.reset.islands ∧
      t.modstat.phase = (if verified then 2 else 1) ∧ t.modstat.cause = 0 ∧ t.modstat.limit = power ∧ t.modstat.corrected = 0 ∧
      (t.linkAt link).stat = .down ∧
      (∀ a, l = .host a → t.mem.rd l = s.mem.rd l) ∧ ((∀ a, l ≠ .host a) → t.mem.rd l = 0) ∧
      ∀ q, q ∈ t.mem.poison ↔ q ∈ s.mem.poison ∧ q.1 = 2) ∧
    (s.modstat.phase = 2 → s.bringUp.modstat.phase = 3 ∧ (n < 144 → s.part.fitted n = true → (s.bringUp.linkAt n).stat = .training)) ∧
    (s.modstat.phase = 3 →
      (torus (fun x => x ≠ .down ∧ x ≠ .training) → s.bringUp = { s with modstat := { s.modstat with phase := 4 } }) ∧
      (¬ torus (fun x => x ≠ .down ∧ x ≠ .training) → s.bringUp = s)) ∧
    (s.modstat.phase ≠ 2 → s.modstat.phase ≠ 3 → s.bringUp = s)


/-! ### Encoding (R46 to R60) -/

/-- Words written out from the encoding tables decode to the instructions they stand for (R46 to R54): the worked bundle of the
bundle chapter, whose header lends V70 its high bit, and words of each family. An undefined major is reason 0, a reserved field
reason 1. -/
def Obligations.SpecWordsDecode : Prop :=
  let core (pos : Nat) (w : BitVec 32) (i : Instr) : Prop := decodeSlot false pos false 0 w = .ok i
  let retr (w : BitVec 32) (i : Instr) : Prop := decodeSlot true 1 false 0 w = .ok i
  (decodeBundle false (toBytes 4 0xF3000100 ++ toBytes 4 0x042863E8 ++ toBytes 4 0x02329053 ++ toBytes 4 0) =
    ⟨some 3, [⟨false, false, .nop⟩, ⟨false, false, .addi ⟨5, false⟩ ⟨6, false⟩ 1000⟩,
      ⟨false, false, .vadd 3 ⟨70, false⟩ ⟨41, false⟩ ⟨2, true⟩⟩, ⟨false, false, .nop⟩]⟩) ∧
  core 0 0x9E000000 .endTask ∧ core 0 0xA0000005 (.trapi 5) ∧ core 0 0xA2000000 .eret ∧ core 0 0x92008005 (.loopi 4 5) ∧
  core 0 0x94100002 (.lbrk 2 2) ∧ core 0 0x825FFFFD (.brt 2 (-3)) ∧ core 0 0x8BF80000 (.ret 63) ∧ core 0 0xA4380011 (.csrr 7 0x011) ∧
  core 0 0xA8000003 (.fence 3) ∧ core 0 0xAAA06000 (.launch 20 3) ∧ core 0 0x9AA2A01A (.waite 2 3 20 21) ∧
  core 1 0x4610500D (.cmpi 0 ⟨2, false⟩ ⟨5, false⟩ 13) ∧ core 1 0x84206410 (.ldw 4 3 2 16) ∧ core 1 0x983143CD (.aadd 6 10 7 2 3 true) ∧
  core 1 0x9419403C (.ldh 3 10 0 3 3 false) ∧ core 1 0xAC008120 (.pgdisc ⟨8, false⟩ ⟨9, false⟩) ∧
  core 2 0x02329053 (.vadd 3 ⟨6, false⟩ ⟨41, false⟩ ⟨2, true⟩) ∧ core 2 0x0D429547 (.vmulhQ 3 ⟨40, false⟩ ⟨41, false⟩ ⟨42, false⟩) ∧
  core 2 0x47406402 (.vld 40 3 2 2) ∧ core 3 0x86108480 (.tmma 2 4 9) ∧ core 3 0x9E228B00 (.tld 4 20 22) ∧
  core 3 0xAE28C001 (.collRun 5 6) ∧ core 0 0xAE20C007 (.bararr 4 6 7) ∧ retr 0xE0286000 (.pkget ⟨5, false⟩ ⟨6, false⟩) ∧
  retr 0xE4008140 (.pkfwd ⟨8, false⟩ ⟨10, false⟩) ∧
  decodeSlot false 1 false 0 0xE0286000 = .error 0 ∧ decodeSlot false 0 false 0 0x9E000001 = .error 1

/-- Decode and encode agree (R51 to R54): every slot operation has an encoding, and decoding the encoding of a well-formed one
gives it back, every operand at every value. -/
def Obligations.EncodedInstructionsDecodeBack : Prop :=
  ∀ i : Instr, i.isEvent = false → i.wf = true →
    ∃ e : Enc, encode i = some e ∧ e.pos < 4 ∧ e.ext < 256 ∧ decodeSlot e.retr e.pos e.hdr e.ext e.word = .ok i

/-- What a slot decodes to is well-formed and no event, and its encoding decodes to it again (R51 to R54, R60). -/
def Obligations.DecodedInstructionsAreWellFormed : Prop :=
  ∀ (retr hdr : Bool) (pos ext : Nat) (w : BitVec 32) (i : Instr), pos < 4 → ext < 256 →
    decodeSlot retr pos hdr ext w = .ok i → i.wf = true ∧ i.isEvent = false


/-! ### Steps, reset and invariants (R46 to R63, R170, R171) -/

/-- A step runs the decoded instruction (R46, R48, R50, R56, R222): with no input, and no unit with work left in this clk, the core
whose turn it is issues the bundle at its task's program counter; where one slot of it runs, the step is exec of that slot's
instruction, followed by the end of the bundle and, where the task gives issue up, the choice of the next one. Before it the shadow buffer
replays; after it: the slot is committed unless it raised, and a slot that raised leaves LATCHLOST as it was (log 60). -/
def Obligations.StepRunsDecodedInstruction : Prop :=
  ∀ (s s1 s3 r : State) (core slot n : Nat) (bs : List Byte) (i : Instr),
    let t := s1.taskAt core slot
    let c := s1.coreAt core
    let focus := s1.withIss { Issue.zero with core := core, slot := slot, pc := t.pc, inTrap := t.inTrap }
    let b := decodeBundle (1024 ≤ core) bs
    let old := s3.taskAt core slot
    let keeps := old.skip.getLsbD 0 && old.keptPc == old.pc && old.kept != .none
    let ready := s3.setTaskAt core slot old.atIssue
    let start := ready.withIss { ready.iss with
      commit := old.skip, act := if keeps then old.kept else .none, seq0 := (s3.coreAt core).depSeq
      infl := old.atIssue.inflight.length, pos := n, slotRaised := false }
    let done := if r.iss.slotRaised then r.setTask { r.task with csr := { r.task.csr with taskst := ready.task.csr.taskst } } else r.withIss { r.iss with commit := r.iss.commit ||| (1#4 <<< n) }
    s.inputs = [] → s.unitAct = none → s.nextCore = some core → State.pick { s with turn := core + 1 } core = some (s1, slot) →
    c.pauseTill ≤ s1.cycle.toNat → t.wait = .none →
    t.returning = false → s1.stillStalled core slot = false → s1.trapDue core slot = false →
    focus.fetch core slot = (s3, .ok bs) → b.illegal t.vMap t.noFlow = none → t.badLanding b = false →
    b.running old old.skip = [(n, i)] → overSlot old.vMap [(n, i)] ((ready.task.inflight.map Pend.weight).sum) = none →
    exec i start = .next r → r.iss.stall = false →
    step s = .next (((done.endBundle old keeps).chooseNext core).withIss .zero)

/-- What else a step is (R46, R48, R60, R63): no instruction and no event stops the machine, whatever the state; a step is the oldest input, done as exec does it, where the input is an event; else an action of
a unit; else a turn; else the end of the clk: CYCLE counts, and the results that are due are written. A bundle that breaks a
rule of R60 executes nothing and enters the handler with cause 16 × reason + mask and the mask in TRAPSLOTS. -/
def Obligations.StepsTakeInputsAndEndClks : Prop :=
  ∀ (s s1 s3 : State) (i : Instr) (rest : List Instr) (core slot k m reason : Nat) (bs : List Byte),
    let t := s1.taskAt core slot
    let c := s1.coreAt core
    let focus := s1.withIss { Issue.zero with core := core, slot := slot, pc := t.pc, inTrap := t.inTrap }
    let old := s.tasks.get .empty k
    let old3 := s3.taskAt core slot
    let calm : Prop := s.arrivals = [] ∧ s.barErrs = [] ∧ ∀ cx ∈ s.cores, ∀ nb ∈ cx.2.bars, nb.2.stat ≠ .waiting
    (∀ j : Instr, ∃ u : State, exec j s = .next u) ∧
    (s.inputs = i :: rest → i.isEvent = true → step s = exec i { s with inputs := rest }) ∧
    (s.inputs = i :: rest → i.isEvent = false → step s = .fault .badInput) ∧
    (∀ u, s.inputs = [] → s.unitAct = some u → step s = .next u) ∧
    (s.inputs = [] → s.unitAct = none → s.nextCore = none → ∃ u : State, step s = .next u ∧ u.cycle = s.cycle + 1 ∧ u.turn = 0 ∧
      u.acts = 0 ∧ (∀ l, u.mem.rd l = s.mem.rd l) ∧
      (calm → old.onCore = true → s.stopped (k / 16) = false → s.stalled.contains (k / 16) = false → k / 16 < 1024 →
        ∃ at_, u.tasks.get .empty k = { old.age with offAt := at_ }) ∧
      (calm → old.onCore = false → u.tasks.get .empty k = old)) ∧
    (s.inputs = [] → s.unitAct = none → s.nextCore = some core → State.pick { s with turn := core + 1 } core = some (s1, slot) →
      c.pauseTill ≤ s1.cycle.toNat → t.wait = .none →
      t.returning = false → s1.stillStalled core slot = false → s1.trapDue core slot = false →
      focus.fetch core slot = (s3, .ok bs) → (decodeBundle (1024 ≤ core) bs).illegal t.vMap t.noFlow = some (reason, m) →
      old3.inTrap = false → old3.hasHandler = true → (∀ f, old3.delay ≠ .taken f) → reason < 4 →
      ∃ u : State, step s = .next u ∧
        let v := u.taskAt core slot
        v.trap.cause = .ofNat 64 (2 ^ 63 + old3.loops.length * 2 ^ 53 + 16 * reason + m) ∧ v.trap.slots = .ofNat 64 m ∧
        v.trap.pc = old3.pc &&& .ofNat 64 (maskF 56 4) ∧ v.pc = old3.trap.vec &&& .ofNat 64 (maskF 56 4) ∧ v.regs = old3.regs ∧
        ((∀ x ∈ old3.inflight, x.dest.atDrain = false) → v.tile = old3.tile) ∧ ∀ l, u.mem.rd l = s3.mem.rd l)

/-- The end of a clk writes what is due (R48, R55): a register takes the value of the last-issued of the results due for it; every
other register keeps its value; a result that is not due has one clk less to go; a late cause stays. -/
def Obligations.DueResultsReachTheirRegisters : Prop :=
  ∀ (t : Task) (a b : List Pend) (p : Pend) (x : VReg) (n : Nat),
    let due (q : Pend) : Prop := q.left ≤ 1
    let hitsG (q : Pend) : Prop := due q ∧ (q.dest = .g n ∨ q.dest = .gPair n ∨ ∃ k, n = k + 1 ∧ q.dest = .gPair k)
    let hitsQ (q : Pend) : Prop := due q ∧ (q.dest = .q n ∨ q.dest = .qAll)
    let hitsV (q : Pend) : Prop := due q ∧ q.dest = .v n
    let hitsK (q : Pend) : Prop := due q ∧ q.dest = .k n
    let last (d : RDest) : Prop := t.inflight = a ++ p :: b ∧ p.dest = d ∧ p.val = .ready x ∧ p.left ≤ 1
    ((∀ q ∈ t.inflight, ¬ hitsG q) → t.age.gReg n = t.gReg n) ∧
    ((∀ q ∈ t.inflight, ¬ hitsQ q) → t.age.qReg n = t.qReg n) ∧
    ((∀ q ∈ t.inflight, ¬ hitsV q) → t.age.vPhys n = t.vPhys n) ∧
    ((∀ q ∈ t.inflight, ¬ hitsK q) → t.age.kReg n = t.kReg n) ∧
    t.age.gReg 0 = 0 ∧ t.age.qReg 0 = true ∧ t.age.pc = t.pc ∧ t.age.trap = t.trap ∧ t.age.loops = t.loops ∧ t.age.stat = t.stat ∧
    (last (.g n) → n ≠ 0 → (∀ q ∈ b, ¬ hitsG q) → t.age.gReg n = x.setWidth 64) ∧
    (last (.gPair n) → n ≠ 0 → (∀ q ∈ b, ¬ hitsG q) → t.age.gReg n = x.setWidth 64) ∧
    (∀ k, last (.gPair k) → n = k + 1 → (∀ q ∈ b, ¬ hitsG q) → t.age.gReg n = (x >>> 64).setWidth 64) ∧
    (last (.q n) → n ≠ 0 → n < 16 → (∀ q ∈ b, ¬ hitsQ q) → t.age.qReg n = x.getLsbD 0) ∧
    (last .qAll → n ≠ 0 → n < 16 → (∀ q ∈ b, ¬ hitsQ q) → t.age.qReg n = x.getLsbD n) ∧
    (last (.v n) → (∀ q ∈ b, ¬ hitsV q) → t.age.vPhys n = x) ∧
    (last (.k n) → (∀ q ∈ b, ¬ hitsK q) → t.age.kReg n = x.setWidth 64) ∧
    t.age.inflight = (t.inflight.filter fun q => 1 < q.left || q.isLate).map (fun q => { q with left := Nat.max 1 (q.left - 1) })

/-- The run queue of a core (R170, R171): the task that holds issue keeps it; else, of the READY tasks, the one passed over 64 times
first, else one of the deepest level; it is the only one that becomes ISSUING, its latches lost where another task issued last
(R58), its first bundle 2 clk after the core's last one unless it is the task that yielded (R172); every other READY task counts
a pass. -/
def Obligations.RunQueueChoosesDeepestLevel : Prop :=
  ∀ (s s' : State) (core slot j : Nat),
    let T (j : Nat) := s.taskAt core j
    let isReady (j : Nat) : Prop := (j, T j) ∈ s.readyOn core
    core < 1024 → s.pick core = some (s', slot) →
    (∀ x, s.issuerOf core = some x → s' = s ∧ slot = x.1) ∧
    (s.issuerOf core = none → s.tasksOk →
      isReady slot ∧ (s'.taskAt core slot) = { T slot with
        stat := .issuing, passes := 0, agedAt := none
        latch := if (s.coreAt core).lastIssuer = some slot then (T slot).latch else .lost } ∧ (s'.coreAt core).mono = 0 ∧
      (s'.coreAt core).pauseTill = (if (s.coreAt core).lastIssuer = none ∨ (s.coreAt core).yielded = some slot then
        (s.coreAt core).pauseTill else Nat.max (s.coreAt core).pauseTill ((s.coreAt core).lastAt + 2)) ∧
      (isReady j → j ≠ slot → s'.taskAt core j = { T j with
        passes := (T j).passes + 1, agedAt := if (T j).passes + 1 = 64 then some s.cycle.toNat else (T j).agedAt }) ∧
      (¬ isReady j → s'.taskAt core j = T j) ∧
      (∀ a, isReady j → (T j).agedAt = some a → ∃ b, (T slot).agedAt = some b ∧ b ≤ a) ∧
      ((∀ j, isReady j → (T j).agedAt = none) → isReady j → (T j).place.level ≤ (T slot).place.level) ∧
      ∀ l, s'.mem.rd l = s.mem.rd l)

/-- The machine right after reset (R83, R97, R102, R358, R369, R404, R446): no task, every context FREE, no page table, every link
DOWN with no failure, the rotor disabled, the links' and flows' configuration at their reset fields, no collective context open,
PHASE ROM; and the model's choices of logs 1, 5 and 6: unlisted bytes read 0, the part 512A of stepping 1 is module 0,
CYCLE 0. -/
def Obligations.ResetIsAsTheSpecSays : Prop :=
  let s := State.reset
  (∀ core slot, s.taskAt core slot = .empty) ∧ (∀ n, (s.ctxAt n).stat = .free) ∧ s.page.ptbase = 0 ∧ s.page.ptinv = [] ∧
  s.page.lost = false ∧ (∀ n, (s.linkAt n).stat = .down ∧ (s.linkAt n).failcause = 0 ∧ (s.linkAt n).auto = true) ∧
  s.rotor.en = false ∧ s.rotor.lock = false ∧ (∀ c, (s.collAt c).stat = .free) ∧ (∀ m, (s.lender m).stat = .free) ∧
  (∀ n, (s.borrower n).stat = .free) ∧ s.modstat.phase = 0 ∧ s.modstat.cause = 0 ∧ s.modstat.limit = 2600000 ∧ s.held = [] ∧ s.inputs = [] ∧
  (∀ l, s.mem.rd l = 0 ∧ s.mem.bad l = false) ∧ s.part = ⟨0, 1, 0⟩ ∧ s.cycle = 0

/-- The memory and the task table of the reset state are in their canonical form. -/
def Obligations.ResetTablesAreCanonical : Prop :=
  State.reset.memOk ∧ State.reset.tasksOk

/-- Every step keeps the canonical form of memory: the addresses listed rise strictly and none lists the byte an unlisted address
reads as, so equal memories are equal data. -/
def Obligations.StepsKeepMemoryCanonical : Prop :=
  ∀ s t : State, s.memOk → step s = .next t → t.memOk

/-- Every step keeps the task table in order: each slot of a core, and each thread of a retriever, is listed at most once. -/
def Obligations.StepsKeepTaskTableSorted : Prop :=
  ∀ s t : State, s.tasksOk → step s = .next t → t.tasksOk

end
end

