-- ==== Sys2Proof/Laws/Tab.lean ====
section
/-! SUPPORT. The laws of the finite tables: a read after a write, and the canonical form. -/

namespace Sys2Proof.Tab

variable {α : Type}

@[simp] theorem get_put_self (d : α) (t : Tab α) (k : Nat) (v : α) : get d (put t k v) k = v := by
  induction t with
  | nil => simp [put, get]
  | cons x t ih =>
    obtain ⟨k', v'⟩ := x
    simp only [put]
    split
    · simp [get]
    · split
      · simp [get]
      · simp [get, *]

theorem get_put_ne (d : α) (t : Tab α) {k j : Nat} (v : α) (h : j ≠ k) : get d (put t k v) j = get d t j := by
  induction t with
  | nil => simp [put, get, Ne.symm h]
  | cons x t ih =>
    obtain ⟨k', v'⟩ := x
    simp only [put]
    split
    · simp [get, Ne.symm h]
    · split
      · rename_i hk
        subst hk
        simp [get, Ne.symm h]
      · simp only [get, ih]

theorem get_put (d : α) (t : Tab α) (k j : Nat) (v : α) : get d (put t k v) j = if j = k then v else get d t j := by
  split
  · rename_i h
    subst h
    exact get_put_self d t j v
  · rename_i h
    exact get_put_ne d t v h

@[simp] theorem get?_put_self (t : Tab α) (k : Nat) (v : α) : get? (put t k v) k = some v := by
  induction t with
  | nil => simp [put, get?]
  | cons x t ih =>
    obtain ⟨k', v'⟩ := x
    simp only [put]
    split
    · simp [get?]
    · split
      · simp [get?]
      · simp [get?, *]

theorem get?_put_ne (t : Tab α) {k j : Nat} (v : α) (h : j ≠ k) : get? (put t k v) j = get? t j := by
  induction t with
  | nil => simp [put, get?, Ne.symm h]
  | cons x t ih =>
    obtain ⟨k', v'⟩ := x
    simp only [put]
    split
    · simp [get?, Ne.symm h]
    · split
      · rename_i hk
        subst hk
        simp [get?, Ne.symm h]
      · simp only [get?, ih]

@[simp] theorem get_del_self (d : α) (t : Tab α) (k : Nat) : get d (del t k) k = d := by
  induction t with
  | nil => rfl
  | cons x t ih =>
    obtain ⟨k', v'⟩ := x
    simp only [del]
    split
    · exact ih
    · simp [get, *]

theorem get_del_ne (d : α) (t : Tab α) {k j : Nat} (h : j ≠ k) : get d (del t k) j = get d t j := by
  induction t with
  | nil => rfl
  | cons x t ih =>
    obtain ⟨k', v'⟩ := x
    simp only [del]
    split
    · rename_i hk
      subst hk
      simp [get, Ne.symm h, ih]
    · simp only [get, ih]

@[simp] theorem get_set_self [DecidableEq α] (d : α) (t : Tab α) (k : Nat) (v : α) : get d (set d t k v) k = v := by
  unfold set
  split
  · simp [*]
  · simp

theorem get_set_ne [DecidableEq α] (d : α) (t : Tab α) {k j : Nat} (v : α) (h : j ≠ k) :
    get d (set d t k v) j = get d t j := by
  unfold set
  split
  · exact get_del_ne d t h
  · exact get_put_ne d t v h

theorem get_set [DecidableEq α] (d : α) (t : Tab α) (k j : Nat) (v : α) :
    get d (set d t k v) j = if j = k then v else get d t j := by
  split
  · rename_i h
    subst h
    exact get_set_self d t j v
  · rename_i h
    exact get_set_ne d t v h

/-! ### The canonical form -/

theorem wfFrom_mono [DecidableEq α] {d : α} {t : Tab α} {lo lo' : Nat} (h : lo ≤ lo') (ht : wfFrom d lo' t = true) :
    wfFrom d lo t = true := by
  cases t with
  | nil => rfl
  | cons x t =>
    obtain ⟨k, v⟩ := x
    simp only [wfFrom, Bool.and_eq_true, decide_eq_true_eq] at ht ⊢
    exact ⟨⟨Nat.le_trans h ht.1.1, ht.1.2⟩, ht.2⟩

theorem wfFrom_del [DecidableEq α] {d : α} (t : Tab α) {lo : Nat} (k : Nat) (ht : wfFrom d lo t = true) :
    wfFrom d lo (del t k) = true := by
  induction t generalizing lo with
  | nil => rfl
  | cons x t ih =>
    obtain ⟨k', v'⟩ := x
    simp only [wfFrom, Bool.and_eq_true, decide_eq_true_eq] at ht
    simp only [del]
    split
    · exact wfFrom_mono (Nat.le_succ_of_le ht.1.1) (ih ht.2)
    · simp only [wfFrom, Bool.and_eq_true, decide_eq_true_eq]
      exact ⟨ht.1, ih ht.2⟩

theorem wfFrom_put [DecidableEq α] {d : α} (t : Tab α) {lo k : Nat} {v : α} (hk : lo ≤ k) (hv : v ≠ d)
    (ht : wfFrom d lo t = true) : wfFrom d lo (put t k v) = true := by
  induction t generalizing lo with
  | nil => simp [put, wfFrom, hk, hv]
  | cons x t ih =>
    obtain ⟨k', v'⟩ := x
    simp only [wfFrom, Bool.and_eq_true, decide_eq_true_eq] at ht
    simp only [put]
    split
    · simp only [wfFrom, Bool.and_eq_true, decide_eq_true_eq]
      exact ⟨⟨hk, hv⟩, ⟨by omega, ht.1.2⟩, ht.2⟩
    · split
      · simp only [wfFrom, Bool.and_eq_true, decide_eq_true_eq]
        refine ⟨⟨hk, hv⟩, ?_⟩
        rename_i h
        rw [← h]
        exact ht.2
      · simp only [wfFrom, Bool.and_eq_true, decide_eq_true_eq]
        exact ⟨ht.1, ih (by omega) ht.2⟩

theorem wf_set [DecidableEq α] {d : α} {t : Tab α} (k : Nat) (v : α) (ht : wf d t = true) : wf d (set d t k v) = true := by
  unfold set
  split
  · exact wfFrom_del t k ht
  · exact wfFrom_put t (Nat.zero_le k) ‹_› ht

theorem wf_setMany [DecidableEq α] {d : α} (vs : List α) {t : Tab α} (k : Nat) (ht : wf d t = true) :
    wf d (setMany d t k vs) = true := by
  induction vs generalizing t k with
  | nil => exact ht
  | cons v vs ih => exact ih (k + 1) (wf_set k v ht)

theorem wf_nil [DecidableEq α] (d : α) : wf d ([] : Tab α) = true := rfl

end Sys2Proof.Tab
end

