-- ==== Sys2Proof/Laws/Mem.lean ====
section
/-! SUPPORT. What the operations on memory do: a read after a write, and that each keeps the canonical form. -/

namespace Sys2Proof.Machine

theorem Mem.rd_wr (m : Mem) (l k : Loc) (b : Byte) : (m.wr l b).rd k = if k = l then b else m.rd k := by
  cases l <;> cases k <;> simp [Mem.wr, Mem.rd, Tab.get_set]

@[simp] theorem Mem.rd_wr_same (m : Mem) (l : Loc) (b : Byte) : (m.wr l b).rd l = b := by simp [Mem.rd_wr]

theorem Mem.rd_wr_ne (m : Mem) {l k : Loc} (b : Byte) (h : k ≠ l) : (m.wr l b).rd k = m.rd k := by simp [Mem.rd_wr, h]

@[simp] theorem Mem.rd_heal (m : Mem) (ls : List Loc) (k : Loc) : (m.heal ls).rd k = m.rd k := by cases k <;> rfl

@[simp] theorem Mem.rd_taint (m : Mem) (ls : List (Loc × Bool)) (k : Loc) : (m.taint ls).rd k = m.rd k := by cases k <;> rfl

theorem Mem.rd_wrAll_ne (m : Mem) (ls : List (Loc × Byte)) (k : Loc) (h : k ∉ ls.map (·.1)) : (m.wrAll ls).rd k = m.rd k := by
  rw [Mem.wrAll, Mem.rd_heal]
  induction ls generalizing m with
  | nil => rfl
  | cons x ls ih =>
    simp only [List.map_cons, List.mem_cons, not_or] at h
    rw [List.foldl_cons, ih _ h.2, Mem.rd_wr_ne _ _ h.1]

theorem Mem.wf_wr {m : Mem} (l : Loc) (b : Byte) (h : m.wf) : (m.wr l b).wf := by
  obtain ⟨hr, hd, hh⟩ := h
  cases l
  · exact ⟨Tab.wf_set _ _ hr, hd, hh⟩
  · exact ⟨hr, Tab.wf_set _ _ hd, hh⟩
  · exact ⟨hr, hd, Tab.wf_set _ _ hh⟩

theorem Mem.wf_heal {m : Mem} (ls : List Loc) (h : m.wf) : (m.heal ls).wf := h

theorem Mem.wf_taint {m : Mem} (ls : List (Loc × Bool)) (h : m.wf) : (m.taint ls).wf := h

theorem Mem.wf_wrAll {m : Mem} (ls : List (Loc × Byte)) (h : m.wf) : (m.wrAll ls).wf := by
  rw [Mem.wrAll]
  apply Mem.wf_heal
  induction ls generalizing m with
  | nil => exact h
  | cons x ls ih => exact ih (Mem.wf_wr _ _ h)

theorem Mem.wf_setWord {m : Mem} (ls : List Loc) (w : Word) (h : m.wf) : (m.setWord ls w).wf := Mem.wf_wrAll _ h

theorem Mem.atomic_old (m : Mem) (op : Nat) (ls : List Loc) (ops : List Word) : (m.atomic op ls ops).1 = ls.map m.rd := by
  simp only [Mem.atomic]
  split <;> rfl

theorem Mem.wf_atomic {m m' : Mem} {op : Nat} {ls : List Loc} {ops : List Word} (h : m.wf) (ha : (m.atomic op ls ops).2 = some m') :
    m'.wf := by
  simp only [Mem.atomic] at ha
  generalize (if op = 9 then _ else _ : Option Nat) = new at ha
  cases new with
  | none => simp at ha
  | some x =>
    simp only [Option.some.injEq] at ha
    exact ha ▸ Mem.wf_wrAll _ h

theorem State.reset_mem_wf : State.reset.mem.wf := by decide

end Sys2Proof.Machine
end

