-- ==== Sys2Proof/Laws/State.lean ====
section
/-! SUPPORT. What each update of the state leaves as it is, field by field, and what it sets. -/

namespace Sys2Proof.Machine

/-! ### State.setTaskAt -/

@[simp] theorem State.setTaskAt_part (s : State) (c k : Nat) (t : Task) : (s.setTaskAt c k t).part = s.part := rfl
@[simp] theorem State.setTaskAt_cycle (s : State) (c k : Nat) (t : Task) : (s.setTaskAt c k t).cycle = s.cycle := rfl
@[simp] theorem State.setTaskAt_offs (s : State) (c k : Nat) (t : Task) : (s.setTaskAt c k t).offs = s.offs := rfl
@[simp] theorem State.setTaskAt_cores (s : State) (c k : Nat) (t : Task) : (s.setTaskAt c k t).cores = s.cores := rfl
@[simp] theorem State.setTaskAt_ctxs (s : State) (c k : Nat) (t : Task) : (s.setTaskAt c k t).ctxs = s.ctxs := rfl
@[simp] theorem State.setTaskAt_mem (s : State) (c k : Nat) (t : Task) : (s.setTaskAt c k t).mem = s.mem := rfl
@[simp] theorem State.setTaskAt_page (s : State) (c k : Nat) (t : Task) : (s.setTaskAt c k t).page = s.page := rfl
@[simp] theorem State.setTaskAt_podmap (s : State) (c k : Nat) (t : Task) : (s.setTaskAt c k t).podmap = s.podmap := rfl
@[simp] theorem State.setTaskAt_hostUp (s : State) (c k : Nat) (t : Task) : (s.setTaskAt c k t).hostUp = s.hostUp := rfl
@[simp] theorem State.setTaskAt_e2eSrc (s : State) (c k : Nat) (t : Task) : (s.setTaskAt c k t).e2eSrc = s.e2eSrc := rfl
@[simp] theorem State.setTaskAt_e2eTgt (s : State) (c k : Nat) (t : Task) : (s.setTaskAt c k t).e2eTgt = s.e2eTgt := rfl
@[simp] theorem State.setTaskAt_tgtWait (s : State) (c k : Nat) (t : Task) : (s.setTaskAt c k t).tgtWait = s.tgtWait := rfl
@[simp] theorem State.setTaskAt_outq (s : State) (c k : Nat) (t : Task) : (s.setTaskAt c k t).outq = s.outq := rfl
@[simp] theorem State.setTaskAt_lastSeq (s : State) (c k : Nat) (t : Task) : (s.setTaskAt c k t).lastSeq = s.lastSeq := rfl
@[simp] theorem State.setTaskAt_rts (s : State) (c k : Nat) (t : Task) : (s.setTaskAt c k t).rts = s.rts := rfl
@[simp] theorem State.setTaskAt_rsram (s : State) (c k : Nat) (t : Task) : (s.setTaskAt c k t).rsram = s.rsram := rfl
@[simp] theorem State.setTaskAt_migs (s : State) (c k : Nat) (t : Task) : (s.setTaskAt c k t).migs = s.migs := rfl
@[simp] theorem State.setTaskAt_links (s : State) (c k : Nat) (t : Task) : (s.setTaskAt c k t).links = s.links := rfl
@[simp] theorem State.setTaskAt_linkcfg (s : State) (c k : Nat) (t : Task) : (s.setTaskAt c k t).linkcfg = s.linkcfg := rfl
@[simp] theorem State.setTaskAt_flowcfg (s : State) (c k : Nat) (t : Task) : (s.setTaskAt c k t).flowcfg = s.flowcfg := rfl
@[simp] theorem State.setTaskAt_flows (s : State) (c k : Nat) (t : Task) : (s.setTaskAt c k t).flows = s.flows := rfl
@[simp] theorem State.setTaskAt_rotor (s : State) (c k : Nat) (t : Task) : (s.setTaskAt c k t).rotor = s.rotor := rfl
@[simp] theorem State.setTaskAt_lenders (s : State) (c k : Nat) (t : Task) : (s.setTaskAt c k t).lenders = s.lenders := rfl
@[simp] theorem State.setTaskAt_borrowers (s : State) (c k : Nat) (t : Task) : (s.setTaskAt c k t).borrowers = s.borrowers := rfl
@[simp] theorem State.setTaskAt_colls (s : State) (c k : Nat) (t : Task) : (s.setTaskAt c k t).colls = s.colls := rfl
@[simp] theorem State.setTaskAt_collCmds (s : State) (c k : Nat) (t : Task) : (s.setTaskAt c k t).collCmds = s.collCmds := rfl
@[simp] theorem State.setTaskAt_herdLast (s : State) (c k : Nat) (t : Task) : (s.setTaskAt c k t).herdLast = s.herdLast := rfl
@[simp] theorem State.setTaskAt_sarHolds (s : State) (c k : Nat) (t : Task) : (s.setTaskAt c k t).sarHolds = s.sarHolds := rfl
@[simp] theorem State.setTaskAt_sarKeys (s : State) (c k : Nat) (t : Task) : (s.setTaskAt c k t).sarKeys = s.sarKeys := rfl
@[simp] theorem State.setTaskAt_msgs (s : State) (c k : Nat) (t : Task) : (s.setTaskAt c k t).msgs = s.msgs := rfl
@[simp] theorem State.setTaskAt_modstat (s : State) (c k : Nat) (t : Task) : (s.setTaskAt c k t).modstat = s.modstat := rfl
@[simp] theorem State.setTaskAt_islands (s : State) (c k : Nat) (t : Task) : (s.setTaskAt c k t).islands = s.islands := rfl
@[simp] theorem State.setTaskAt_queues (s : State) (c k : Nat) (t : Task) : (s.setTaskAt c k t).queues = s.queues := rfl
@[simp] theorem State.setTaskAt_lastQueue (s : State) (c k : Nat) (t : Task) : (s.setTaskAt c k t).lastQueue = s.lastQueue := rfl
@[simp] theorem State.setTaskAt_kernels (s : State) (c k : Nat) (t : Task) : (s.setTaskAt c k t).kernels = s.kernels := rfl
@[simp] theorem State.setTaskAt_launches (s : State) (c k : Nat) (t : Task) : (s.setTaskAt c k t).launches = s.launches := rfl
@[simp] theorem State.setTaskAt_parked (s : State) (c k : Nat) (t : Task) : (s.setTaskAt c k t).parked = s.parked := rfl
@[simp] theorem State.setTaskAt_arrivals (s : State) (c k : Nat) (t : Task) : (s.setTaskAt c k t).arrivals = s.arrivals := rfl
@[simp] theorem State.setTaskAt_held (s : State) (c k : Nat) (t : Task) : (s.setTaskAt c k t).held = s.held := rfl
@[simp] theorem State.setTaskAt_answers (s : State) (c k : Nat) (t : Task) : (s.setTaskAt c k t).answers = s.answers := rfl
@[simp] theorem State.setTaskAt_unitErrs (s : State) (c k : Nat) (t : Task) : (s.setTaskAt c k t).unitErrs = s.unitErrs := rfl
@[simp] theorem State.setTaskAt_repWait (s : State) (c k : Nat) (t : Task) : (s.setTaskAt c k t).repWait = s.repWait := rfl
@[simp] theorem State.setTaskAt_iss (s : State) (c k : Nat) (t : Task) : (s.setTaskAt c k t).iss = s.iss := rfl
@[simp] theorem State.setTaskAt_turn (s : State) (c k : Nat) (t : Task) : (s.setTaskAt c k t).turn = s.turn := rfl
@[simp] theorem State.setTaskAt_stalled (s : State) (c k : Nat) (t : Task) : (s.setTaskAt c k t).stalled = s.stalled := rfl
@[simp] theorem State.setTaskAt_barErrs (s : State) (c k : Nat) (t : Task) : (s.setTaskAt c k t).barErrs = s.barErrs := rfl
@[simp] theorem State.setTaskAt_acts (s : State) (c k : Nat) (t : Task) : (s.setTaskAt c k t).acts = s.acts := rfl
@[simp] theorem State.setTaskAt_nextId (s : State) (c k : Nat) (t : Task) : (s.setTaskAt c k t).nextId = s.nextId := rfl
@[simp] theorem State.setTaskAt_inputs (s : State) (c k : Nat) (t : Task) : (s.setTaskAt c k t).inputs = s.inputs := rfl
@[simp] theorem State.setTaskAt_barq (s : State) (c k : Nat) (t : Task) : (s.setTaskAt c k t).barq = s.barq := rfl
@[simp] theorem State.setTaskAt_hostReads (s : State) (c k : Nat) (t : Task) : (s.setTaskAt c k t).hostReads = s.hostReads := rfl
@[simp] theorem State.setTaskAt_free (s : State) (c k : Nat) (t : Task) : (s.setTaskAt c k t).free = s.free := rfl

/-! ### State.setTask -/

@[simp] theorem State.setTask_part (s : State) (t : Task) : (s.setTask t).part = s.part := rfl
@[simp] theorem State.setTask_cycle (s : State) (t : Task) : (s.setTask t).cycle = s.cycle := rfl
@[simp] theorem State.setTask_offs (s : State) (t : Task) : (s.setTask t).offs = s.offs := rfl
@[simp] theorem State.setTask_cores (s : State) (t : Task) : (s.setTask t).cores = s.cores := rfl
@[simp] theorem State.setTask_ctxs (s : State) (t : Task) : (s.setTask t).ctxs = s.ctxs := rfl
@[simp] theorem State.setTask_mem (s : State) (t : Task) : (s.setTask t).mem = s.mem := rfl
@[simp] theorem State.setTask_page (s : State) (t : Task) : (s.setTask t).page = s.page := rfl
@[simp] theorem State.setTask_podmap (s : State) (t : Task) : (s.setTask t).podmap = s.podmap := rfl
@[simp] theorem State.setTask_hostUp (s : State) (t : Task) : (s.setTask t).hostUp = s.hostUp := rfl
@[simp] theorem State.setTask_e2eSrc (s : State) (t : Task) : (s.setTask t).e2eSrc = s.e2eSrc := rfl
@[simp] theorem State.setTask_e2eTgt (s : State) (t : Task) : (s.setTask t).e2eTgt = s.e2eTgt := rfl
@[simp] theorem State.setTask_tgtWait (s : State) (t : Task) : (s.setTask t).tgtWait = s.tgtWait := rfl
@[simp] theorem State.setTask_outq (s : State) (t : Task) : (s.setTask t).outq = s.outq := rfl
@[simp] theorem State.setTask_lastSeq (s : State) (t : Task) : (s.setTask t).lastSeq = s.lastSeq := rfl
@[simp] theorem State.setTask_rts (s : State) (t : Task) : (s.setTask t).rts = s.rts := rfl
@[simp] theorem State.setTask_rsram (s : State) (t : Task) : (s.setTask t).rsram = s.rsram := rfl
@[simp] theorem State.setTask_migs (s : State) (t : Task) : (s.setTask t).migs = s.migs := rfl
@[simp] theorem State.setTask_links (s : State) (t : Task) : (s.setTask t).links = s.links := rfl
@[simp] theorem State.setTask_linkcfg (s : State) (t : Task) : (s.setTask t).linkcfg = s.linkcfg := rfl
@[simp] theorem State.setTask_flowcfg (s : State) (t : Task) : (s.setTask t).flowcfg = s.flowcfg := rfl
@[simp] theorem State.setTask_flows (s : State) (t : Task) : (s.setTask t).flows = s.flows := rfl
@[simp] theorem State.setTask_rotor (s : State) (t : Task) : (s.setTask t).rotor = s.rotor := rfl
@[simp] theorem State.setTask_lenders (s : State) (t : Task) : (s.setTask t).lenders = s.lenders := rfl
@[simp] theorem State.setTask_borrowers (s : State) (t : Task) : (s.setTask t).borrowers = s.borrowers := rfl
@[simp] theorem State.setTask_colls (s : State) (t : Task) : (s.setTask t).colls = s.colls := rfl
@[simp] theorem State.setTask_collCmds (s : State) (t : Task) : (s.setTask t).collCmds = s.collCmds := rfl
@[simp] theorem State.setTask_herdLast (s : State) (t : Task) : (s.setTask t).herdLast = s.herdLast := rfl
@[simp] theorem State.setTask_sarHolds (s : State) (t : Task) : (s.setTask t).sarHolds = s.sarHolds := rfl
@[simp] theorem State.setTask_sarKeys (s : State) (t : Task) : (s.setTask t).sarKeys = s.sarKeys := rfl
@[simp] theorem State.setTask_msgs (s : State) (t : Task) : (s.setTask t).msgs = s.msgs := rfl
@[simp] theorem State.setTask_modstat (s : State) (t : Task) : (s.setTask t).modstat = s.modstat := rfl
@[simp] theorem State.setTask_islands (s : State) (t : Task) : (s.setTask t).islands = s.islands := rfl
@[simp] theorem State.setTask_queues (s : State) (t : Task) : (s.setTask t).queues = s.queues := rfl
@[simp] theorem State.setTask_lastQueue (s : State) (t : Task) : (s.setTask t).lastQueue = s.lastQueue := rfl
@[simp] theorem State.setTask_kernels (s : State) (t : Task) : (s.setTask t).kernels = s.kernels := rfl
@[simp] theorem State.setTask_launches (s : State) (t : Task) : (s.setTask t).launches = s.launches := rfl
@[simp] theorem State.setTask_parked (s : State) (t : Task) : (s.setTask t).parked = s.parked := rfl
@[simp] theorem State.setTask_arrivals (s : State) (t : Task) : (s.setTask t).arrivals = s.arrivals := rfl
@[simp] theorem State.setTask_held (s : State) (t : Task) : (s.setTask t).held = s.held := rfl
@[simp] theorem State.setTask_answers (s : State) (t : Task) : (s.setTask t).answers = s.answers := rfl
@[simp] theorem State.setTask_unitErrs (s : State) (t : Task) : (s.setTask t).unitErrs = s.unitErrs := rfl
@[simp] theorem State.setTask_repWait (s : State) (t : Task) : (s.setTask t).repWait = s.repWait := rfl
@[simp] theorem State.setTask_iss (s : State) (t : Task) : (s.setTask t).iss = s.iss := rfl
@[simp] theorem State.setTask_turn (s : State) (t : Task) : (s.setTask t).turn = s.turn := rfl
@[simp] theorem State.setTask_stalled (s : State) (t : Task) : (s.setTask t).stalled = s.stalled := rfl
@[simp] theorem State.setTask_barErrs (s : State) (t : Task) : (s.setTask t).barErrs = s.barErrs := rfl
@[simp] theorem State.setTask_acts (s : State) (t : Task) : (s.setTask t).acts = s.acts := rfl
@[simp] theorem State.setTask_nextId (s : State) (t : Task) : (s.setTask t).nextId = s.nextId := rfl
@[simp] theorem State.setTask_inputs (s : State) (t : Task) : (s.setTask t).inputs = s.inputs := rfl
@[simp] theorem State.setTask_barq (s : State) (t : Task) : (s.setTask t).barq = s.barq := rfl
@[simp] theorem State.setTask_hostReads (s : State) (t : Task) : (s.setTask t).hostReads = s.hostReads := rfl
@[simp] theorem State.setTask_free (s : State) (t : Task) : (s.setTask t).free = s.free := rfl

/-! ### State.setCoreAt -/

@[simp] theorem State.setCoreAt_part (s : State) (c : Nat) (x : CoreSt) : (s.setCoreAt c x).part = s.part := rfl
@[simp] theorem State.setCoreAt_cycle (s : State) (c : Nat) (x : CoreSt) : (s.setCoreAt c x).cycle = s.cycle := rfl
@[simp] theorem State.setCoreAt_tasks (s : State) (c : Nat) (x : CoreSt) : (s.setCoreAt c x).tasks = s.tasks := rfl
@[simp] theorem State.setCoreAt_offs (s : State) (c : Nat) (x : CoreSt) : (s.setCoreAt c x).offs = s.offs := rfl
@[simp] theorem State.setCoreAt_ctxs (s : State) (c : Nat) (x : CoreSt) : (s.setCoreAt c x).ctxs = s.ctxs := rfl
@[simp] theorem State.setCoreAt_mem (s : State) (c : Nat) (x : CoreSt) : (s.setCoreAt c x).mem = s.mem := rfl
@[simp] theorem State.setCoreAt_page (s : State) (c : Nat) (x : CoreSt) : (s.setCoreAt c x).page = s.page := rfl
@[simp] theorem State.setCoreAt_podmap (s : State) (c : Nat) (x : CoreSt) : (s.setCoreAt c x).podmap = s.podmap := rfl
@[simp] theorem State.setCoreAt_hostUp (s : State) (c : Nat) (x : CoreSt) : (s.setCoreAt c x).hostUp = s.hostUp := rfl
@[simp] theorem State.setCoreAt_e2eSrc (s : State) (c : Nat) (x : CoreSt) : (s.setCoreAt c x).e2eSrc = s.e2eSrc := rfl
@[simp] theorem State.setCoreAt_e2eTgt (s : State) (c : Nat) (x : CoreSt) : (s.setCoreAt c x).e2eTgt = s.e2eTgt := rfl
@[simp] theorem State.setCoreAt_tgtWait (s : State) (c : Nat) (x : CoreSt) : (s.setCoreAt c x).tgtWait = s.tgtWait := rfl
@[simp] theorem State.setCoreAt_outq (s : State) (c : Nat) (x : CoreSt) : (s.setCoreAt c x).outq = s.outq := rfl
@[simp] theorem State.setCoreAt_lastSeq (s : State) (c : Nat) (x : CoreSt) : (s.setCoreAt c x).lastSeq = s.lastSeq := rfl
@[simp] theorem State.setCoreAt_rts (s : State) (c : Nat) (x : CoreSt) : (s.setCoreAt c x).rts = s.rts := rfl
@[simp] theorem State.setCoreAt_rsram (s : State) (c : Nat) (x : CoreSt) : (s.setCoreAt c x).rsram = s.rsram := rfl
@[simp] theorem State.setCoreAt_migs (s : State) (c : Nat) (x : CoreSt) : (s.setCoreAt c x).migs = s.migs := rfl
@[simp] theorem State.setCoreAt_links (s : State) (c : Nat) (x : CoreSt) : (s.setCoreAt c x).links = s.links := rfl
@[simp] theorem State.setCoreAt_linkcfg (s : State) (c : Nat) (x : CoreSt) : (s.setCoreAt c x).linkcfg = s.linkcfg := rfl
@[simp] theorem State.setCoreAt_flowcfg (s : State) (c : Nat) (x : CoreSt) : (s.setCoreAt c x).flowcfg = s.flowcfg := rfl
@[simp] theorem State.setCoreAt_flows (s : State) (c : Nat) (x : CoreSt) : (s.setCoreAt c x).flows = s.flows := rfl
@[simp] theorem State.setCoreAt_rotor (s : State) (c : Nat) (x : CoreSt) : (s.setCoreAt c x).rotor = s.rotor := rfl
@[simp] theorem State.setCoreAt_lenders (s : State) (c : Nat) (x : CoreSt) : (s.setCoreAt c x).lenders = s.lenders := rfl
@[simp] theorem State.setCoreAt_borrowers (s : State) (c : Nat) (x : CoreSt) : (s.setCoreAt c x).borrowers = s.borrowers := rfl
@[simp] theorem State.setCoreAt_colls (s : State) (c : Nat) (x : CoreSt) : (s.setCoreAt c x).colls = s.colls := rfl
@[simp] theorem State.setCoreAt_collCmds (s : State) (c : Nat) (x : CoreSt) : (s.setCoreAt c x).collCmds = s.collCmds := rfl
@[simp] theorem State.setCoreAt_herdLast (s : State) (c : Nat) (x : CoreSt) : (s.setCoreAt c x).herdLast = s.herdLast := rfl
@[simp] theorem State.setCoreAt_sarHolds (s : State) (c : Nat) (x : CoreSt) : (s.setCoreAt c x).sarHolds = s.sarHolds := rfl
@[simp] theorem State.setCoreAt_sarKeys (s : State) (c : Nat) (x : CoreSt) : (s.setCoreAt c x).sarKeys = s.sarKeys := rfl
@[simp] theorem State.setCoreAt_msgs (s : State) (c : Nat) (x : CoreSt) : (s.setCoreAt c x).msgs = s.msgs := rfl
@[simp] theorem State.setCoreAt_modstat (s : State) (c : Nat) (x : CoreSt) : (s.setCoreAt c x).modstat = s.modstat := rfl
@[simp] theorem State.setCoreAt_islands (s : State) (c : Nat) (x : CoreSt) : (s.setCoreAt c x).islands = s.islands := rfl
@[simp] theorem State.setCoreAt_queues (s : State) (c : Nat) (x : CoreSt) : (s.setCoreAt c x).queues = s.queues := rfl
@[simp] theorem State.setCoreAt_lastQueue (s : State) (c : Nat) (x : CoreSt) : (s.setCoreAt c x).lastQueue = s.lastQueue := rfl
@[simp] theorem State.setCoreAt_kernels (s : State) (c : Nat) (x : CoreSt) : (s.setCoreAt c x).kernels = s.kernels := rfl
@[simp] theorem State.setCoreAt_launches (s : State) (c : Nat) (x : CoreSt) : (s.setCoreAt c x).launches = s.launches := rfl
@[simp] theorem State.setCoreAt_parked (s : State) (c : Nat) (x : CoreSt) : (s.setCoreAt c x).parked = s.parked := rfl
@[simp] theorem State.setCoreAt_arrivals (s : State) (c : Nat) (x : CoreSt) : (s.setCoreAt c x).arrivals = s.arrivals := rfl
@[simp] theorem State.setCoreAt_held (s : State) (c : Nat) (x : CoreSt) : (s.setCoreAt c x).held = s.held := rfl
@[simp] theorem State.setCoreAt_answers (s : State) (c : Nat) (x : CoreSt) : (s.setCoreAt c x).answers = s.answers := rfl
@[simp] theorem State.setCoreAt_unitErrs (s : State) (c : Nat) (x : CoreSt) : (s.setCoreAt c x).unitErrs = s.unitErrs := rfl
@[simp] theorem State.setCoreAt_repWait (s : State) (c : Nat) (x : CoreSt) : (s.setCoreAt c x).repWait = s.repWait := rfl
@[simp] theorem State.setCoreAt_iss (s : State) (c : Nat) (x : CoreSt) : (s.setCoreAt c x).iss = s.iss := rfl
@[simp] theorem State.setCoreAt_turn (s : State) (c : Nat) (x : CoreSt) : (s.setCoreAt c x).turn = s.turn := rfl
@[simp] theorem State.setCoreAt_stalled (s : State) (c : Nat) (x : CoreSt) : (s.setCoreAt c x).stalled = s.stalled := rfl
@[simp] theorem State.setCoreAt_barErrs (s : State) (c : Nat) (x : CoreSt) : (s.setCoreAt c x).barErrs = s.barErrs := rfl
@[simp] theorem State.setCoreAt_acts (s : State) (c : Nat) (x : CoreSt) : (s.setCoreAt c x).acts = s.acts := rfl
@[simp] theorem State.setCoreAt_nextId (s : State) (c : Nat) (x : CoreSt) : (s.setCoreAt c x).nextId = s.nextId := rfl
@[simp] theorem State.setCoreAt_inputs (s : State) (c : Nat) (x : CoreSt) : (s.setCoreAt c x).inputs = s.inputs := rfl
@[simp] theorem State.setCoreAt_barq (s : State) (c : Nat) (x : CoreSt) : (s.setCoreAt c x).barq = s.barq := rfl
@[simp] theorem State.setCoreAt_hostReads (s : State) (c : Nat) (x : CoreSt) : (s.setCoreAt c x).hostReads = s.hostReads := rfl
@[simp] theorem State.setCoreAt_free (s : State) (c : Nat) (x : CoreSt) : (s.setCoreAt c x).free = s.free := rfl

/-! ### State.setCtxAt -/

@[simp] theorem State.setCtxAt_part (s : State) (n : Nat) (x : Ctx) : (s.setCtxAt n x).part = s.part := rfl
@[simp] theorem State.setCtxAt_cycle (s : State) (n : Nat) (x : Ctx) : (s.setCtxAt n x).cycle = s.cycle := rfl
@[simp] theorem State.setCtxAt_tasks (s : State) (n : Nat) (x : Ctx) : (s.setCtxAt n x).tasks = s.tasks := rfl
@[simp] theorem State.setCtxAt_offs (s : State) (n : Nat) (x : Ctx) : (s.setCtxAt n x).offs = s.offs := rfl
@[simp] theorem State.setCtxAt_cores (s : State) (n : Nat) (x : Ctx) : (s.setCtxAt n x).cores = s.cores := rfl
@[simp] theorem State.setCtxAt_mem (s : State) (n : Nat) (x : Ctx) : (s.setCtxAt n x).mem = s.mem := rfl
@[simp] theorem State.setCtxAt_page (s : State) (n : Nat) (x : Ctx) : (s.setCtxAt n x).page = s.page := rfl
@[simp] theorem State.setCtxAt_podmap (s : State) (n : Nat) (x : Ctx) : (s.setCtxAt n x).podmap = s.podmap := rfl
@[simp] theorem State.setCtxAt_hostUp (s : State) (n : Nat) (x : Ctx) : (s.setCtxAt n x).hostUp = s.hostUp := rfl
@[simp] theorem State.setCtxAt_e2eSrc (s : State) (n : Nat) (x : Ctx) : (s.setCtxAt n x).e2eSrc = s.e2eSrc := rfl
@[simp] theorem State.setCtxAt_e2eTgt (s : State) (n : Nat) (x : Ctx) : (s.setCtxAt n x).e2eTgt = s.e2eTgt := rfl
@[simp] theorem State.setCtxAt_tgtWait (s : State) (n : Nat) (x : Ctx) : (s.setCtxAt n x).tgtWait = s.tgtWait := rfl
@[simp] theorem State.setCtxAt_outq (s : State) (n : Nat) (x : Ctx) : (s.setCtxAt n x).outq = s.outq := rfl
@[simp] theorem State.setCtxAt_lastSeq (s : State) (n : Nat) (x : Ctx) : (s.setCtxAt n x).lastSeq = s.lastSeq := rfl
@[simp] theorem State.setCtxAt_rts (s : State) (n : Nat) (x : Ctx) : (s.setCtxAt n x).rts = s.rts := rfl
@[simp] theorem State.setCtxAt_rsram (s : State) (n : Nat) (x : Ctx) : (s.setCtxAt n x).rsram = s.rsram := rfl
@[simp] theorem State.setCtxAt_migs (s : State) (n : Nat) (x : Ctx) : (s.setCtxAt n x).migs = s.migs := rfl
@[simp] theorem State.setCtxAt_links (s : State) (n : Nat) (x : Ctx) : (s.setCtxAt n x).links = s.links := rfl
@[simp] theorem State.setCtxAt_linkcfg (s : State) (n : Nat) (x : Ctx) : (s.setCtxAt n x).linkcfg = s.linkcfg := rfl
@[simp] theorem State.setCtxAt_flowcfg (s : State) (n : Nat) (x : Ctx) : (s.setCtxAt n x).flowcfg = s.flowcfg := rfl
@[simp] theorem State.setCtxAt_flows (s : State) (n : Nat) (x : Ctx) : (s.setCtxAt n x).flows = s.flows := rfl
@[simp] theorem State.setCtxAt_rotor (s : State) (n : Nat) (x : Ctx) : (s.setCtxAt n x).rotor = s.rotor := rfl
@[simp] theorem State.setCtxAt_lenders (s : State) (n : Nat) (x : Ctx) : (s.setCtxAt n x).lenders = s.lenders := rfl
@[simp] theorem State.setCtxAt_borrowers (s : State) (n : Nat) (x : Ctx) : (s.setCtxAt n x).borrowers = s.borrowers := rfl
@[simp] theorem State.setCtxAt_colls (s : State) (n : Nat) (x : Ctx) : (s.setCtxAt n x).colls = s.colls := rfl
@[simp] theorem State.setCtxAt_collCmds (s : State) (n : Nat) (x : Ctx) : (s.setCtxAt n x).collCmds = s.collCmds := rfl
@[simp] theorem State.setCtxAt_herdLast (s : State) (n : Nat) (x : Ctx) : (s.setCtxAt n x).herdLast = s.herdLast := rfl
@[simp] theorem State.setCtxAt_sarHolds (s : State) (n : Nat) (x : Ctx) : (s.setCtxAt n x).sarHolds = s.sarHolds := rfl
@[simp] theorem State.setCtxAt_sarKeys (s : State) (n : Nat) (x : Ctx) : (s.setCtxAt n x).sarKeys = s.sarKeys := rfl
@[simp] theorem State.setCtxAt_msgs (s : State) (n : Nat) (x : Ctx) : (s.setCtxAt n x).msgs = s.msgs := rfl
@[simp] theorem State.setCtxAt_modstat (s : State) (n : Nat) (x : Ctx) : (s.setCtxAt n x).modstat = s.modstat := rfl
@[simp] theorem State.setCtxAt_islands (s : State) (n : Nat) (x : Ctx) : (s.setCtxAt n x).islands = s.islands := rfl
@[simp] theorem State.setCtxAt_queues (s : State) (n : Nat) (x : Ctx) : (s.setCtxAt n x).queues = s.queues := rfl
@[simp] theorem State.setCtxAt_lastQueue (s : State) (n : Nat) (x : Ctx) : (s.setCtxAt n x).lastQueue = s.lastQueue := rfl
@[simp] theorem State.setCtxAt_kernels (s : State) (n : Nat) (x : Ctx) : (s.setCtxAt n x).kernels = s.kernels := rfl
@[simp] theorem State.setCtxAt_launches (s : State) (n : Nat) (x : Ctx) : (s.setCtxAt n x).launches = s.launches := rfl
@[simp] theorem State.setCtxAt_parked (s : State) (n : Nat) (x : Ctx) : (s.setCtxAt n x).parked = s.parked := rfl
@[simp] theorem State.setCtxAt_arrivals (s : State) (n : Nat) (x : Ctx) : (s.setCtxAt n x).arrivals = s.arrivals := rfl
@[simp] theorem State.setCtxAt_held (s : State) (n : Nat) (x : Ctx) : (s.setCtxAt n x).held = s.held := rfl
@[simp] theorem State.setCtxAt_answers (s : State) (n : Nat) (x : Ctx) : (s.setCtxAt n x).answers = s.answers := rfl
@[simp] theorem State.setCtxAt_unitErrs (s : State) (n : Nat) (x : Ctx) : (s.setCtxAt n x).unitErrs = s.unitErrs := rfl
@[simp] theorem State.setCtxAt_repWait (s : State) (n : Nat) (x : Ctx) : (s.setCtxAt n x).repWait = s.repWait := rfl
@[simp] theorem State.setCtxAt_iss (s : State) (n : Nat) (x : Ctx) : (s.setCtxAt n x).iss = s.iss := rfl
@[simp] theorem State.setCtxAt_turn (s : State) (n : Nat) (x : Ctx) : (s.setCtxAt n x).turn = s.turn := rfl
@[simp] theorem State.setCtxAt_stalled (s : State) (n : Nat) (x : Ctx) : (s.setCtxAt n x).stalled = s.stalled := rfl
@[simp] theorem State.setCtxAt_barErrs (s : State) (n : Nat) (x : Ctx) : (s.setCtxAt n x).barErrs = s.barErrs := rfl
@[simp] theorem State.setCtxAt_acts (s : State) (n : Nat) (x : Ctx) : (s.setCtxAt n x).acts = s.acts := rfl
@[simp] theorem State.setCtxAt_nextId (s : State) (n : Nat) (x : Ctx) : (s.setCtxAt n x).nextId = s.nextId := rfl
@[simp] theorem State.setCtxAt_inputs (s : State) (n : Nat) (x : Ctx) : (s.setCtxAt n x).inputs = s.inputs := rfl
@[simp] theorem State.setCtxAt_barq (s : State) (n : Nat) (x : Ctx) : (s.setCtxAt n x).barq = s.barq := rfl
@[simp] theorem State.setCtxAt_hostReads (s : State) (n : Nat) (x : Ctx) : (s.setCtxAt n x).hostReads = s.hostReads := rfl
@[simp] theorem State.setCtxAt_free (s : State) (n : Nat) (x : Ctx) : (s.setCtxAt n x).free = s.free := rfl

/-! ### State.deposit -/

@[simp] theorem State.deposit_part (s : State) (lam : Nat) (x : VReg) : (s.deposit lam x).part = s.part := rfl
@[simp] theorem State.deposit_cycle (s : State) (lam : Nat) (x : VReg) : (s.deposit lam x).cycle = s.cycle := rfl
@[simp] theorem State.deposit_tasks (s : State) (lam : Nat) (x : VReg) : (s.deposit lam x).tasks = s.tasks := rfl
@[simp] theorem State.deposit_offs (s : State) (lam : Nat) (x : VReg) : (s.deposit lam x).offs = s.offs := rfl
@[simp] theorem State.deposit_cores (s : State) (lam : Nat) (x : VReg) : (s.deposit lam x).cores = s.cores := rfl
@[simp] theorem State.deposit_ctxs (s : State) (lam : Nat) (x : VReg) : (s.deposit lam x).ctxs = s.ctxs := rfl
@[simp] theorem State.deposit_mem (s : State) (lam : Nat) (x : VReg) : (s.deposit lam x).mem = s.mem := rfl
@[simp] theorem State.deposit_page (s : State) (lam : Nat) (x : VReg) : (s.deposit lam x).page = s.page := rfl
@[simp] theorem State.deposit_podmap (s : State) (lam : Nat) (x : VReg) : (s.deposit lam x).podmap = s.podmap := rfl
@[simp] theorem State.deposit_hostUp (s : State) (lam : Nat) (x : VReg) : (s.deposit lam x).hostUp = s.hostUp := rfl
@[simp] theorem State.deposit_e2eSrc (s : State) (lam : Nat) (x : VReg) : (s.deposit lam x).e2eSrc = s.e2eSrc := rfl
@[simp] theorem State.deposit_e2eTgt (s : State) (lam : Nat) (x : VReg) : (s.deposit lam x).e2eTgt = s.e2eTgt := rfl
@[simp] theorem State.deposit_tgtWait (s : State) (lam : Nat) (x : VReg) : (s.deposit lam x).tgtWait = s.tgtWait := rfl
@[simp] theorem State.deposit_outq (s : State) (lam : Nat) (x : VReg) : (s.deposit lam x).outq = s.outq := rfl
@[simp] theorem State.deposit_lastSeq (s : State) (lam : Nat) (x : VReg) : (s.deposit lam x).lastSeq = s.lastSeq := rfl
@[simp] theorem State.deposit_rts (s : State) (lam : Nat) (x : VReg) : (s.deposit lam x).rts = s.rts := rfl
@[simp] theorem State.deposit_rsram (s : State) (lam : Nat) (x : VReg) : (s.deposit lam x).rsram = s.rsram := rfl
@[simp] theorem State.deposit_migs (s : State) (lam : Nat) (x : VReg) : (s.deposit lam x).migs = s.migs := rfl
@[simp] theorem State.deposit_links (s : State) (lam : Nat) (x : VReg) : (s.deposit lam x).links = s.links := rfl
@[simp] theorem State.deposit_linkcfg (s : State) (lam : Nat) (x : VReg) : (s.deposit lam x).linkcfg = s.linkcfg := rfl
@[simp] theorem State.deposit_flowcfg (s : State) (lam : Nat) (x : VReg) : (s.deposit lam x).flowcfg = s.flowcfg := rfl
@[simp] theorem State.deposit_flows (s : State) (lam : Nat) (x : VReg) : (s.deposit lam x).flows = s.flows := rfl
@[simp] theorem State.deposit_rotor (s : State) (lam : Nat) (x : VReg) : (s.deposit lam x).rotor = s.rotor := rfl
@[simp] theorem State.deposit_lenders (s : State) (lam : Nat) (x : VReg) : (s.deposit lam x).lenders = s.lenders := rfl
@[simp] theorem State.deposit_borrowers (s : State) (lam : Nat) (x : VReg) : (s.deposit lam x).borrowers = s.borrowers := rfl
@[simp] theorem State.deposit_colls (s : State) (lam : Nat) (x : VReg) : (s.deposit lam x).colls = s.colls := rfl
@[simp] theorem State.deposit_collCmds (s : State) (lam : Nat) (x : VReg) : (s.deposit lam x).collCmds = s.collCmds := rfl
@[simp] theorem State.deposit_herdLast (s : State) (lam : Nat) (x : VReg) : (s.deposit lam x).herdLast = s.herdLast := rfl
@[simp] theorem State.deposit_sarHolds (s : State) (lam : Nat) (x : VReg) : (s.deposit lam x).sarHolds = s.sarHolds := rfl
@[simp] theorem State.deposit_sarKeys (s : State) (lam : Nat) (x : VReg) : (s.deposit lam x).sarKeys = s.sarKeys := rfl
@[simp] theorem State.deposit_msgs (s : State) (lam : Nat) (x : VReg) : (s.deposit lam x).msgs = s.msgs := rfl
@[simp] theorem State.deposit_modstat (s : State) (lam : Nat) (x : VReg) : (s.deposit lam x).modstat = s.modstat := rfl
@[simp] theorem State.deposit_islands (s : State) (lam : Nat) (x : VReg) : (s.deposit lam x).islands = s.islands := rfl
@[simp] theorem State.deposit_queues (s : State) (lam : Nat) (x : VReg) : (s.deposit lam x).queues = s.queues := rfl
@[simp] theorem State.deposit_lastQueue (s : State) (lam : Nat) (x : VReg) : (s.deposit lam x).lastQueue = s.lastQueue := rfl
@[simp] theorem State.deposit_kernels (s : State) (lam : Nat) (x : VReg) : (s.deposit lam x).kernels = s.kernels := rfl
@[simp] theorem State.deposit_launches (s : State) (lam : Nat) (x : VReg) : (s.deposit lam x).launches = s.launches := rfl
@[simp] theorem State.deposit_parked (s : State) (lam : Nat) (x : VReg) : (s.deposit lam x).parked = s.parked := rfl
@[simp] theorem State.deposit_arrivals (s : State) (lam : Nat) (x : VReg) : (s.deposit lam x).arrivals = s.arrivals := rfl
@[simp] theorem State.deposit_held (s : State) (lam : Nat) (x : VReg) : (s.deposit lam x).held = s.held := rfl
@[simp] theorem State.deposit_answers (s : State) (lam : Nat) (x : VReg) : (s.deposit lam x).answers = s.answers := rfl
@[simp] theorem State.deposit_unitErrs (s : State) (lam : Nat) (x : VReg) : (s.deposit lam x).unitErrs = s.unitErrs := rfl
@[simp] theorem State.deposit_repWait (s : State) (lam : Nat) (x : VReg) : (s.deposit lam x).repWait = s.repWait := rfl
@[simp] theorem State.deposit_turn (s : State) (lam : Nat) (x : VReg) : (s.deposit lam x).turn = s.turn := rfl
@[simp] theorem State.deposit_stalled (s : State) (lam : Nat) (x : VReg) : (s.deposit lam x).stalled = s.stalled := rfl
@[simp] theorem State.deposit_barErrs (s : State) (lam : Nat) (x : VReg) : (s.deposit lam x).barErrs = s.barErrs := rfl
@[simp] theorem State.deposit_acts (s : State) (lam : Nat) (x : VReg) : (s.deposit lam x).acts = s.acts := rfl
@[simp] theorem State.deposit_nextId (s : State) (lam : Nat) (x : VReg) : (s.deposit lam x).nextId = s.nextId := rfl
@[simp] theorem State.deposit_inputs (s : State) (lam : Nat) (x : VReg) : (s.deposit lam x).inputs = s.inputs := rfl
@[simp] theorem State.deposit_barq (s : State) (lam : Nat) (x : VReg) : (s.deposit lam x).barq = s.barq := rfl
@[simp] theorem State.deposit_hostReads (s : State) (lam : Nat) (x : VReg) : (s.deposit lam x).hostReads = s.hostReads := rfl
@[simp] theorem State.deposit_free (s : State) (lam : Nat) (x : VReg) : (s.deposit lam x).free = s.free := rfl

/-! ### State.issueTo -/

@[simp] theorem State.issueTo_part (s : State) (d : RDest) (lam : Nat) (v : RVal) : (s.issueTo d lam v).part = s.part := rfl
@[simp] theorem State.issueTo_cycle (s : State) (d : RDest) (lam : Nat) (v : RVal) : (s.issueTo d lam v).cycle = s.cycle := rfl
@[simp] theorem State.issueTo_offs (s : State) (d : RDest) (lam : Nat) (v : RVal) : (s.issueTo d lam v).offs = s.offs := rfl
@[simp] theorem State.issueTo_cores (s : State) (d : RDest) (lam : Nat) (v : RVal) : (s.issueTo d lam v).cores = s.cores := rfl
@[simp] theorem State.issueTo_ctxs (s : State) (d : RDest) (lam : Nat) (v : RVal) : (s.issueTo d lam v).ctxs = s.ctxs := rfl
@[simp] theorem State.issueTo_mem (s : State) (d : RDest) (lam : Nat) (v : RVal) : (s.issueTo d lam v).mem = s.mem := rfl
@[simp] theorem State.issueTo_page (s : State) (d : RDest) (lam : Nat) (v : RVal) : (s.issueTo d lam v).page = s.page := rfl
@[simp] theorem State.issueTo_podmap (s : State) (d : RDest) (lam : Nat) (v : RVal) : (s.issueTo d lam v).podmap = s.podmap := rfl
@[simp] theorem State.issueTo_hostUp (s : State) (d : RDest) (lam : Nat) (v : RVal) : (s.issueTo d lam v).hostUp = s.hostUp := rfl
@[simp] theorem State.issueTo_e2eSrc (s : State) (d : RDest) (lam : Nat) (v : RVal) : (s.issueTo d lam v).e2eSrc = s.e2eSrc := rfl
@[simp] theorem State.issueTo_e2eTgt (s : State) (d : RDest) (lam : Nat) (v : RVal) : (s.issueTo d lam v).e2eTgt = s.e2eTgt := rfl
@[simp] theorem State.issueTo_tgtWait (s : State) (d : RDest) (lam : Nat) (v : RVal) : (s.issueTo d lam v).tgtWait = s.tgtWait := rfl
@[simp] theorem State.issueTo_outq (s : State) (d : RDest) (lam : Nat) (v : RVal) : (s.issueTo d lam v).outq = s.outq := rfl
@[simp] theorem State.issueTo_lastSeq (s : State) (d : RDest) (lam : Nat) (v : RVal) : (s.issueTo d lam v).lastSeq = s.lastSeq := rfl
@[simp] theorem State.issueTo_rts (s : State) (d : RDest) (lam : Nat) (v : RVal) : (s.issueTo d lam v).rts = s.rts := rfl
@[simp] theorem State.issueTo_rsram (s : State) (d : RDest) (lam : Nat) (v : RVal) : (s.issueTo d lam v).rsram = s.rsram := rfl
@[simp] theorem State.issueTo_migs (s : State) (d : RDest) (lam : Nat) (v : RVal) : (s.issueTo d lam v).migs = s.migs := rfl
@[simp] theorem State.issueTo_links (s : State) (d : RDest) (lam : Nat) (v : RVal) : (s.issueTo d lam v).links = s.links := rfl
@[simp] theorem State.issueTo_linkcfg (s : State) (d : RDest) (lam : Nat) (v : RVal) : (s.issueTo d lam v).linkcfg = s.linkcfg := rfl
@[simp] theorem State.issueTo_flowcfg (s : State) (d : RDest) (lam : Nat) (v : RVal) : (s.issueTo d lam v).flowcfg = s.flowcfg := rfl
@[simp] theorem State.issueTo_flows (s : State) (d : RDest) (lam : Nat) (v : RVal) : (s.issueTo d lam v).flows = s.flows := rfl
@[simp] theorem State.issueTo_rotor (s : State) (d : RDest) (lam : Nat) (v : RVal) : (s.issueTo d lam v).rotor = s.rotor := rfl
@[simp] theorem State.issueTo_lenders (s : State) (d : RDest) (lam : Nat) (v : RVal) : (s.issueTo d lam v).lenders = s.lenders := rfl
@[simp] theorem State.issueTo_borrowers (s : State) (d : RDest) (lam : Nat) (v : RVal) : (s.issueTo d lam v).borrowers = s.borrowers := rfl
@[simp] theorem State.issueTo_colls (s : State) (d : RDest) (lam : Nat) (v : RVal) : (s.issueTo d lam v).colls = s.colls := rfl
@[simp] theorem State.issueTo_collCmds (s : State) (d : RDest) (lam : Nat) (v : RVal) : (s.issueTo d lam v).collCmds = s.collCmds := rfl
@[simp] theorem State.issueTo_herdLast (s : State) (d : RDest) (lam : Nat) (v : RVal) : (s.issueTo d lam v).herdLast = s.herdLast := rfl
@[simp] theorem State.issueTo_sarHolds (s : State) (d : RDest) (lam : Nat) (v : RVal) : (s.issueTo d lam v).sarHolds = s.sarHolds := rfl
@[simp] theorem State.issueTo_sarKeys (s : State) (d : RDest) (lam : Nat) (v : RVal) : (s.issueTo d lam v).sarKeys = s.sarKeys := rfl
@[simp] theorem State.issueTo_msgs (s : State) (d : RDest) (lam : Nat) (v : RVal) : (s.issueTo d lam v).msgs = s.msgs := rfl
@[simp] theorem State.issueTo_modstat (s : State) (d : RDest) (lam : Nat) (v : RVal) : (s.issueTo d lam v).modstat = s.modstat := rfl
@[simp] theorem State.issueTo_islands (s : State) (d : RDest) (lam : Nat) (v : RVal) : (s.issueTo d lam v).islands = s.islands := rfl
@[simp] theorem State.issueTo_queues (s : State) (d : RDest) (lam : Nat) (v : RVal) : (s.issueTo d lam v).queues = s.queues := rfl
@[simp] theorem State.issueTo_lastQueue (s : State) (d : RDest) (lam : Nat) (v : RVal) : (s.issueTo d lam v).lastQueue = s.lastQueue := rfl
@[simp] theorem State.issueTo_kernels (s : State) (d : RDest) (lam : Nat) (v : RVal) : (s.issueTo d lam v).kernels = s.kernels := rfl
@[simp] theorem State.issueTo_launches (s : State) (d : RDest) (lam : Nat) (v : RVal) : (s.issueTo d lam v).launches = s.launches := rfl
@[simp] theorem State.issueTo_parked (s : State) (d : RDest) (lam : Nat) (v : RVal) : (s.issueTo d lam v).parked = s.parked := rfl
@[simp] theorem State.issueTo_arrivals (s : State) (d : RDest) (lam : Nat) (v : RVal) : (s.issueTo d lam v).arrivals = s.arrivals := rfl
@[simp] theorem State.issueTo_held (s : State) (d : RDest) (lam : Nat) (v : RVal) : (s.issueTo d lam v).held = s.held := rfl
@[simp] theorem State.issueTo_answers (s : State) (d : RDest) (lam : Nat) (v : RVal) : (s.issueTo d lam v).answers = s.answers := rfl
@[simp] theorem State.issueTo_unitErrs (s : State) (d : RDest) (lam : Nat) (v : RVal) : (s.issueTo d lam v).unitErrs = s.unitErrs := rfl
@[simp] theorem State.issueTo_repWait (s : State) (d : RDest) (lam : Nat) (v : RVal) : (s.issueTo d lam v).repWait = s.repWait := rfl
@[simp] theorem State.issueTo_iss (s : State) (d : RDest) (lam : Nat) (v : RVal) : (s.issueTo d lam v).iss = s.iss := rfl
@[simp] theorem State.issueTo_turn (s : State) (d : RDest) (lam : Nat) (v : RVal) : (s.issueTo d lam v).turn = s.turn := rfl
@[simp] theorem State.issueTo_stalled (s : State) (d : RDest) (lam : Nat) (v : RVal) : (s.issueTo d lam v).stalled = s.stalled := rfl
@[simp] theorem State.issueTo_barErrs (s : State) (d : RDest) (lam : Nat) (v : RVal) : (s.issueTo d lam v).barErrs = s.barErrs := rfl
@[simp] theorem State.issueTo_acts (s : State) (d : RDest) (lam : Nat) (v : RVal) : (s.issueTo d lam v).acts = s.acts := rfl
@[simp] theorem State.issueTo_nextId (s : State) (d : RDest) (lam : Nat) (v : RVal) : (s.issueTo d lam v).nextId = s.nextId := rfl
@[simp] theorem State.issueTo_inputs (s : State) (d : RDest) (lam : Nat) (v : RVal) : (s.issueTo d lam v).inputs = s.inputs := rfl
@[simp] theorem State.issueTo_barq (s : State) (d : RDest) (lam : Nat) (v : RVal) : (s.issueTo d lam v).barq = s.barq := rfl
@[simp] theorem State.issueTo_hostReads (s : State) (d : RDest) (lam : Nat) (v : RVal) : (s.issueTo d lam v).hostReads = s.hostReads := rfl
@[simp] theorem State.issueTo_free (s : State) (d : RDest) (lam : Nat) (v : RVal) : (s.issueTo d lam v).free = s.free := rfl

/-! ### State.setAct -/

@[simp] theorem State.setAct_part (s : State) (a : Act) : (s.setAct a).part = s.part := rfl
@[simp] theorem State.setAct_cycle (s : State) (a : Act) : (s.setAct a).cycle = s.cycle := rfl
@[simp] theorem State.setAct_tasks (s : State) (a : Act) : (s.setAct a).tasks = s.tasks := rfl
@[simp] theorem State.setAct_offs (s : State) (a : Act) : (s.setAct a).offs = s.offs := rfl
@[simp] theorem State.setAct_cores (s : State) (a : Act) : (s.setAct a).cores = s.cores := rfl
@[simp] theorem State.setAct_ctxs (s : State) (a : Act) : (s.setAct a).ctxs = s.ctxs := rfl
@[simp] theorem State.setAct_mem (s : State) (a : Act) : (s.setAct a).mem = s.mem := rfl
@[simp] theorem State.setAct_page (s : State) (a : Act) : (s.setAct a).page = s.page := rfl
@[simp] theorem State.setAct_podmap (s : State) (a : Act) : (s.setAct a).podmap = s.podmap := rfl
@[simp] theorem State.setAct_hostUp (s : State) (a : Act) : (s.setAct a).hostUp = s.hostUp := rfl
@[simp] theorem State.setAct_e2eSrc (s : State) (a : Act) : (s.setAct a).e2eSrc = s.e2eSrc := rfl
@[simp] theorem State.setAct_e2eTgt (s : State) (a : Act) : (s.setAct a).e2eTgt = s.e2eTgt := rfl
@[simp] theorem State.setAct_tgtWait (s : State) (a : Act) : (s.setAct a).tgtWait = s.tgtWait := rfl
@[simp] theorem State.setAct_outq (s : State) (a : Act) : (s.setAct a).outq = s.outq := rfl
@[simp] theorem State.setAct_lastSeq (s : State) (a : Act) : (s.setAct a).lastSeq = s.lastSeq := rfl
@[simp] theorem State.setAct_rts (s : State) (a : Act) : (s.setAct a).rts = s.rts := rfl
@[simp] theorem State.setAct_rsram (s : State) (a : Act) : (s.setAct a).rsram = s.rsram := rfl
@[simp] theorem State.setAct_migs (s : State) (a : Act) : (s.setAct a).migs = s.migs := rfl
@[simp] theorem State.setAct_links (s : State) (a : Act) : (s.setAct a).links = s.links := rfl
@[simp] theorem State.setAct_linkcfg (s : State) (a : Act) : (s.setAct a).linkcfg = s.linkcfg := rfl
@[simp] theorem State.setAct_flowcfg (s : State) (a : Act) : (s.setAct a).flowcfg = s.flowcfg := rfl
@[simp] theorem State.setAct_flows (s : State) (a : Act) : (s.setAct a).flows = s.flows := rfl
@[simp] theorem State.setAct_rotor (s : State) (a : Act) : (s.setAct a).rotor = s.rotor := rfl
@[simp] theorem State.setAct_lenders (s : State) (a : Act) : (s.setAct a).lenders = s.lenders := rfl
@[simp] theorem State.setAct_borrowers (s : State) (a : Act) : (s.setAct a).borrowers = s.borrowers := rfl
@[simp] theorem State.setAct_colls (s : State) (a : Act) : (s.setAct a).colls = s.colls := rfl
@[simp] theorem State.setAct_collCmds (s : State) (a : Act) : (s.setAct a).collCmds = s.collCmds := rfl
@[simp] theorem State.setAct_herdLast (s : State) (a : Act) : (s.setAct a).herdLast = s.herdLast := rfl
@[simp] theorem State.setAct_sarHolds (s : State) (a : Act) : (s.setAct a).sarHolds = s.sarHolds := rfl
@[simp] theorem State.setAct_sarKeys (s : State) (a : Act) : (s.setAct a).sarKeys = s.sarKeys := rfl
@[simp] theorem State.setAct_msgs (s : State) (a : Act) : (s.setAct a).msgs = s.msgs := rfl
@[simp] theorem State.setAct_modstat (s : State) (a : Act) : (s.setAct a).modstat = s.modstat := rfl
@[simp] theorem State.setAct_islands (s : State) (a : Act) : (s.setAct a).islands = s.islands := rfl
@[simp] theorem State.setAct_queues (s : State) (a : Act) : (s.setAct a).queues = s.queues := rfl
@[simp] theorem State.setAct_lastQueue (s : State) (a : Act) : (s.setAct a).lastQueue = s.lastQueue := rfl
@[simp] theorem State.setAct_kernels (s : State) (a : Act) : (s.setAct a).kernels = s.kernels := rfl
@[simp] theorem State.setAct_launches (s : State) (a : Act) : (s.setAct a).launches = s.launches := rfl
@[simp] theorem State.setAct_parked (s : State) (a : Act) : (s.setAct a).parked = s.parked := rfl
@[simp] theorem State.setAct_arrivals (s : State) (a : Act) : (s.setAct a).arrivals = s.arrivals := rfl
@[simp] theorem State.setAct_held (s : State) (a : Act) : (s.setAct a).held = s.held := rfl
@[simp] theorem State.setAct_answers (s : State) (a : Act) : (s.setAct a).answers = s.answers := rfl
@[simp] theorem State.setAct_unitErrs (s : State) (a : Act) : (s.setAct a).unitErrs = s.unitErrs := rfl
@[simp] theorem State.setAct_repWait (s : State) (a : Act) : (s.setAct a).repWait = s.repWait := rfl
@[simp] theorem State.setAct_turn (s : State) (a : Act) : (s.setAct a).turn = s.turn := rfl
@[simp] theorem State.setAct_stalled (s : State) (a : Act) : (s.setAct a).stalled = s.stalled := rfl
@[simp] theorem State.setAct_barErrs (s : State) (a : Act) : (s.setAct a).barErrs = s.barErrs := rfl
@[simp] theorem State.setAct_acts (s : State) (a : Act) : (s.setAct a).acts = s.acts := rfl
@[simp] theorem State.setAct_nextId (s : State) (a : Act) : (s.setAct a).nextId = s.nextId := rfl
@[simp] theorem State.setAct_inputs (s : State) (a : Act) : (s.setAct a).inputs = s.inputs := rfl
@[simp] theorem State.setAct_barq (s : State) (a : Act) : (s.setAct a).barq = s.barq := rfl
@[simp] theorem State.setAct_hostReads (s : State) (a : Act) : (s.setAct a).hostReads = s.hostReads := rfl
@[simp] theorem State.setAct_free (s : State) (a : Act) : (s.setAct a).free = s.free := rfl

/-! ### What they set -/

@[simp] theorem State.setTaskAt_taskAt (s : State) (c k : Nat) (t : Task) : (s.setTaskAt c k t).taskAt c k = t :=
  Tab.get_put_self _ _ _ _

theorem State.setTaskAt_taskAt_ne (s : State) {c k c' k' : Nat} (t : Task) (h : taskKey c' k' ≠ taskKey c k) :
    (s.setTaskAt c k t).taskAt c' k' = s.taskAt c' k' := Tab.get_put_ne _ _ _ h

@[simp] theorem State.setTask_task (s : State) (t : Task) : (s.setTask t).task = t := Tab.get_put_self _ _ _ _

@[simp] theorem State.setCoreAt_coreAt (s : State) (c : Nat) (x : CoreSt) : (s.setCoreAt c x).coreAt c = x :=
  Tab.get_put_self _ _ _ _

@[simp] theorem State.setCtxAt_ctxAt (s : State) (n : Nat) (x : Ctx) : (s.setCtxAt n x).ctxAt n = x :=
  Tab.get_put_self _ _ _ _

@[simp] theorem State.setAct_act (s : State) (a : Act) : (s.setAct a).iss.act = a := rfl

@[simp] theorem State.setAct_task (s : State) (a : Act) : (s.setAct a).task = s.task := rfl

@[simp] theorem State.setAct_setAct (s : State) (a b : Act) : (s.setAct a).setAct b = s.setAct b := rfl

@[simp] theorem State.deposit_task (s : State) (lam : Nat) (x : VReg) : (s.deposit lam x).task = s.task := rfl

@[simp] theorem State.issueTo_task (s : State) (d : RDest) (lam : Nat) (v : RVal) :
    (s.issueTo d lam v).task = { s.task with inflight := s.task.inflight ++ [⟨d, v, lam, s.iss.pos, s.iss.pc, false⟩] } :=
  Tab.get_put_self _ _ _ _

end Sys2Proof.Machine
end

