-- ==== Sys2Proof/Laws/Ops.lean ====
section
/-! SUPPORT. What the shared operations of the meanings do: reading sources, posting a result, raising a cause. -/

namespace Sys2Proof.Machine

/-! ### The state with one part replaced -/

@[simp] theorem State.withTasks_task (s : State) (ts : Tab Task) :
    (s.withTasks ts).task = ts.get .empty (taskKey s.iss.core s.iss.slot) := rfl
@[simp] theorem State.withTasks_tasks (s : State) (ts : Tab Task) : (s.withTasks ts).tasks = ts := rfl
@[simp] theorem State.withTasks_iss (s : State) (ts : Tab Task) : (s.withTasks ts).iss = s.iss := rfl
@[simp] theorem State.withTasks_mem (s : State) (ts : Tab Task) : (s.withTasks ts).mem = s.mem := rfl
@[simp] theorem State.withTasks_withTasks (s : State) (a b : Tab Task) : (s.withTasks a).withTasks b = s.withTasks b := rfl
@[simp] theorem State.withIss_iss (s : State) (i : Issue) : (s.withIss i).iss = i := rfl
@[simp] theorem State.withIss_tasks (s : State) (i : Issue) : (s.withIss i).tasks = s.tasks := rfl
@[simp] theorem State.withIss_mem (s : State) (i : Issue) : (s.withIss i).mem = s.mem := rfl
@[simp] theorem State.withIss_withIss (s : State) (i j : Issue) : (s.withIss i).withIss j = s.withIss j := rfl
theorem State.withIss_withTasks (s : State) (i : Issue) (ts : Tab Task) :
    (s.withIss i).withTasks ts = (s.withTasks ts).withIss i := rfl
@[simp] theorem State.withTasks_self (s : State) : s.withTasks s.tasks = s := rfl
@[simp] theorem State.withIss_self (s : State) : s.withIss s.iss = s := rfl

theorem State.task_def (s : State) : s.task = s.tasks.get .empty (taskKey s.iss.core s.iss.slot) := rfl

/-- Replacing the task in focus is replacing one entry of the task table. -/
theorem State.setTask_def (s : State) (t : Task) :
    s.setTask t = s.withTasks (s.tasks.put (taskKey s.iss.core s.iss.slot) t) := rfl

theorem State.setAct_def (s : State) (a : Act) : s.setAct a = s.withIss { s.iss with act := a } := rfl

theorem State.deposit_def (s : State) (lam : Nat) (x : VReg) :
    s.deposit lam x = s.withIss { s.iss with
      near := if lam = 1 then s.iss.near.set s.iss.pos x else s.iss.near
      far := if lam ≤ 2 then s.iss.far.set s.iss.pos x else s.iss.far } := rfl

theorem State.issueTo_def (s : State) (d : RDest) (lam : Nat) (v : RVal) :
    s.issueTo d lam v =
      s.setTask { s.task with inflight := s.task.inflight ++ [⟨d, v, lam, s.iss.pos, s.iss.pc, false⟩] } := rfl

/-! ### Reading sources (R58) -/

/-- The task after it has read a source list: TASKST.LATCHLOST where one of them is a lost latch (R58). -/
def Task.reads (t : Task) (lost : Bool) : Task :=
  { t with csr := { t.csr with taskst := if lost then t.csr.taskst ||| 1 else t.csr.taskst } }

theorem Task.reads_false (t : Task) : t.reads false = t := rfl

theorem State.touch_def (s : State) (as : List Src) :
    s.touch as = if as.any s.task.lostSrc then s.setTask (s.task.reads true) else s := rfl

theorem State.touch_cases (s : State) (as : List Src) :
    ∃ ts, s.touch as = s.withTasks ts ∧ ts.get .empty (taskKey s.iss.core s.iss.slot) = s.task.reads (as.any s.task.lostSrc)
      ∧ ∀ k, k ≠ taskKey s.iss.core s.iss.slot → ts.get .empty k = s.tasks.get .empty k := by
  rw [State.touch_def]
  cases h : as.any s.task.lostSrc with
  | false => exact ⟨s.tasks, rfl, rfl, fun _ _ => rfl⟩
  | true =>
    exact ⟨_, rfl, Tab.get_put_self _ _ _ _, fun k hk => Tab.get_put_ne _ _ _ hk⟩

@[simp] theorem State.touch_nil (s : State) : s.touch [] = s := rfl

@[simp] theorem State.touch_iss (s : State) (as : List Src) : (s.touch as).iss = s.iss := by
  obtain ⟨ts, h, -⟩ := s.touch_cases as
  rw [h]; rfl

@[simp] theorem State.touch_mem (s : State) (as : List Src) : (s.touch as).mem = s.mem := by
  obtain ⟨ts, h, -⟩ := s.touch_cases as
  rw [h]; rfl

/-- Reading sources changes TASKST.LATCHLOST and nothing else of the task (R58). -/
theorem State.touch_task (s : State) (as : List Src) : (s.touch as).task = s.task.reads (as.any s.task.lostSrc) := by
  obtain ⟨ts, h, h', -⟩ := s.touch_cases as
  rw [h]; exact h'

/-! ### Results (R48, R55, R56) -/

/-- A result after its sources are read: what it posts, what it deposits, and its frame. -/
theorem State.result_gives (s : State) (as : List Src) (d : RDest) (sup : Bool) (lam : Nat) (x : VReg) :
    Gives s ((s.touch as).result d sup lam x) as d sup lam x := by
  obtain ⟨ts, h, h1, h2⟩ := s.touch_cases as
  rw [h]
  unfold Gives Posts State.result
  cases sup with
  | true =>
    refine ⟨rfl, ?_, h2, fun _ => rfl⟩
    refine h1.trans ?_
    simp only [if_true, List.append_nil]
    rfl
  | false =>
    refine ⟨rfl, ?_, ?_, fun _ => rfl⟩
    · refine (Tab.get_put_self _ _ _ _).trans ?_
      have hd : ((s.withTasks ts).deposit lam x).task = s.task.reads (as.any s.task.lostSrc) := h1
      rw [hd]
      rfl
    · intro k hk
      exact (Tab.get_put_ne _ _ _ hk).trans (h2 k hk)

theorem State.retG_gives (s : State) (as : List Src) (d : Dst) (lam : Nat) (w : Word) :
    GivesG s ((s.touch as).retG d lam w) as d lam w := s.result_gives as _ _ lam _

theorem State.retQ_gives (s : State) (as : List Src) (d : Dst) (b : Bool) :
    GivesQ s ((s.touch as).retQ d b) as d b := s.result_gives as _ _ 1 _

theorem State.retK_gives (s : State) (as : List Src) (d : Dst) (w : Word) :
    GivesK s ((s.touch as).retK d w) as d w := s.result_gives as _ _ 1 _

theorem State.retV_gives (s : State) (as : List Src) (d : Dst) (lam : Nat) (x : VReg) :
    GivesV s ((s.touch as).retV d lam x) as d lam x := by
  have h : (s.touch as).task.vMap d.reg.toNat = s.task.vMap d.reg.toNat := by
    rw [s.touch_task as]; rfl
  unfold GivesV State.retV
  rw [h]
  exact s.result_gives as _ _ lam x

/-! ### A cause that the task's handler takes (R220, R222, R223) -/

theorem Task.enterTrap_precise (t : Task) (cause : Nat) (pc : Word) (mask commit : Nat) (tval : Word)
    (h : ∀ f, t.delay ≠ .taken f) :
    t.enterTrap 0 false cause pc mask commit tval 0 = { t with
      trap := { t.trap with
        cause := BitVec.ofNat 64 (2 ^ 63 + t.loops.length * 2 ^ 53 + cause)
        pc := pcBits pc, tgt := 0, slots := BitVec.ofNat 64 (commit * 16 + mask), val := tval, ipc := 0 }
      pc := pcBits t.trap.vec, delay := .no, lpad := t.label.map fun l => (pcBits pc, l), label := none
      woke := false } := by
  unfold Task.enterTrap
  cases hd : t.delay with
  | taken f => exact absurd hd (h f)
  | no => simp [b2n]
  | untaken => simp [b2n]

theorem State.raise_raises (s : State) (as : List Src) (cause : Nat) (tval : Word) (h : s.canTrap) :
    Raises s ((s.touch as).raise cause tval) (as.any s.task.lostSrc) cause tval := by
  obtain ⟨h1, h2, h3, h4⟩ := h
  obtain ⟨ts, he, ht, ho⟩ := s.touch_cases as
  rw [he]
  have hr : (s.withTasks ts).raise cause tval =
      ((s.withTasks ts).setTask ((s.task.reads (as.any s.task.lostSrc)).enterTrap 0 false cause s.iss.pc (2 ^ s.iss.pos)
        s.iss.commit.toNat tval 0)).withIss { s.iss with raised := true, slotRaised := true } := by
    have hh : (s.task.reads (as.any s.task.lostSrc)).hasHandler = true := h3
    simp only [State.raise, State.withTasks_iss, State.withTasks_task, ht, h1, h2, hh]
    rfl
  rw [hr, (s.task.reads _).enterTrap_precise _ _ _ _ _ h4]
  refine ⟨rfl, ?_, ?_, fun _ => rfl⟩
  · exact Tab.get_put_self _ _ _ _
  · intro k hk
    exact (Tab.get_put_ne _ _ _ hk).trans (ho k hk)

end Sys2Proof.Machine
end

