-- ==== Sys2Proof/Laws/Scalar.lean ====
section
/-! SUPPORT. The scalar operations as bit-vector operations at their width. -/

namespace Sys2Proof.Machine

/-- Reading a bit vector's number as signed at its own width gives its signed value. -/
theorem sext_toNat {n : Nat} (hn : 0 < n) (p : BitVec n) : sext p.toNat n = p.toInt := by
  have hp : (2 : Nat) ^ n = 2 * 2 ^ (n - 1) := by
    obtain ⟨m, rfl⟩ : ∃ m, n = m + 1 := ⟨n - 1, by omega⟩
    simp [Nat.pow_succ, Nat.mul_comm]
  unfold sext
  rw [BitVec.toInt_eq_toNat_cond, Nat.mod_eq_of_lt p.isLt]

/-- Wrapping an integer to a width is the bit vector of the integer. -/
theorem wrap_toNat (r : Int) (n : Nat) : wrap r n = (BitVec.ofInt n r).toNat := by
  simp [wrap, BitVec.toNat_ofInt]

/-- At 32 bits a result is the low half, sign-extended (R241). -/
theorem narrow_32 (r : Int) : narrow r 32 = (BitVec.ofInt 32 r).signExtend 64 := by
  unfold narrow
  rw [wrap_toNat, sext_toNat (by decide)]
  rfl

/-- At 64 bits a result is the bit vector of the integer (R241). -/
theorem narrow_64 (r : Int) : narrow r 64 = BitVec.ofInt 64 r := by
  unfold narrow
  rw [wrap_toNat, sext_toNat (by decide), toWord, BitVec.ofInt_toInt]

/-- A two-source operation gives its value at the width W selects, where its numbers agree with the bit-vector operation. -/
theorem State.alu2_gives (s : State) (w : Bool) (d : Dst) (a b : Src) (lam : Nat) (f : Nat → Nat → Nat → Int)
    (g : (n : Nat) → BitVec n → BitVec n → BitVec n)
    (hf : ∀ n, n = 32 ∨ n = 64 → ∀ p q : BitVec n, BitVec.ofInt n (f n p.toNat q.toNat) = g n p q) :
    GivesG s (s.alu2 w d a b lam f) [a, b] d lam (atWidth w g (s.task.srcG a) (s.task.srcG b)) := by
  have h : atWidth w g (s.task.srcG a) (s.task.srcG b) = narrow (f (opWidth w) ((s.task.srcG a).toNat % 2 ^ opWidth w)
      ((s.task.srcG b).toNat % 2 ^ opWidth w)) (opWidth w) := by
    cases w with
    | false =>
      rw [show opWidth false = 64 from rfl, narrow_64, Nat.mod_eq_of_lt (BitVec.isLt _), Nat.mod_eq_of_lt (BitVec.isLt _)]
      exact (hf 64 (.inr rfl) _ _).symm
    | true =>
      rw [show opWidth true = 32 from rfl, narrow_32]
      have := hf 32 (.inl rfl) ((s.task.srcG a).setWidth 32) ((s.task.srcG b).setWidth 32)
      rw [BitVec.toNat_setWidth, BitVec.toNat_setWidth] at this
      rw [this]
      rfl
  rw [h]
  exact s.retG_gives [a, b] d lam _

end Sys2Proof.Machine
end

