-- ==== Sys2Proof/Tests/Slice0.lean ====
section
/-! SUPPORT. The model's own tests: ill-formed terms that the check refuses, words of the spec's encodings and what they decode to, a
small step of most instructions, and for each statement with hypotheses a state and operands that meet them (witness_…). Expected values are
worked out from the rules of the spec, never taken from the model. -/

namespace Sys2Proof.Tests

open Sys2Proof.Machine

-- One theorem is checked after the other, so that their stacks do not add up.
set_option Elab.async false

/-! ### Small states -/

/-- A context that maps VA 0 to 2^40 onto the ring SRAM of the module, with every permission. -/
def tCtx : Ctx := { Ctx.zero with
  stat := .active, quota := BitVec.ofNat 64 (256 * 2 ^ 32 + 2 ^ 26 - 256)
  range := [(0, BitVec.ofNat 64 (2 ^ 63 + 24 * 64)), (1, 0x807)] }

/-- Registers with small values: G4 an aligned address, G5 an odd one, Q1 set, G9 small. -/
def tRegs : Regs :=
  ⟨[(4, 0x1000), (5, 0x1003), (6, 7), (7, 3), (8, 0xFFFFFFFFFFFFFFFE), (9, 2)], 5, [(1, 5)], [(1, 0x12345678), (3, 0xFEDCBA98FFFFFFFF)]⟩

/-- A task of kernel 5 on core 0, slot 0, with a handler at 0x2000, two bank groups and 128 V registers. -/
def tTask : Task := { Task.empty with
  place := { Place.zero with ctx := 1, kernel := 5, level := 1, groups := 3, vunits := 3, vregs := 128 }
  stat := .issuing, pc := 0x1000, regs := tRegs, trap := { TrapCsr.zero with vec := BitVec.ofNat 64 (2 ^ 63 + 0x2000) } }

/-- The task at its turn, with another task in its place and another memory. -/
def tAt (t : Task) (f : State → State := id) : State := f { State.reset with
  page := ⟨0, [], false, [(0, 0x17), (1, 0x07)], []⟩, ctxs := [(1, tCtx)], tasks := [(0, t)]
  iss := { Issue.zero with pc := 0x1000, pos := 1 } }

def tS : State := tAt tTask

/-- A thread of retriever 2, the third, whose share begins at 0x1000. -/
def tR : State := { tS with
  rts := [(19, { RetrThread.zero with sram := BitVec.ofNat 64 0x0104, win := BitVec.ofNat 64 (24 * 64) })]
  tasks := [(1026 * 16 + 3, { tTask with place := { tTask.place with vregs := 64 } })]
  iss := { tS.iss with core := 1026, slot := 3 } }

/-- The n places of the ring from a. -/
def ringAt (a n : Nat) : List Loc := (List.range n).map fun i => .ring (a + i)

/-- The n places of LPDDR6 from a. -/
def dramAt (a n : Nat) : List Loc := (List.range n).map fun i => .dram (a + i)

/-! ### How a state is seen to meet a hypothesis -/

def mayTrap (s : State) : Bool :=
  !s.iss.raised && !s.iss.inTrap && s.task.hasHandler && (match s.task.delay with | .taken _ => false | _ => true)

theorem canTrap_of {s : State} (h : mayTrap s = true) : s.canTrap := by
  simp only [mayTrap, Bool.and_eq_true, Bool.not_eq_true'] at h
  refine ⟨h.1.1.1, h.1.1.2, h.1.2, fun f hf => ?_⟩
  simp [hf] at h

/-- Whether the bytes from va on lie at the places ls. -/
def lies (look : Nat → Look) (ls : List Loc) : Bool :=
  (List.range ls.length).all fun i => match look i with | .mem l _ => ls[i]? == some l | _ => false

theorem lies_of {look : Nat → Look} {ls : List Loc} (h : lies look ls = true) (i : Nat) (l : Loc) (hl : ls[i]? = some l) :
    ∃ kind, look i = .mem l kind := by
  have hi : i < ls.length := by
    rcases Nat.lt_or_ge i ls.length with h | h
    · exact h
    · simp [List.getElem?_eq_none h] at hl
  have := List.all_eq_true.1 h i (List.mem_range.2 hi)
  revert this
  cases hk : look i with
  | mem p k => intro hp; simp only [hl, beq_iff_eq, Option.some.injEq] at hp; exact ⟨k, by rw [hp]⟩
  | _ => simp

theorem spans_of {s : State} {va : Word} {a : Acc} {ls : List Loc}
    (h : lies (fun i => (s.lookU s.unit s.task.place.ctx (va + .ofNat 64 i) a).1) ls = true) : s.spans va a ls := by
  intro i l hl
  obtain ⟨k, hk⟩ := lies_of h i l hl
  exact ⟨k, _, _, Prod.ext hk rfl⟩

def portClear (s : State) : Bool :=
  s.borrowers.isEmpty && s.held.isEmpty && (s.sideOf s.unit).isEmpty && (s.sentBy s.unit).isEmpty && s.barq.isEmpty
    && s.rts.all (fun rt => !rt.2.kick.b 63) && !s.iss.slotRaised

theorem clearPort_of {s : State} (h : portClear s = true) : s.clearPort := by
  simp only [portClear, Bool.and_eq_true, List.isEmpty_iff, Bool.not_eq_true'] at h
  obtain ⟨⟨⟨⟨⟨⟨h1, h2⟩, h3⟩, h4⟩, h5⟩, h6⟩, h7⟩ := h
  refine ⟨h1, ?_, h3, h4, ?_, ?_, h7⟩
  · simp [h2]
  · simp [h5]
  · exact fun rt hrt => by simpa using List.all_eq_true.1 h6 rt hrt

def unitClear (s : State) (u : UnitId) (ls : List Loc) : Bool :=
  (s.sideOf u).isEmpty && (s.sentBy u).isEmpty && s.barq.isEmpty && s.borrowers.isEmpty && s.held.isEmpty
    && s.rts.all (fun rt => !rt.2.kick.b 63) && ls.all fun l => !s.mem.bad l

theorem opens_of {s : State} {u : UnitId} {ctx : Nat} {va : Word} {a : Acc} {ls : List Loc} (hc : unitClear s u ls = true)
    (hn : ls.Nodup) (h : lies (fun i => (s.lookU u ctx (va + .ofNat 64 i) a).1) ls = true) : s.opens u ctx va a ls := by
  simp only [unitClear, Bool.and_eq_true, List.isEmpty_iff] at hc
  obtain ⟨⟨⟨⟨⟨⟨h1, h2⟩, h3⟩, h4⟩, h5⟩, h6⟩, h7⟩ := hc
  refine ⟨h1, h2, by simp [h3], h4, by simp [h5], ?_, ?_, hn, ?_⟩
  · exact fun rt hrt => by simpa using List.all_eq_true.1 h6 rt hrt
  · exact fun l hl => by simpa using List.all_eq_true.1 h7 l hl
  · intro i l hl
    obtain ⟨k, hk⟩ := lies_of h i l hl
    exact ⟨k, _, _, Prod.ext hk rfl⟩

theorem faults_of {x : Look} {c : Nat} (h : (match x with | .fault c' _ _ => c' == c | _ => false) = true) : ∃ st k, x = .fault c st k := by
  revert h
  cases x with
  | fault c' st k => intro h; exact ⟨st, k, by rw [beq_iff_eq.1 h]⟩
  | _ => simp

/-! ### Witnesses: scalar, control flow, waits, CSRs -/

/-- ScalarArithmeticAndDivisionResults: a divisor that is not zero, one that is, and one whose low word is. -/
theorem witness_division : tS.task.srcG ⟨7, false⟩ ≠ 0 ∧ tS.task.srcG ⟨10, false⟩ = 0 ∧ tS.canTrap :=
  ⟨by decide, by decide, canTrap_of (by decide)⟩

/-- A loop of two bundles from 0x1010, the outermost, about to end. -/
def tLoop : Task := { tTask with loops := [⟨0xFF0, 0x1000, 2⟩] }

/-- BranchesAndJumpTablesSetTheirFlow: an index beyond its table, and one within it whose entry can be read. -/
theorem witness_jumpTable : (2 : BitVec 8).toNat < (tS.task.gReg 7).toNat ∧ tS.canTrap ∧ (tS.task.gReg 9).toNat ≤ (2 : BitVec 8).toNat ∧
    tS.clearPort ∧ (ringAt 0x1020 16).length = 16 ∧
    tS.spans (tS.task.gReg 4 + .ofNat 64 (16 * (tS.task.gReg 9).toNat)) .read (ringAt 0x1020 16) ∧
    ∀ l ∈ ringAt 0x1020 16, tS.mem.bad l = false :=
  ⟨by decide, canTrap_of (by decide), by decide, clearPort_of (by decide), by decide, spans_of (by decide +kernel), by decide⟩

/-- LoopInstructionsPushTheirBody: a body inside the loop above it, one that ends where that ends, a count of 2^22, and six loops. -/
theorem witness_loops :
    (∀ l, (tAt { tLoop with loops := [⟨0x1000, 0x1030, 2⟩] }).task.loops.head? = some l → (0x1020 : Word).toNat < l.last.toNat) ∧
    ¬ (0x1030 : Word).toNat < (⟨0x1000, 0x1030, 2⟩ : Loop).last.toNat ∧ 2 ^ 22 - 1 < (4194304 : Word).toNat ∧
    (List.replicate 6 (⟨0x1000, 0x1030, 2⟩ : Loop)).length = 6 := by
  refine ⟨fun l h => ?_, by decide, by decide, by decide⟩
  cases h
  decide

/-- BundleSuccessorAndLoopEnds: a taken branch's delay bundle, a loop at its last bundle with iterations left and without, LBRK's loop. -/
theorem witness_bundleSuccessor :
    ({ tLoop with delay := .taken ⟨0x2000, 1, none⟩ } : Task).delay = .taken ⟨0x2000, 1, none⟩ ∧ (∀ g, tLoop.delay ≠ .taken g) ∧
    tLoop.loops = ⟨0xFF0, 0x1000, 2⟩ :: [] ∧ 1 < (⟨0xFF0, 0x1000, 2⟩ : Loop).rem ∧ (⟨0xFF0, 0x1000, 1⟩ : Loop).rem ≤ 1 ∧
    Word.f 0x10000 18 16 = ([] : List Loop).length + 1 ∧ Word.f 0 18 16 ≠ ([] : List Loop).length + 1 := by
  refine ⟨rfl, fun g h => (by cases h), by decide, by decide, by decide, by decide, by decide⟩

/-- BundleSuccessorAndLoopEnds, LBRK: not taken, taken beyond the depth, and taken within it. -/
theorem witness_lbrk : ¬ ((3 : BitVec 4) = 0 ∨ tS.task.qReg 3 = true) ∧ tS.task.loops.length < (1 : BitVec 3).toNat ∧ tS.canTrap ∧
    (tAt tLoop).task.loops[(1 : BitVec 3).toNat - 1]? = some ⟨0xFF0, 0x1000, 2⟩ :=
  ⟨by decide, by decide, canTrap_of (by decide), by decide⟩

/-- A copy of the task in a dependency table, with its tag in G7 and, in G6, no promise. -/
def tDep (st : DepStat) : Dep := ⟨0, 1, 5, 2, 9, .tcpyMm 2 4 6, [0x1000, 0, 0x1100, 0], [], [], 90, 3, st, 0, 0, 1, [], [], none⟩

def tWait (st : DepStat) (promise : Word) (f : State → State := id) : State :=
  tAt { tTask with regs := { tRegs with g := [(6, promise), (7, 3)] } } fun s =>
    f { s with cores := [(0, { CoreSt.zero with deps := [(4, tDep st)], depSeq := 3 })], cycle := 60 }

/-- WaitsSleepUntilTheirEvent, WAITC: no tag, a failed copy, a promise that has passed, in a handler too, and one to come. -/
theorem witness_waitc : (7 : BitVec 6).toNat % 2 = 1 ∧ tS.canTrap ∧ (tS.task.gReg (10 + 1)).toNat = 0 ∧
    ((tWait (.failed 0x150 7) 0).coreAt 0).copyOf 0 5 3 = some (4, tDep (.failed 0x150 7)) ∧
    ((tWait .running 50).task.gReg 6).toNat ≤ (tWait .running 50).cycle.toNat ∧ (tWait .running 50).task.inTrap = false ∧
    ((tWait .running 50).coreAt 0).copyOf 0 5 3 = some (4, tDep .running) ∧ (∀ c tv, (tDep .running).stat ≠ .failed c tv) ∧
    (tWait .running 90).cycle.toNat < ((tWait .running 90).task.gReg 6).toNat := by
  refine ⟨by decide, canTrap_of (by decide), by decide, by decide, by decide, by decide, by decide, fun c tv h => (by cases h), by decide⟩

/-- WaitsSleepUntilTheirEvent, TWAIT: none left, some left before and after the deadline, and Z registers of the task and beyond. -/
theorem witness_twait : (tS.coreAt 0).waitSet tS.task 0 false true 0 tS.iss.seq0 = [] ∧
    ((tWait .running 90 fun s => { s with cores := [(0, { CoreSt.zero with deps := [(4, { tDep .running with ins := .tzero 1 })] })], iss := { s.iss with seq0 := 3 } }).coreAt 0).waitSet
      tTask 0 false true 0 3 ≠ [] ∧
    (3 : BitVec 5).toNat < 4 * popcount 8 tS.task.place.groups ∧ 4 * popcount 8 tS.task.place.groups ≤ (8 : BitVec 5).toNat := by
  decide

/-- WaitsSleepUntilTheirEvent, WAITE: a misaligned address, and an aligned one whose word can be read. -/
theorem witness_waite : (tS.task.gReg 5).toNat % 8 ≠ 0 ∧ tS.canTrap ∧ (tS.task.gReg 4).toNat % 8 = 0 ∧ tS.clearPort ∧
    tS.spans (tS.task.gReg 4) .read (ringAt 0x1000 8) ∧ (ringAt 0x1000 8).length = 8 ∧ (∀ l ∈ ringAt 0x1000 8, tS.mem.bad l = false) ∧
    tS.bytesAt (ringAt 0x1000 8) ≠ (tS.task.gReg 7).toNat ∧ tS.bytesAt (ringAt 0x1000 8) = (tS.task.gReg 10).toNat :=
  ⟨by decide, canTrap_of (by decide), by decide, clearPort_of (by decide), spans_of (by decide +kernel), by decide, by decide,
    by decide, by decide⟩

/-- A task in its handler. -/
def tHandler : State := tAt { tTask with trap := { tTask.trap with cause := BitVec.ofNat 64 (2 ^ 63 + 2 ^ 62), pc := 0x1400, tgt := 0x1800 } }
  fun s => { s with iss := { s.iss with inTrap := true } }

/-- FlowActionsTakeEffect, EndTrapiAndEret: a core's task outside a handler with a handler installed, one with a failed copy, one inside. -/
theorem witness_endTrapiEret : tS.iss.core < 1024 ∧ tS.iss.inTrap = false ∧ tS.task.hasHandler = true ∧ (∀ f, tS.task.delay ≠ .taken f) ∧
    tS.canTrap ∧ (tS.coreAt 0).deps = [] ∧
    ((4, tDep (.failed 0x150 7)) ∈ ((tWait (.failed 0x150 7) 0).coreAt 0).deps ∧ (tDep (.failed 0x150 7)).of 0 5 = true ∧
      isCopyIns (tDep (.failed 0x150 7)).ins = true ∧ (tWait (.failed 0x150 7) 0).task.inTrap = false) ∧
    tHandler.iss.inTrap = true ∧ tHandler.task.inTrap = true ∧ tHandler.task.loops.length = tHandler.task.trap.cause.f 55 53 := by
  refine ⟨by decide, by decide, by decide, fun f h => (by cases h), canTrap_of (by decide), by decide, by decide, by decide, by decide,
    by decide⟩

/-- CsrAccessesFollowTheirMap: a number that is defined, one that is not, and the clauses' bounds of the range pairs and of ROTCAL. -/
theorem witness_csr : definedCsr 0x010 = true ∧ definedCsr 0x080 = true ∧ definedCsr 0x09F = true ∧ definedCsr 0x180 = true ∧
    definedCsr 0x1C8 = true ∧ definedCsr 0x1C9 = false ∧ definedCsr 0x0B0 = false ∧ tS.canTrap ∧ tS.inRetr = false :=
  ⟨by decide, by decide, by decide, by decide, by decide, by decide, by decide, canTrap_of (by decide), by decide⟩

/-! ### Witnesses: memory -/

/-- LoadResults: bytes in the ring, an address without a translation, aligned and misaligned acquires. -/
theorem witness_loads : tS.toSram 0 = false ∧ tS.clearPort ∧ (ringAt 0x1000 8).length = 8 ∧
    tS.spans (tS.task.gReg 4 + 8 * (0 : BitVec 17).signExtend 64) .read (ringAt 0x1000 8) ∧
    (∀ l ∈ ringAt 0x1000 8, tS.mem.bad l = false) ∧ tS.canTrap ∧
    (tS.lookU tS.unit 1 (tS.task.gReg 8) .read).1 = .xlat 0x080 ∧ (tS.task.gReg 4).toNat % 2 ^ 3 = 0 ∧
    (tS.task.gReg 5).toNat % 2 ^ 3 ≠ 0 :=
  ⟨by decide, clearPort_of (by decide), by decide, spans_of (by decide +kernel), by decide, canTrap_of (by decide), by decide +kernel,
    by decide, by decide⟩

/-- LoadResults, LDH and CHKH: no entry, and an entry that matches. -/
theorem witness_hoists : tS.task.hoist.get? 3 = none ∧
    (tAt { tTask with hoist := [(3, ⟨0x1000, 8, false, 0, false, 7, none, []⟩)] }).task.hoist.get? 3 =
      some ⟨0x1000, 2 ^ (3 : BitVec 2).toNat, false, 0, false, 7, none, []⟩ := by decide

/-- StoreAndSramEffects: bytes in the ring that a store may write, a store without a translation, and a thread within and beyond its share. -/
theorem witness_stores : tS.toSram 0 = false ∧ tS.clearPort ∧ (ringAt 0x1000 4).Nodup ∧ tS.spans (tS.task.gReg 4) .write (ringAt 0x1000 4) ∧
    (∀ j < 2, (tS.lookU tS.unit 1 (tS.task.gReg 8 + .ofNat 64 j) .write).1 = .xlat 0x080) ∧
    1024 ≤ tR.iss.core ∧ tR.inShare ((tR.task.gReg 4).toNat % 2 ^ 18) 8 = true ∧ tR.iss.slotRaised = false ∧
    tR.inShare ((tR.task.gReg 7).toNat % 2 ^ 18 + 0) 1 = false ∧ tR.canTrap ∧ tR.task.hoist = [] ∧ tR.allocated [3] :=
  ⟨by decide, clearPort_of (by decide), by decide, spans_of (by decide +kernel), by decide +kernel, by decide, by decide, by decide,
    by decide, canTrap_of (by decide), by decide, fun n hn => by simp only [List.mem_singleton] at hn; subst hn; decide⟩

/-- AtomicResults: a doubleword and a pair that an atomic may take, a misaligned one, odd registers. -/
theorem witness_atomics : (tS.task.gReg 5).toNat % 8 ≠ 0 ∧ tS.canTrap ∧ (tS.task.gReg 4).toNat % 16 = 0 ∧ tS.clearPort ∧
    (ringAt 0x1000 16).length = 16 ∧ (ringAt 0x1000 16).Nodup ∧ tS.spans (tS.task.gReg 4) .atomic (ringAt 0x1000 16) ∧
    (∀ l ∈ ringAt 0x1000 16, tS.mem.bad l = false) ∧ (∀ l ∈ ringAt 0x1000 16, ∀ a, l ≠ .host a) ∧ (5 : BitVec 6).toNat % 2 = 1 :=
  ⟨by decide, canTrap_of (by decide), by decide, clearPort_of (by decide), by decide, by decide, spans_of (by decide +kernel), by decide,
    fun l hl a h => by subst h; simp [ringAt] at hl, by decide⟩
/-- Two blocks of a REMOP in the ring: FADD of 7 at 0x1000, and one whose OP is out of range. -/
def tBlk (w0 : Nat) : State := tAt tTask fun s => { s with mem := { s.mem with ring := (Tab.setMany 0 [] 0x4000 (toBytes 8 w0 ++ toBytes 8 7)) } }

/-- RemoteOperationResults: a misaligned block, one out of range, a misaligned target, a FADD that can be made. -/
theorem witness_remop : (tS.task.gReg 5).toNat % 128 ≠ 0 ∧ tS.canTrap ∧ (0x4000 : Word).toNat % 128 = 0 ∧
    (ringAt 0x4000 128).length = 128 ∧ (tBlk 0).spans 0x4000 .read (ringAt 0x4000 128) ∧ (tBlk 0).clearPort ∧
    4 ≤ Word.f (BitVec.ofNat 64 ((tBlk (5 * 2 ^ 60)).bytesAt (ringAt 0x4000 8))) 63 60 ∧
    BitVec.ofNat 64 ((tBlk 0).bytesAt (ringAt 0x4000 8)) = 0 ∧ (tS.task.gReg 5).toNat % 8 ≠ 0 ∧ (tS.task.gReg 4).toNat % 8 = 0 ∧
    (∃ k, ((tBlk 0).lookU tS.unit 1 (tS.task.gReg 4) .write).1 = .mem (.ring 0x1000) k) ∧
    ((tBlk 0).lookU tS.unit 1 (tS.task.gReg 4) .write).2 = (tS.part.module, 0x1000) ∧
    (ringAt 0x1000 8).Nodup ∧ (∀ p ∈ ringAt 0x1000 8, p ∉ ringAt 0x4000 128) ∧
    lies (fun i => (tBlk 0).lookIA (0x1000 + i) .atomic) (ringAt 0x1000 8) = true :=
  ⟨by decide, canTrap_of (by decide), by decide, by decide +kernel, spans_of (by decide +kernel), clearPort_of (by decide +kernel), by decide +kernel,
    by decide +kernel, by decide, by decide,
    lies_of (look := fun _ => _) (ls := [.ring 0x1000]) (by decide +kernel) 0 _ rfl, by decide +kernel, by decide +kernel, by decide +kernel, by decide +kernel⟩

/-- A finder that places every IA in the ring. -/
def tFind (ia : Nat) (_ : Acc) : Look := .mem (.ring ia) 0

/-- RemoteOperationResults at the retriever: MCAS of two words, ENQ to an empty and to a full queue here and elsewhere, and a CHASE of two hops
that ends at a null link. -/
theorem witness_remopPerform : (ringAt 0x1000 16).length = 8 * 2 ∧ (ringAt 0x1000 16).Nodup ∧
    lies (fun i => tFind (0x1000 + i) .atomic) (ringAt 0x1000 16) = true ∧ (ringAt 0x1000 16 ++ ringAt 0x1100 8).Nodup ∧
    tS.bytesAt ((ringAt 0x1000 16).drop 8) = 0 ∧
    (let s := { tS with mem := { tS.mem with ring := [(0x1009, 0x12), (0x1200, 5)] } }
     s.bytesAt ((ringAt 0x1000 16).drop 8) = 0x1200 ∧ 0x1200 / 2 ^ 52 = s.part.module ∧
     s.bytesAt (ringAt 0x1008 8) = 0x1200 ∧ s.bytesAt (ringAt 0x1200 8) = 5) ∧
    (let s := { tS with mem := { tS.mem with ring := [(0x100E, 0x10)] }, podmap := [(0, 2)] }
     s.bytesAt ((ringAt 0x1000 16).drop 8) / 2 ^ 52 = 1 ∧ 1 ≠ s.part.module ∧ s.cabled 1 = true) := by
  decide +kernel

/-- Words of LPDDR6. -/
def dram8 (ws : List (Nat × Nat)) : Tab Byte := ws.foldl (fun t w => Tab.setMany 0 t w.1 (toBytes 8 w.2)) []

/-- A leaf: SIZE, STATE, the page's address, kind U, every permission. -/
def leaf (size st out : Nat) : Nat := 2 ^ 63 + st * 2 ^ 59 + size * 2 ^ 55 + 2 * 2 ^ 53 + out + 0xE00

/-- A state whose VA 2^40 + x stands at IA 2^36 + x, through a page table of three levels with these entries in its last. -/
def tD (ws : List (Nat × Nat)) : State := tAt tTask fun s => { s with
  page := ⟨BitVec.ofNat 64 (2 ^ 63 + 0x10000), [], false, [(0, 0x17), (1, 0x07)], []⟩
  ctxs := [(1, { tCtx with range := tCtx.range ++ [(2, BitVec.ofNat 64 (2 ^ 63 + 2 ^ 40 + 36 * 64)), (3, BitVec.ofNat 64 (2 ^ 36 + 0x807))] })]
  mem := { s.mem with dram := dram8 ([(0x10000, 2 ^ 63 + 2 ^ 62 + 0x11000), (0x11000, 2 ^ 63 + 2 ^ 62 + 0x12000)] ++ ws) } }

/-- A task whose G4 lies in the pages of tD. -/
def tFar (s : State) : State := { s with tasks := [(0, { tTask with regs := { tRegs with g := [(4, 2 ^ 40), (5, 2 ^ 36), (6, 0)] } })] }

/-- FencesAndFaultsHoldAccesses: a FENCE with nothing before it, one behind a held access, an unmapped page. -/
theorem witness_faults : (tS.older tS.unit tS.nextId).clear = true ∧
    (({ tS with held := [⟨3, tS.unit, 1, .load 0x1000 8 false, .flush, 0x1000, 0, [], false, 1, 0x1000, [], [], false, false, []⟩], nextId := 4 } : State).older
      tS.unit 4).clear = false ∧ (tFar (tD [])).toSram 0 = false ∧ (tFar (tD [])).clearPort ∧ ((tD []).ctxAt 1).frctl.f 63 59 = 0 ∧
    (∃ st k, ((tFar (tD [])).lookU tS.unit 1 (2 ^ 40) .read).1 = .fault 0x082 st k) ∧
    (∃ st k, ((tFar (tD [])).lookU tS.unit 1 (2 ^ 40) .write).1 = .fault 0x082 st k) ∧
    ((tFar (tD [])).lookU tS.unit 1 (2 ^ 40) .write).2 = (0, 2 ^ 36) :=
  ⟨by decide +kernel, by decide +kernel, by decide, clearPort_of (by decide +kernel), by decide, faults_of (by decide +kernel),
    faults_of (by decide +kernel), by decide +kernel⟩

/-- A fault ring of 64 entries at IA 0x8000, its tail and head. -/
def tRing (logk head tail : Nat) : Ctx := { tCtx with frbase := 0x8000, frctl := BitVec.ofNat 64 (logk * 2 ^ 59 + head * 2 ^ 20 + tail) }

/-- FencesAndFaultsHoldAccesses: a ring that is off, a full one, one with room for the record. -/
theorem witness_records : (tRing 5 0 0).recs = [] ∧ (tRing 5 0 0).recSent = false ∧ (tRing 5 0 0).frctl.f 63 59 < 6 ∧
    (tRing 6 3 4).frctl.f 63 59 = 6 ∧ ((tRing 6 3 4).frctl.f 39 20 + 1) % 2 ^ 6 = (tRing 6 3 4).frctl.f 19 0 % 2 ^ 6 ∧
    ((tRing 6 63 4).frctl.f 39 20 + 1) % 2 ^ 6 ≠ (tRing 6 63 4).frctl.f 19 0 % 2 ^ 6 ∧
    lies (fun i => ({ tS with ctxs := [(1, tRing 6 63 4)] } : State).lookIA ((tRing 6 63 4).frbase.f 51 5 * 32 + 32 * 63 + i) .write) (ringAt 0x87E0 32) = true ∧
    (ringAt 0x87E0 32).length = 32 ∧ (ringAt 0x87E0 32).Nodup := by
  decide +kernel

/-- A RESIDENT page of 2^30 bytes at IA 2^36. -/
def tPage : State := tFar (tD [(0x12000 + 8 * 64, leaf 9 0 0)])

/-- PageDiscardAndPrefetchResults: an empty range, one beyond 2^57, one without a translation, a RESIDENT page, an unmapped one. -/
theorem witness_discard : (tPage.task.srcG ⟨6, false⟩).toNat = 0 ∧
    2 ^ 57 < (tS.task.srcG ⟨8, false⟩).toNat + (tS.task.srcG ⟨7, false⟩).toNat ∧ tS.canTrap ∧
    tS.pieces 1 (2 ^ 50) (2 ^ 50 + 8) permW = [(2 ^ 50, 8, .error 0x080)] ∧ 0x080 ≠ 0x089 ∧ tPage.clearPort ∧
    (let n := leafSize (BitVec.ofNat 64 (leaf 9 0 0))
     tPage.pieces 1 (2 ^ 40) (2 ^ 40 + n) permW = [(2 ^ 40, n, .ok (tPage.part.module, 2 ^ 36))] ∧ 0 < n ∧ n ≤ 2 ^ 34 ∧ 2 ^ 36 % n = 0 ∧
     tPage.walk (2 ^ 36) = .leaf (BitVec.ofNat 64 (leaf 9 0 0)) (0x12000 + 8 * 64) ∧
     (∀ k ∈ leafCopies (BitVec.ofNat 64 (leaf 9 0 0)) (0x12000 + 8 * 64) (2 ^ 36), tPage.mem.dramWord k = BitVec.ofNat 64 (leaf 9 0 0)) ∧
     (leafCopies (BitVec.ofNat 64 (leaf 9 0 0)) (0x12000 + 8 * 64) (2 ^ 36)).Pairwise (fun x y => x + 8 ≤ y) ∧
     Word.f (BitVec.ofNat 64 (leaf 9 0 0)) 61 59 = 0) ∧
    tPage.page.cache = [] ∧ (tFar (tD [])).walk (2 ^ 36) = .unmapped ∧
    (tD []).pieces 1 (2 ^ 40) (2 ^ 40 + 256) 0 = [(2 ^ 40, 256, .ok (tS.part.module, 2 ^ 36))] ∧ 2 ^ 36 % 4096 + 256 ≤ 4096 :=
  ⟨by decide, by decide, canTrap_of (by decide), by decide +kernel, by decide, clearPort_of (by decide +kernel), by decide +kernel,
    by decide, by decide +kernel, by decide +kernel, by decide⟩

/-! ### Witnesses: vectors -/

/-- Vectors in V1 and V3. -/
def vA : VReg := BitVec.ofNat 2048 (((List.range 256).map fun i => ((i * 37 + 11) * (i + 3) % 256) * 256 ^ i).sum)
def vB : VReg := BitVec.ofNat 2048 (((List.range 256).map fun i => ((i * 91 + 128) * (i + 7) % 256) * 256 ^ i).sum)
def tV (f : Task → Task := id) (g : State → State := id) : State := tAt (f { tTask with regs := { tRegs with v := [(1, vA), (3, vB)] } }) g

theorem allocated_of {s : State} {ns : List Nat} (h : ns.all s.task.vOk = true) : s.allocated ns :=
  fun n hn => List.all_eq_true.1 h n hn

theorem not_allocated_of {s : State} {ns : List Nat} (h : ns.all s.task.vOk = false) : ¬ s.allocated ns := fun h' => by
  have : ns.all s.task.vOk = true := List.all_eq_true.2 h'
  simp [this] at h

/-- VectorElementResults, LaneMaskAndWidthResults: registers within the task's 64 and beyond them. -/
theorem witness_vectors : tV.allocated [3, 1, 2] ∧ ¬ (tV fun t => { t with place := { t.place with vregs := 64 } }).allocated [64] ∧
    tV.canTrap ∧ tV.allocated [] :=
  ⟨allocated_of (by decide), not_allocated_of (by decide), canTrap_of (by decide), allocated_of (by decide)⟩

/-- ShuffleAndPatternResults: a valid pattern and none. -/
theorem witness_shuffle : tV.allocated [3, 1] ∧ tV.canTrap ∧ (tV.task.tile.p.get ⟨[], false, [], false⟩ 2).actOk = false ∧
    ((tV fun t => { t with tile := { t.tile with p := [(2, ⟨[3, 2, 300], true, [], false⟩)] } }).task.tile.p.get ⟨[], false, [], false⟩ 2).actOk = true :=
  ⟨allocated_of (by decide), canTrap_of (by decide), by decide, by decide⟩

/-- ReductionBroadcastAndMoveResults: an index within and beyond, 256 bytes in the ring, the tile store within the task's two bank groups and beyond,
with and without older tasks, a physical register within and beyond. -/
theorem witness_moves : tV.allocated [3, 1] ∧ tV.canTrap ∧ (tV.task.srcG ⟨9, false⟩).toNat < tV.els (tyWidth 2) ∧
    tV.els (tyWidth 2) ≤ (tV.task.srcG ⟨4, false⟩).toNat ∧ tV.toSram 0 = false ∧ tV.clearPort ∧ (ringAt 0x1000 256).length = 256 ∧
    tV.spans (tV.task.gReg 4) .read (ringAt 0x1000 256) ∧ tV.spans (tV.task.gReg 4) .write (ringAt 0x1000 256) ∧ (ringAt 0x1000 256).Nodup ∧
    (∀ l ∈ ringAt 0x1000 256, tV.mem.bad l = false) ∧
    (∀ j < 256, bit tV.task.place.groups ((0x1000 + j) / 0x10000) = true) ∧ bit tV.task.place.groups (0x20000 / 0x10000) = false ∧
    (∀ w ∈ (tV.coreAt 0).rawSt, w.slot ≠ 0) ∧ (tV.coreAt 0).deps = [] ∧ (tDep .waiting).seq < 3 ∧ (tDep .waiting).stat = .waiting ∧
    (tV.task.srcG ⟨9, false⟩).toNat < tV.task.place.vregs ∧ tV.task.place.vregs ≤ (tV.task.srcG ⟨4, false⟩).toNat :=
  ⟨allocated_of (by decide), canTrap_of (by decide), by decide, by decide, by decide, clearPort_of (by decide), by decide +kernel,
    spans_of (by decide +kernel), spans_of (by decide +kernel), by decide +kernel, by decide +kernel, by decide +kernel, by decide, by decide,
    by decide, by decide, by decide, by decide, by decide⟩

/-- Offsets of the lanes for a gather: 4 × lane, and a first lane that is misaligned. -/
def tG (o : Nat) : State := tV fun t => { t with regs := { t.regs with v := [(1, BitVec.ofNat 2048 (((List.range 64).map fun i => (4 * i + o) * 2 ^ (32 * i)).sum))] } }

/-- GatherAndScatterResults: aligned lanes that differ and can be read, and a misaligned lowest lane. -/
theorem witness_gather : (2 : BitVec 2) ≠ 0 ∧ (tG 0).allocated [3, 1] ∧ (tG 0).canTrap ∧
    ((tG 1).task.srcG ⟨4, false⟩ + .ofInt 64 (el ((tG 1).task.srcV ⟨1, false⟩) 32 0)).toNat % 4 ≠ 0 ∧ (tG 0).clearPort ∧
    (∀ l < 64, ((tG 0).task.srcG ⟨4, false⟩ + .ofInt 64 (el ((tG 0).task.srcV ⟨1, false⟩) 32 l)) = .ofNat 64 (0x1000 + 4 * l)) ∧
    (tG 0).spans 0x1000 .read (ringAt 0x1000 256) ∧ (tG 0).lanes = 64 ∧ ((List.range 64).flatMap fun l => ringAt (0x1000 + 4 * l) 4).Nodup :=
  ⟨by decide, allocated_of (by decide), canTrap_of (by decide), by decide +kernel, clearPort_of (by decide), by decide +kernel,
    spans_of (by decide +kernel), by decide, by decide +kernel⟩

/-- KennelResults: registers within and beyond, a count that fits and one that does not, entries that can be written and read. -/
theorem witness_kennel : (tV.canTrap ∧ ¬ (120 + 8 < 128) ∧ tV.task.vOk 3 = true) ∧
    1024 < (tV fun t => { t with csr := { t.csr with kencnt := 1023 } }).task.csr.kcount 0 + 2 ∧ tV.task.csr.kcount 0 + 2 ≤ 1024 ∧ tV.clearPort ∧
    (ringAt 0 32 ++ ringAt 32 32).Nodup ∧ tV.spans (tV.task.csr.kenbase + .ofNat 64 32) .write (ringAt 32 32) ∧
    (tV fun t => { t with csr := { t.csr with kencnt := 2 } }).task.csr.kcount 0 = 2 ∧ tV.spans tV.task.csr.kenbase .read (ringAt 0 64) :=
  ⟨⟨canTrap_of (by decide), by decide, by decide⟩, by decide, by decide, clearPort_of (by decide), by decide, spans_of (by decide +kernel),
    by decide, spans_of (by decide +kernel)⟩

/-- A task whose noise stream logs or replays, with room for 8 words. -/
def tN (mode pos : Nat) : State := tV fun t => { t with csr := { t.csr with noisectl := .ofNat 64 mode, noisebase := 0x9000, noiselen := 8, noisepos := .ofNat 64 pos } }

/-- NoiseResults: the free mode, a log and a replay with room, and past their ends. -/
theorem witness_noise : tV.task.csr.noisectl.f 1 0 = 0 ∧ tV.allocated [3, 1] ∧ (tN 1 6).task.csr.noisectl.f 1 0 = 1 ∧
    (tN 2 6).task.csr.noisectl.f 1 0 = 2 ∧ (tN 1 6).task.csr.noiselen.toNat < (tN 1 6).task.csr.noisepos.toNat + 4 ∧
    ¬ (tN 1 6).task.csr.noiselen.toNat < (tN 1 6).task.csr.noisepos.toNat + 2 ∧ (tN 1 6).canTrap ∧ (tN 1 6).clearPort ∧
    (ringAt 0x900C 4).Nodup ∧ (tN 1 6).spans 0x900C .write (ringAt 0x900C 4) ∧ (tN 2 6).spans 0x900C .read (ringAt 0x900C 4) :=
  ⟨by decide, allocated_of (by decide), by decide, by decide, by decide, by decide, canTrap_of (by decide), clearPort_of (by decide),
    by decide, spans_of (by decide +kernel), spans_of (by decide +kernel)⟩

/-- NumericHelpersAndExactRoutines: positive widths and shifts, a fraction width, registers allocated. -/
theorem witness_numbers : 0 < 16 ∧ 0x8000 < 2 ^ 16 ∧ tV.allocated [3, 1] ∧ 16 < 24 := ⟨by decide, by decide, allocated_of (by decide), by decide⟩

/-! ### Witnesses: retriever threads, launches, barriers -/

/-- RetrieverThreadsAndPackets: a thread that may start, one that may stop, and module states that allow neither. -/
theorem witness_threads : tS.modstat.phase ≠ 1 ∧ tS.modstat.phase ≠ 5 ∧ (2 : BitVec 4).toNat < tS.part.memch / 8 ∧ (3 : BitVec 3) ≠ 0 ∧
    (tS.rtAt 2 3).ctl.b 63 = false ∧
    (({ tS with rts := [(19, { RetrThread.zero with ctl := 0x8000000000000001 })] } : State).rtAt 2 3).ctl.b 63 = true := by decide +kernel

/-! ### Witnesses: packets, launches, barriers -/

def tPkt (remop : Bool) (id : Nat) : RPkt := ⟨id, remop, 3, 0x21, 2, 7, 8, 2, [], 0x1000, none, 9⟩

/-- The thread of tR with packets in its inbox; G4 and G5 aligned within its share. -/
def tP (inbox : List RPkt) : State := { tR with
  rts := [(19, { tR.rt with inbox := inbox })]
  tasks := [(1026 * 16 + 3, { tR.task with regs := { tRegs with g := [(4, 0x1000), (5, 0x1020), (7, 7), (8, 1), (9, 0x1003)] } })] }

/-- RetrieverThreadsAndPackets: an empty inbox, a kick and a REMOP named in it, a number that names none, a retriever that is there and the own one. -/
theorem witness_packets : (tP []).rt.inbox = [] ∧ (tP [tPkt false 7]).rt.inbox = tPkt false 7 :: [] ∧
    ((tP []).task.srcG ⟨9, false⟩).toNat % 32 ≠ 0 ∧ (tP []).canTrap ∧ (tPkt false 7).remop = false ∧
    (tP []).inShare (((tP []).task.srcG ⟨4, false⟩).toNat % 2 ^ 18) 32 = true ∧ (tP []).iss.slotRaised = false ∧
    ((tP [tPkt true 7]).rt.inbox.find? fun q => q.id == ((tP []).task.srcG ⟨7, false⟩).f 31 0) = some (tPkt true 7) ∧
    ((tP [tPkt true 5]).rt.inbox.find? fun q => q.id == ((tP []).task.srcG ⟨7, false⟩).f 31 0) = none ∧
    (tPkt true 7).held = none ∧ (tP []).inShare (((tP []).task.srcG ⟨5, false⟩).toNat % 2 ^ 18) 40 = true ∧
    ((tP []).task.srcG ⟨8, false⟩).f 3 0 < (tP []).part.retrievers ∧ 1024 ≤ (tP []).iss.core ∧ 1024 + 1 ≠ (tP []).iss.core ∧
    (tP []).iss.slot < 8 ∧ 1024 + 2 = (tP []).iss.core ∧ ((tP []).task.srcG ⟨4, false⟩).f 8 0 = 0 ∧ ((tP []).task.srcG ⟨5, false⟩).f 8 0 ≠ 0 :=
  ⟨by decide, by decide, by decide, canTrap_of (by decide), by decide, by decide, by decide, by decide, by decide, by decide, by decide,
    by decide, by decide, by decide, by decide, by decide, by decide, by decide⟩

/-- LaunchAndBarrierInstructionResults: level 3, and another level with a record that can be read. -/
theorem witness_launch : (tAt { tTask with place := { tTask.place with level := 3 } }).task.place.level = 3 ∧
    (tAt { tTask with place := { tTask.place with level := 3 } }).canTrap ∧ tS.task.place.level ≠ 3 ∧ tS.clearPort ∧
    (ringAt 0x1000 160).length = 160 ∧ tS.spans (tS.task.gReg 4) .read (ringAt 0x1000 160) ∧ (∀ l ∈ ringAt 0x1000 160, tS.mem.bad l = false) :=
  ⟨by decide, canTrap_of (by decide), by decide, clearPort_of (by decide), by decide +kernel, spans_of (by decide +kernel), by decide +kernel⟩

/-- Entry 3 of the barriers of core 0 in a state, its group that of core 0 alone, of the task's kernel, in phase 7. -/
def tBar (st : BarStat) : Barrier := ⟨st, 5, 7, 3, 1, 0, 0, 0, [], 3, none⟩
def tB (st : BarStat) : State := { tS with cores := [(0, { CoreSt.zero with bars := [(3, tBar st)] })] }

/-- LaunchAndBarrierInstructionResults: a selector outside the kernel, entries idle, armed, waiting and broken, of the kernel and of another,
counts of 0, within the group and beyond, and a phase that is over and one that is not. -/
theorem witness_barriers : selects 0 tS.task.place.geom ∧ ¬ selects 0x400 tS.task.place.geom ∧ tS.canTrap ∧
    ((tB .waiting).coreAt 0).bars.get .zero 3 = tBar .waiting ∧ (tBar .waiting).owner = (tB .waiting).task.place.kernel ∧
    (tBar .waiting).group = 0 ∧ (tS.coreAt 0).bars.get .zero 3 = .zero ∧ Barrier.zero.stat = .idle ∧
    (tS.task.gReg 10).f 13 0 = 0 ∧ 16 * (2 ^ 0 * 2 ^ 0) < (0x20 : Word).f 13 0 ∧ 0 < (tS.task.gReg 6).f 13 0 ∧
    (tS.task.gReg 6).f 13 0 ≤ 16 * (2 ^ 0 * 2 ^ 0) ∧ (tBar .armed).gen = (tS.task.gReg 6).f 15 0 ∧
    (tBar .armed).gen ≠ (tS.task.gReg 9).f 15 0 ∧ (tBar .broken).stat = .broken := by
  refine ⟨by unfold selects; decide, by unfold selects; decide, canTrap_of (by decide), ?_⟩
  decide +kernel

/-! ### Witnesses: tile instructions -/

/-- A descriptor word. -/
def dsc (rows cols ty algd pitch base : Nat) : Word :=
  BitVec.ofNat 64 (2 ^ 63 + (rows - 1) * 2 ^ 51 + (cols - 1) * 2 ^ 39 + ty * 2 ^ 37 + algd * 2 ^ 35 + pitch * 2 ^ 20 + base)

/-- Tiles: T1 and T2 for a product, T3 and T4 for a drain, T5 and T6 over an algebra, T7 with its side T8 and bitmap, T9 with a bitmap,
T10 and T11 to transpose; accumulator slot 1 holds an algebra of dimension 2. -/
def tTiles : TileRegs := { TileRegs.zero with
  t0 := [(1, dsc 32 128 1 0 4 0), (2, dsc 128 32 1 0 1 0x10000), (3, dsc 32 32 2 0 2 0x4000), (4, dsc 32 32 2 0 2 0x12000),
    (5, dsc 32 16 1 1 1 0x6000), (6, dsc 16 16 1 1 1 0x14000), (7, dsc 128 32 1 0 1 0x16000), (8, dsc 128 2 2 0 1 0x18000),
    (9, dsc 32 128 1 0 4 0), (10, dsc 32 32 1 0 1 0x1000), (11, dsc 32 32 1 0 1 0x1400), (12, dsc 2 32 2 0 2 0x1A000),
    (13, dsc 2 32 2 0 2 0x1B000), (14, dsc 2 32 1 0 1 0x1C000)]
  t1 := [(7, BitVec.ofNat 64 (3 * 2 ^ 32 + 2 ^ 31 + 8)), (9, BitVec.ofNat 64 (2 ^ 30 + 2 * 2 ^ 20))]
  a := [(0, ⟨1 :: List.replicate 127 0⟩), (1, ⟨2 :: List.replicate 127 0⟩)]
  d := [(0, 0x0001000000010003), (8, 0x0001000000010003), (9, 0), (10, 64), (11, 0), (12, 0), (13, 0)] }

def tT (ti : TileRegs := tTiles) (deps : List (Nat × Dep) := []) : State := { tS with
  tasks := [(0, { tTask with tile := ti, regs := { tRegs with g := [(2, 0x1000), (3, 64), (6, dsc 32 32 2 0 2 0x4000), (7, 0)] } })]
  cores := [(0, { CoreSt.zero with deps := deps, depSeq := 4 })] }

/-- TileTasksArePosted, the products: operands of TMMA and TMMAS, of TMMAO, of the algebra forms and of TNORM. -/
theorem witness_products : (∃ e < 64, (tT.coreAt 0).deps.get? e = none) ∧ (3 : BitVec 5).toNat < 4 * popcount 8 tT.task.place.groups ∧
    (let a := tT.task.tdesc 1
     let b := tT.task.tdesc 2
     a.valid = true ∧ a.offBad 0 = false ∧ a.ty ≤ 2 ∧ b.valid = true ∧ b.offBad 0 = false ∧ b.ty = a.ty ∧ sharesBank a b = false ∧
     a.rows = 32 ∧ b.rows = a.cols ∧ a.oen = false ∧ colv 0 = false ∧ rowv 0 = false ∧ a.d = 1 ∧ b.d = 1 ∧ a.cols % 128 = 0 ∧
     a.cols ≤ 4096 ∧ b.cols = 32 ∧ a.men = false ∧ b.men = false) ∧
    (let a := tT.task.tdesc 5
     let b := tT.task.tdesc 6
     a.valid = true ∧ b.valid = true ∧ b.ty = a.ty ∧ sharesBank a b = false ∧ a.rows = 32 ∧ b.rows = a.cols ∧ 2 ≤ a.d ∧ b.d = a.d ∧
     a.cols * a.d ≤ 4096 ∧ b.sc = 32 ∧ b.oen = false ∧ a.sc = 32 ∧ tT.slotDim 1 = .dim 2 ∧ a.d = 2) ∧
    (let a := tT.task.tdesc 1
     let b := tT.task.tdesc 7
     let sd := tT.task.tdesc b.side
     b.valid = true ∧ b.oen = true ∧ sd.valid = true ∧ a.d = 1 ∧ sd.d = 1 ∧ sd.rows = a.cols ∧
     sd.cols = ((List.range 32).filter fun j => b.omask.testBit j).length ∧ sd.ty = 2 ∧ sharesBank a sd = false ∧ sd.offBad 0 = false) ∧
    tT.task.csr.noisectl.f 1 0 = 0 := by
  refine ⟨⟨0, by decide, by decide⟩, by decide, ?_⟩
  decide +kernel

/-- TileTasksArePosted, the accumulators' forms: tiles of 32 by 32, of one shape, an algebra table, accumulators of the task. -/
theorem witness_accumulators : (∃ e < 64, (tT.coreAt 0).deps.get? e = none) ∧
    (let a := tT.task.tdesc 3
     let b := tT.task.tdesc 4
     a.valid = true ∧ a.rows = 32 ∧ a.sc = 32 ∧ b.valid = true ∧ b.rows = 32 ∧ b.sc = 32 ∧ b.offBad 0 = false ∧ a.rows = b.rows ∧ a.sc = b.sc ∧
     a.cols = b.cols ∧ a.d = b.d ∧ a.ty = b.ty) ∧
    tT.slotDim 0 ≠ .empty ∧ (∀ d, tT.slotDim 0 = .dim d → d = (tT.task.tdesc 3).d) ∧ tT.task.ownsTile (tT.task.tdesc 3).base 128 = true ∧
    (7 : BitVec 5).toNat < 4 * popcount 8 tT.task.place.groups ∧ tT.task.csr.noisectl.f 1 0 = 0 := by
  refine ⟨⟨0, by decide, by decide⟩, by decide +kernel, by decide +kernel, fun d h => ?_, by decide +kernel, by decide, by decide⟩
  revert h
  rw [show tT.slotDim 0 = .dim 1 by decide +kernel]
  intro h
  cases h
  decide +kernel

/-- PostingChecksRaise: no descriptor, an accumulator beyond the task's, a full table. -/
theorem witness_postingChecks : tT.canTrap ∧ (tT.task.tdesc 20).valid = false ∧ (tT.task.tdesc 1).valid = true ∧ (tT.task.tdesc 2).valid = true ∧
    4 * popcount 8 tT.task.place.groups ≤ (9 : BitVec 5).toNat ∧
    ∀ e < 64, ((tT tTiles ((List.range 64).map fun e => (e, tDep .waiting))).coreAt 0).deps.get? e ≠ none :=
  ⟨canTrap_of (by decide), by decide, by decide, by decide, by decide, by decide +kernel⟩

/-- CopiesArePostedWithPromise: odd pairs, no descriptor, a transpose's operands, tiles and bitmaps to move, offsets in the tile store and not,
copy descriptors, nests within the task's bank groups and beyond. -/
theorem witness_copies : (3 : BitVec 6).toNat % 2 = 1 ∧ (2 : BitVec 6).toNat % 2 = 0 ∧ tT.canTrap ∧ (tT.task.tdesc 20).valid = false ∧
    tT.part.variant ≠ 2 ∧ (∃ e < 64, (tT.coreAt 0).deps.get? e = none) ∧
    (let a := tT.task.tdesc 10
     let b := tT.task.tdesc 11
     a.valid = true ∧ b.valid = true ∧ a.d = b.d ∧ a.rows = b.cols ∧ a.cols = b.rows ∧ a.ty = b.ty ∧ b.offBad 0 = false) ∧
    (let a := tT.task.tdesc 9
     a.valid = true ∧ a.men = true ∧ tT.task.ownsMask a.bitmap.1 a.bitmap.2 = true) ∧
    (tT.task.tdesc 1).offBad 0 = false ∧ (tT.task.tdesc 1).ty = 1 ∧ (tT.task.tdesc 3).offBad (BitVec.ofNat 64 (2 ^ 62 + 0xFFFF * 2 ^ 24)) = true ∧
    (let c := cdesc ((List.range 8).map fun k => tT.task.tile.d.get 0 (8 * 1 + k))
     c.rsv = false ∧ c.total < 2 ^ 32 ∧ tT.task.nestOut c c.s 0x1000 = none ∧ tT.task.nestOut c c.t 64 = none ∧
     tT.task.nestOut c c.s 0x1FFFF0 ≠ none) := by
  refine ⟨by decide, by decide, canTrap_of (by decide), by decide, by decide, ⟨0, by decide, by decide⟩, ?_⟩
  decide +kernel

/-- OptimiserAndTileRegisterResults: tiles of one shape for the optimiser, registers of a lane form, a free census. -/
theorem witness_optimiser :
    (let d := tT.task.tdesc 12
     let a := tT.task.tdesc 13
     d.valid = true ∧ (∀ r ∈ d.ranges, tT.task.ownsTile r.1 r.2 = true) ∧ d.d = 1 ∧ d.ty = 2 ∧ a.valid = true ∧
     (∀ r ∈ a.ranges, tT.task.ownsTile r.1 r.2 = true) ∧ a.d = 1 ∧ a.rows = d.rows ∧ a.cols = d.cols ∧ a.ty = 2) ∧
    (∃ e < 64, (tT.coreAt 0).deps.get? e = none) ∧ tT.allocated [3, 1, 2] ∧ (⟨2, false⟩ : Src).reg.toNat % 2 = 0 ∧
    tT.task.csr.noisectl.f 1 0 = 0 :=
  ⟨by decide +kernel, ⟨0, by decide, by decide⟩, allocated_of (by decide), by decide, by decide⟩

/-- OptimiserAndTileRegisterResults: an odd pair, a word without VALID, a well-formed descriptor, no task posted before, accumulators of the task and beyond. -/
theorem witness_tileRegisters : (3 : BitVec 6).toNat % 2 = 1 ∧ (dsc 32 32 2 0 2 0x4000).getLsbD 63 = true ∧ tT.canTrap ∧ (0x1000 : Word).getLsbD 63 = false ∧
    (let d := Machine.tdesc (tT.task.gReg 6) (tT.task.gReg 7)
     (tT.task.gReg 6).getLsbD 63 = true ∧ d.rsv = false ∧ d.ty = 2 ∧ d.base % 32 = 0 ∧ d.sc * d.w % 8 = 0 ∧ d.rows * d.w % 8 = 0 ∧ d.rb ≤ 32 * d.pitch ∧
     (∀ r ∈ d.ranges, tT.task.ownsTile r.1 r.2 = true) ∧ d.oen = false ∧ d.men = false) ∧
    (tT.coreAt 0).blocked tT.task 0 4 ([], [2]) = false ∧ (tT.coreAt 0).blocked tT.task 0 4 ([64 + 7], []) = false ∧
    (7 : BitVec 5).toNat < 4 * popcount 8 tT.task.place.groups ∧ ¬ (8 : BitVec 5).toNat < 4 * popcount 8 tT.task.place.groups :=
  ⟨by decide, by decide, canTrap_of (by decide), by decide, by decide +kernel, by decide, by decide, by decide, by decide⟩
/-! ### Witnesses: contexts, registers, accesses that wait, migration -/

/-- The context in a state, with a task of its own beside none, and changed by f. -/
def tC (st : CtxStat) (f : Ctx → Ctx := id) (g : State → State := id) : State :=
  g { tS with cycle := 1000, ctxs := [(1, f { tCtx with stat := st, gen := 5, frctl := 0x123 })] }

/-- ContextEventsMoveContexts: each state of R83 with a command admitted and not, quiet and not, drained and not. -/
theorem witness_contexts : (tC .free).modstat.phase ≠ 5 ∧ (tC .free).modstat.phase ≠ 1 ∧ ((tC .free).ctxAt 1).pending = false ∧
    ((tC .active fun c => { c with pending := true }).ctxAt 1).pending = true ∧ ((tC .building).ctxAt 1).stat = .building ∧
    ((tC .stopped).ctxAt 1).stat = .stopped ∧ ((tC .error).ctxAt 1).stat = .error ∧ (tC .stopped).held = [] ∧
    (∀ cx ∈ (tC .stopped).cores, cx.2.side = []) ∧ (∀ nc ∈ (tC .stopped).ctxs, nc.2.recs = []) ∧
    ((tC .quiescing).ctxAt 1).stat = .quiescing ∧ ¬ (∀ kt ∈ (tC .quiescing).tasks, kt.2.place.ctx = 1 → kt.1 < 16384 → kt.2.stat = .held) ∧
    (let s := tC .quiescing id fun s => { s with tasks := [(0, { tTask with stat := .held })] }
     (∀ kt ∈ s.tasks, kt.2.place.ctx = 1 → kt.1 < 16384 → kt.2.stat = .held ∧ kt.2.saving = false) ∧
     s.cores = [] ∧ s.copiesLeft 1 = false ∧ s.collsHeld 1 = true ∧ (s.ctxAt 1).toError = false) ∧
    ((tC .quiescing fun c => { c with toError := true }).ctxAt 1).toError = true ∧ ((tC .draining).ctxAt 1).stat = .draining ∧
    (tC .draining).e2eSrc = [] ∧ ((tC .draining).ctxAt 1).leasebind = [] ∧
    (let s := tC .draining (fun c => { c with leasebind := [(0, BitVec.ofNat 64 (2 ^ 63 + 3))] })
       fun s => { s with borrowers := [(3, { Borrower.zero with stat := .evicting, rel := true })] }
     (s.borrower (Word.f (BitVec.ofNat 64 (2 ^ 63 + 3)) 15 0)).stat = .evicting ∧ (s.borrower 3).rel = true) ∧
    tTask.stat ∉ [TStat.free, .ending, .offcore, .held] ∧ tTask.pre = none ∧
    ({ tC .active with modstat := { tS.modstat with phase := 5 } } : State).modstat.phase = 5 := by
  decide +kernel

/-- RegisterWritesAndHostAccesses: contexts that take a configuration write and that do not, a link that is fitted, a thread that is enabled and not,
a migration that is not busy, free lease entries, each command of CTXCMD, and the module states. -/
theorem witness_registers : ((tC .building).ctxAt 1).stat = .building ∧ ((tC .active).ctxAt 1).stat ≠ .free ∧ ((tC .active).ctxAt 1).stat ≠ .draining ∧
    tS.part.fitted 0 = true ∧ 8 ≤ tS.part.memch ∧ 0 < 3 % 8 ∧ (tS.rtAt 0 3).stat = 0 ∧ (tS.rtAt 0 3).ctl.b 63 = false ∧
    (let s : State := { tS with rts := [(3, { RetrThread.zero with ctl := 0x8000000000000001, stat := 1 })] }
     (s.rtAt 0 3).ctl.b 63 = true ∧ (s.rtAt 0 3).stat ≠ 0) ∧
    (tS.migAt 0).busy = false ∧ (tS.lender 255).stat = .free ∧ (tS.borrower 1023).stat = .free ∧ Word.f 1 7 0 = 1 ∧ Word.f 4 7 0 = 4 ∧
    4 < Word.f 5 7 0 ∧ Word.b 0x100 8 = true ∧ Word.b 1 0 = true ∧ tS.modstat.phase ≠ 1 ∧
    ({ tS with modstat := { tS.modstat with phase := 1 } } : State).modstat.phase = 1 := by decide +kernel

/-- A load of eight bytes that waits, and the result that awaits it. -/
def tHeld (why : HoldWhy) (va : Word) (ia : Nat) : Held :=
  ⟨70, .core 0 0 5, 1, .load va 8 false, why, ia, 0, [], false, 0, 0x1000, [(0, 0, ia, 8)], [], false, false, []⟩

def tH (h : Held) (s : State := tS) : State := { s with
  nextId := 100, cycle := 500, held := [h]
  tasks := [(0, { tTask with inflight := [⟨.g 3, .await 70, 40, 2, 0x1000, false⟩], shadow := [⟨.g 9, .await 70, 2, 1, 0xFE0, false⟩] })] }

/-- Whether a state's one held access is a load that its task awaits, with nothing else under way. -/
def loadWaits (s : State) (h : Held) : Bool :=
  let T := s.taskAt 0 0
  s.held == [h] && T.stat != .free && h.unit == .core 0 0 T.place.kernel && !h.lat2 && s.borrowers.isEmpty
    && s.cores.all (fun cx => cx.2.side.isEmpty && cx.2.fences.isEmpty) && s.ctxs.all (fun nc => nc.2.recs.isEmpty) && (s.sentBy h.unit).isEmpty
    && T.fetchHold != some h.id && h.bad.isEmpty && h.taint.isEmpty && s.barq.isEmpty && s.repWait.isEmpty
    && T.inflight.all fun p => p.dest != .jump true && p.dest != .jump false

/-- HeldAccessesGoOn: a load held for order, for a migration, by a fault and for a reply, its bytes here and at another module. -/
theorem witness_heldLoads : loadWaits (tH (tHeld .side 0x1000 0x1000)) (tHeld .side 0x1000 0x1000) = true ∧
    ((tH (tHeld .side 0x1000 0x1000)).looksOf (tHeld .side 0x1000 0x1000) 0x1000 8 .read 0).map (fun b => match b.look with | .mem l _ => some l | _ => none) =
      (ringAt 0x1000 8).map some ∧
    (tHeld .migration 0x1000 0x1000).why = .migration ∧ (tHeld .flush 0x1000 0x1000).ctx = (1 : BitVec 4).toNat ∧ tS.page.ptinv = [] ∧
    (let bor := leaf 9 5 (4 * 2 ^ 30) + 9 * 2 ^ 18
     let s : State := { tD [(0x12200, bor)] with podmap := [(0, 0xFFFF)] }
     let h := tHeld .reply (BitVec.ofNat 64 (2 ^ 40 + 16)) (2 ^ 36 + 16)
     loadWaits (tH h s) h = true ∧ h.got = [] ∧ (tH h s).e2eSrc = [] ∧
     ((tH h s).looksOf h (BitVec.ofNat 64 (2 ^ 40 + 16)) 8 .read 0).all (fun b => match b.look with | .remote _ _ _ => true | _ => false) = true) := by
  decide +kernel

/-- HeldAccessesGoOn: PGABORT over the held bytes and beside them, a write in a side log, invalidations with and without room, none and some due. -/
theorem witness_invalidations : (let v : Word := BitVec.ofNat 64 (2 ^ 60 + 0x1000 + 12 * 64)
      v.f 63 60 = 1 ∧ 12 ≤ v.f 11 6 ∧ 0x1003 < v.f 51 12 * 4096 / 2 ^ v.f 11 6 * 2 ^ v.f 11 6 + 2 ^ v.f 11 6 ∧
      v.f 51 12 * 4096 / 2 ^ v.f 11 6 * 2 ^ v.f 11 6 < 0x1003 + 8) ∧
    ¬ 0x3000 < Word.f (BitVec.ofNat 64 (2 ^ 60 + 0x1000 + 12 * 64)) 51 12 * 4096 + 2 ^ 12 ∧
    (let e : SideEnt := ⟨0, 3, 1, .core 0 0 5, 0x1000, 0, 0x1004, [1, 2, 0, 4], 2, false, true, false, 0, []⟩
     let s : State := { tS with cores := [(0, { CoreSt.zero with side := [e] })] }
     (s.coreAt 0).side = [e] ∧ e.quiet = true ∧ e.add = false ∧ e.disc = 0 ∧ e.unit.logKey = 0 ∧ s.held = [] ∧ s.sentBy e.unit = [] ∧
     (ringAt 0x1004 4).length = e.bytes.length ∧ lies (fun i => s.lookAt e.unit e.module (e.ia + i) .write) (ringAt 0x1004 4) = true) ∧
    (List.replicate 15 (0 : Word)).length < 16 ∧ 16 ≤ (List.replicate 16 (0 : Word)).length ∧ tS.page.ptinv = [] ∧
    tS.modstat.phase ≠ 1 ∧ tS.modstat.phase ≠ 5 := by
  decide +kernel

/-- A page of 16 KiB at IA 2^36, its four leaves at 0x14000. -/
def tLeaf (st : Nat) : Nat := leaf 1 st 0x40000
def tM (st : Nat) (m : Migration) (last : Nat := tLeaf st) : State := { tD [(0x12200, 2 ^ 63 + 2 ^ 62 + 0x13000), (0x13000, 2 ^ 63 + 2 ^ 62 + 0x14000),
  (0x14000, tLeaf st), (0x14008, tLeaf st), (0x14010, tLeaf st), (0x14018, last)] with migs := [(0, m), (1, m)] }
def tMig : Migration := { Migration.zero with src := BitVec.ofNat 64 (2 ^ 36 + 0x1000), dst := 0x80000 }

/-- MigrationMovesPages, MIGGO: a busy retriever and one that the part lacks; a page with this home in each kind of state; leaves alike and not. -/
theorem witness_migGo : ({ tMig with busy := true } : Migration).busy = true ∧ ({ tS.part with variant := 2 } : Part).retrievers ≤ (15 : BitVec 4).toNat ∧
    ((tM 0 tMig).migAt 1).busy = false ∧ (1 : BitVec 4).toNat < tS.part.retrievers ∧
    (tM 0 tMig).pageHome (2 ^ 36 + 0x1000) (1 : BitVec 4).toNat = true ∧
    (tM 0 tMig).walk (2 ^ 36 + 0x1000) = .leaf (BitVec.ofNat 64 (tLeaf 0)) 0x14008 ∧ Word.f (BitVec.ofNat 64 (tLeaf 2)) 61 59 = 2 ∧
    Word.f (BitVec.ofNat 64 (tLeaf 3)) 61 59 = 3 ∧
    (∀ k ∈ leafCopies (BitVec.ofNat 64 (tLeaf 0)) 0x14008 (2 ^ 36 + 0x1000), (tM 0 tMig).mem.dramWord k = BitVec.ofNat 64 (tLeaf 0)) ∧
    ∃ k ∈ leafCopies (BitVec.ofNat 64 (tLeaf 0)) 0x14008 (2 ^ 36 + 0x1000), (tM 0 tMig (tLeaf 4)).mem.dramWord k ≠ BitVec.ofNat 64 (tLeaf 0) := by
  decide +kernel

/-- MigrationMovesPages, the end: a plain migration between places of LPDDR6 whose leaves lie beside the new place. -/
theorem witness_migEnd : (let d : Word := BitVec.ofNat 64 (tLeaf 1)
     let m : Migration := { tMig with busy := true, leaf := d, at_ := 0x14000 }
     let s := tM 1 m
     let olds := leafCopies d (0x14000 + 8 * ((2 ^ 36 + 0x1000) % leafSize d / leafSpan d)) (2 ^ 36 + 0x1000)
     (s.migAt 1).busy = true ∧ m.discard = false ∧ m.dst.b 63 = false ∧ m.dst.b 62 = false ∧ d.b 52 = false ∧ d.b 8 = false ∧ s.mem.poison = [] ∧
     (∀ k ∈ olds, s.mem.dramWord k = d) ∧ (∀ k ∈ olds, k + 8 ≤ 0x80000 ∨ 0x80000 + leafSize d ≤ k) ∧ s.held = [] ∧
     (∀ cx ∈ s.cores, cx.2.side = []) ∧ s.tgtWait = [] ∧ s.repWait = [] ∧ ∀ nc ∈ s.ctxs, nc.2.recs = []) := by decide +kernel
/-! ### Witnesses: launches, tile tasks, barriers, queues, graphs -/

/-- A geometry word and a launch record with it. -/
def geo (level tile vreg x y w h : Nat) : Word :=
  BitVec.ofNat 64 (level * 2 ^ 62 + tile * 2 ^ 52 + vreg * 2 ^ 47 + x * 2 ^ 39 + y * 2 ^ 35 + w * 2 ^ 32 + h * 2 ^ 29)
def tRec (g : Word) : LaunchRec := [0x3000, g, 0, 0] ++ (List.range 15).map (fun i => BitVec.ofNat 64 (i * 17 + 1)) ++ [0]
def tReq (g : Word) (park : Bool := false) : LaunchReq := ⟨0, 0, 5, 1, 1, tRec g, 0x1000, park, 70, 1, 0x1000, 90, false⟩
def tL (ls : List LaunchReq) (f : State → State := id) : State := f { tS with
  launches := ls, cycle := 100, nextId := 200, tasks := [(0, { tTask with inflight := [⟨.q 3, .await 70, 30, 1, 0x1000, false⟩] })] }
def tKer (st : KStat) (left : Nat) (node : Option (Nat × Nat) := none) : Kernel := ⟨1, tRec (geo 2 2 3 0 0 1 0), st, left, 0, node, 90⟩

/-- LaunchEventsPlaceAndRetireKernels, the record: due, refused by its check and not, with room in its level and without, parked and not. -/
theorem witness_launchRecords : (let s := tL [tReq (geo 2 2 3 0 0 1 0)]
     s.launches = tReq (geo 2 2 3 0 0 1 0) :: [] ∧ (s.ctxAt 1).stat = .active ∧ (tReq (geo 2 2 3 0 0 1 0)).at_ ≤ s.cycle.toNat ∧ s.offs = [] ∧
     (s.taskAt 0 0).stat ≠ .free ∧ (s.taskAt 0 0).place.kernel = 5 ∧ (s.taskAt 0 0).wait = .none ∧ (s.taskAt 0 0).kept = .none ∧
     checkRec s.part (s.ctxAt 1) (tRec (geo 2 2 3 0 0 1 0)) 0x1000 2 = none ∧
     checkRec s.part (s.ctxAt 1) (tRec (geo 3 2 3 0 0 1 0)) 0x1000 2 ≠ none ∧ s.kernels = [] ∧ 0 < Nat.min 256 ((s.ctxAt 1).quota.f 40 32) ∧
     s.parked = []) ∧
    ¬ (1 < Nat.min 256 (({ tCtx with quota := BitVec.ofNat 64 (2 ^ 32) } : Ctx).quota.f 40 32)) ∧ (tReq 0 true).park = true ∧
    (tReq 0 true).ctx = 1 ∧ (tReq 0 true).level = 1 ∧ tS.launches = [] := by decide +kernel

/-- LaunchEventsPlaceAndRetireKernels, placement and the end: the kernel taken next, one that is not, tasks that end, the last of a kernel with a node and
without, and one before it. -/
theorem witness_placement : (let s : State := { tL [] with kernels := [(9, tKer .posted 1)], tasks := [] }
     s.nextKernel = some 9 ∧ s.kernels.get? 9 = some (tKer .posted 1) ∧ s.parked = [] ∧ tS.nextKernel ≠ some 9 ∧
     s.claimOn 0 1 2 2 3 = some ⟨0, true, 3, 7⟩ ∧ 0 ∈ geomCores (geo 2 2 3 0 0 1 0)) ∧
    (let s : State := { tS with tasks := [(3, { tTask with stat := .ending, place := { tTask.place with kernel := 9 } })], kernels := [(9, tKer .placed 2)] }
     (s.taskAt 0 3).stat = .ending ∧ (s.coreAt 0).deps = [] ∧ (s.taskAt 0 3).inflight = [] ∧ s.unitBusy (.core 0 3 9) = false ∧
     (s.taskAt 0 3).strays = [] ∧ (s.coreAt 0).rawSt = [] ∧ s.kernels.get? 9 = some (tKer .placed 2)) ∧
    (tKer .placed 2).rec_.getD 2 0 = 0 ∧ 1 < (tKer .placed 2).left ∧ (tKer .placed 1).left ≤ 1 ∧ (tKer .placed 1).node = none ∧
    (tKer .placed 1 (some (3, 4))).node ≠ none ∧ (tS.taskAt 0 3).stat ≠ .ending := by decide +kernel

/-- A task in entry 0 of core 0, over the tiles of tT; accumulator 1 with an automatic exponent. -/
def tTile (ins : Instr) (ops : List Word) (st : DepStat) (done total : Nat) (buf : List (Byte × Bool) := []) : Dep :=
  ⟨0, 1, 5, 7, 0, ins, ops, [], [], 100, 70, st, 0, done, total, buf, [], none⟩
def tQ (d : Dep) (cyc : Word := 500) : State := { tS with
  cycle := cyc
  tasks := [(0, { tTask with tile := { tTiles with ze := [(1, BitVec.ofNat 64 (2 ^ 61))] } })]
  cores := [(0, { CoreSt.zero with deps := [(0, d)], depSeq := 8 })] }

/-- TileEventsRunTasks: entries that their engine takes next and not, products and zeroings that start and end, a copy that starts. -/
theorem witness_tileEvents : (let d := tTile (.tmma 1 1 2) [] .waiting 0 0
     let s := tQ d
     let T := s.taskAt 0 0
     (s.coreAt 0).deps.get? 0 = some d ∧ (s.nextDep 0 (engineOf d.ins)).map (·.1) = some 0 ∧ (T.tdesc 1).d = 1 ∧ (T.tdesc 1).offBad 0 = false ∧
     (s.coreAt 0).tilePoison (T.tdesc 1) = none ∧ (T.tdesc 2).offBad 0 = false ∧ (T.tdesc 1).rows = 32 ∧ (T.tdesc 2).rows = (T.tdesc 1).cols ∧
     (T.tdesc 2).cols = 32 ∧ (T.tdesc 2).oen = false ∧ colv (T.tile.e.get 0 1) = false ∧ rowv (T.tile.e.get 0 2) = false ∧
     autoBit (T.tile.ze.get 0 1) = true ∧ -128 ≤ expOf (T.tile.e.get 0 1) + expOf (T.tile.e.get 0 2)) ∧
    ((tQ (tTile (.tmma 1 1 2) [] .running 0 44)).nextDep 0 .matrix).map (·.1) ≠ some 0 ∧
    (tTile (.tmma 1 1 2) [] .running 44 44).total ≤ (tTile (.tmma 1 1 2) [] .running 44 44).done ∧
    ((tQ (tTile (.tzero 1) [] .waiting 0 0)).nextDep 0 (engineOf (.tzero 1))).map (·.1) = some 0 ∧
    (let s := tQ (tTile (.tld 1 1 2) [0x1000, 0] .waiting 0 4096)
     isCopyIns (.tld 1 1 2) = true ∧ startFail (copyStart (s.taskAt 0 0) (.tld 1 1 2)) = none ∧ (s.nextDep 0 (engineOf (.tld 1 1 2))).map (·.1) = some 0) := by
  decide +kernel

/-- TileEventsRunTasks, a TLD: a burst to read, one to write, the end before its promise and at it; and the waits that end. -/
theorem witness_tileCopies : (let d := tTile (.tld 1 1 2) [0x1000, 0] .running 0 4096
     let s := tQ d
     let k := copyRun Piece.src (s.taskAt 0 0) (s.coreAt 0) d 256 0
     d.stat = .running ∧ d.hold = none ∧ d.done < d.total ∧ 0 < ((s.taskAt 0 0).tdesc 1).rb ∧ d.buf = [] ∧ d.parts = [] ∧
     (ringAt 0x1000 k).length = k ∧ s.sideOf (.copy 0 0 7) = [] ∧ s.sentBy (.copy 0 0 7) = [] ∧ s.barq = [] ∧ s.held = [] ∧
     lies (fun i => (s.lookU (.copy 0 0 7) 1 (0x1000 + .ofNat 64 i) .decoded).1) (ringAt 0x1000 k) = true) ∧
    (let d := tTile (.tld 1 1 2) [0x1000, 0] .running 0 4096 (List.replicate 256 (7, false))
     d.done + ((tQ d).taskAt 0 0 |>.tdesc 1).rb < d.total ∧ ((tQ d).taskAt 0 0 |>.tdesc 1).rb ≤ d.buf.length ∧ ∀ b ∈ d.buf, b.2 = false) ∧
    (let d := tTile (.tld 1 1 2) [0x1000, 0] .running 4096 4096
     d.total ≤ d.done ∧ (tQ d).e2eSrc = [] ∧ (50 : Word).toNat + 1 < d.promise.toNat ∧ d.promise.toNat ≤ (tQ d).cycle.toNat + 1) ∧
    (let me : Task := { tTask with stat := .sleeping, wait := .copy 0 70 400 }
     me.wait = .copy 0 70 400 ∧ (400 : Word).toNat ≤ (500 : Word).toNat ∧ me.trap.cause.getLsbD 63 = false) ∧
    (let me : Task := { tTask with stat := .sleeping, wait := .reread 9 0 5 0x1000 0 false }
     let s : State := { tS with tasks := [(0, me)] }
     (s.taskAt 0 0).wait = .reread 9 0 5 0x1000 0 false ∧ s.held = [] ∧ s.sideOf (.core 0 0 5) = [] ∧ s.sentBy (.core 0 0 5) = [] ∧
     lies (fun i => (s.lookU (.core 0 0 5) 1 (0x1000 + .ofNat 64 i) .read).1) (ringAt 0x1000 8) = true ∧
     (BitVec.ofNat 64 (s.bytesAt (ringAt 0x1000 8)) : Word) = 0) := by
  decide +kernel

/-- An arrival of task 0 at entry 3, and a member that sleeps there. -/
def tArr : Arrival := ⟨0, 3, 0, 0, 5, 0, some 70, false, 60, none⟩
def tBE (b : Barrier) : State := { tS with
  cycle := 100, arrivals := [tArr], cores := [(0, { CoreSt.zero with bars := [(3, b), (4, tBar .armed)] })]
  tasks := [(0, { tTask with inflight := [⟨.g 3, .await 70, 30, 1, 0x1000, false⟩] }), (1, { tTask with stat := .sleeping, wait := .barrier 0 3 7 })] }

/-- BarrierEventsCountArrivals: none, one that its entry refuses, one at a broken entry, one before the last, the last; an entry that breaks,
one that does not, one that is busy, and a member that waits. -/
theorem witness_arrivals : tS.arrivals = [] ∧ (tBE (tBar .armed)).arrivals = tArr :: [] ∧ (tBE (tBar .armed)).arrivalFree tArr = true ∧
    tArr.reached = none ∧ tArr.id = some 70 ∧ ((tBE (tBar .armed)).taskAt 0 0).stat ≠ .free ∧ ((tBE (tBar .armed)).taskAt 0 0).place.kernel = tArr.kernel ∧
    ((tBE (tBar .armed)).taskAt 0 0).kept = .none ∧ ((tBE (tBar .armed)).taskAt 0 0).wait = .none ∧ (tBar .armed).busy ≠ some 100 ∧
    (tBar .armed).stat ≠ .idle ∧ (tBar .armed).owner = tArr.kernel ∧ (tBar .armed).group = tArr.group ∧ ({ tBar .armed with owner := 9 } : Barrier).owner ≠ tArr.kernel ∧
    (tBar .broken).stat = .broken ∧ ({ tBar .armed with count := 2, arrived := 0 } : Barrier).arrived + 1 ≠ 2 ∧
    ({ tBar .armed with count := 2, arrived := 1 } : Barrier).arrived + 1 = 2 ∧
    (tBE (tBar .waiting)).breaks 0 3 3 = false ∧
    ({ tBE { tBar .waiting with bound := 1, since := 0 } with
       cycle := 0x7FFFFFFF, tasks := [(2, { tTask with offAt := some 0 })] } : State).breaks 0 3 3 = true ∧ (tBar .waiting).busy ≠ some 100 ∧
    ((tBE (tBar .waiting)).tasks.get .empty 1).wait = .barrier 0 3 7 := by
  decide +kernel

/-! Queues. -/
def qz (st : QStat) (g : Option Graph := none) : HostQueue := ⟨0x1000, 0x83, 2, 5, st, 3, 4, false, false, false, false, g⟩
def ent (nn : Nat) (done : Nat := 0) : List Word := [0x2000, BitVec.ofNat 64 nn, BitVec.ofNat 64 done, 0]
def nd (k last a b c : Nat) : List Word := [BitVec.ofNat 64 (k * 2 ^ 60 + last), BitVec.ofNat 64 a, BitVec.ofNat 64 b, BitVec.ofNat 64 c, 0, 0, 0, 0]
def gs (run : Nat) (e : List Word) (ns : List GNode := []) (st lo : Bool := false) : Graph := ⟨run, e, ns, st, lo, none⟩
def sQu (x : HostQueue) (f : State → State := id) : State := f { tS with nextId := 300, queues := [(64 + 3, x)], cycle := 9000 }

/-- QueueCommandsMoveQueues: every state of a queue, a context in ERROR and one FREE, module states that admit and not, doorbells within the ring
and beyond, and a graph at each point of its start. -/
theorem witness_queues : ((sQu (qz .disabled)).queueAt 1 3).stat = .disabled ∧ 1 ≤ (qz .disabled).cfg.f 3 0 ∧ (qz .disabled).cfg.f 3 0 ≤ 12 ∧
    12 < Word.f 0x8D 3 0 ∧ (qz .halted).stat = .halted ∧ (qz .running).stat = .running ∧ (qz .idle).stat = .idle ∧ (qz .halting).stat = .halting ∧
    (tS.ctxAt 1).stat = .active ∧ tS.modstat.phase ≠ 1 ∧ tS.modstat.phase ≠ 5 ∧ Word.f 3 63 12 = 0 ∧ Word.f 3 11 0 < 2 ^ 3 ∧ 2 ^ 3 ≤ Word.f 8 11 0 ∧
    (qz .idle).head ≠ (qz .idle).tail ∧ (qz .idle).graph = none ∧ (qz .idle (some (gs 7 []))).graph = some (Graph.start 7) ∧
    unitClear (sQu (qz .idle (some (gs 7 [])))) ((sQu (qz .idle)).schedUnit 1 3 2047) (ringAt 0x1040 32) = true ∧ (ringAt 0x1040 32).Nodup ∧
    lies (fun i => ((sQu (qz .idle (some (gs 7 [])))).lookU ((sQu (qz .idle)).schedUnit 1 3 2047) 1 (0x1000 + .ofNat 64 (32 * 2) + .ofNat 64 i) .read).1) (ringAt 0x1040 32) = true ∧
    (gs 7 (ent 2)).entry ≠ [] ∧ (sQu (qz .idle (some (gs 7 (ent 2))))).nextStored = some (64 + 3) ∧
    (sQu (qz .idle (some (gs 7 (ent 2))))).storeUsed + (gs 7 (ent 2)).nnodes ≤ 16384 ∧ tS.nextStored ≠ some (64 + 3) ∧
    (gs 7 (ent 2) [] true).nodes.length < (gs 7 (ent 2) [] true).nnodes ∧
    (gs 7 (ent 2) [.new (nd 1 0 0x100 0x200 8), .new (nd 6 0 0 0 0)] true).firstBad = none ∧
    (gs 7 (ent 2) [.new (nd 1 0 0x100 0x200 8), .new (nd 6 0 0 0 1)] true).firstBad = some 1 := by
  decide +kernel

def wst (n : List Word) (st : NStat) (f : GNode → GNode := id) : GNode := f { GNode.new n with stat := st }
def nq (ns : List GNode) (f : State → State := id) : State := sQu (qz .running (some (gs 7 (ent 3) ns true true))) f
def eN : GNode := .new (nd 6 0 0 0 0)
/-- An end node after node 0. -/
def eP : GNode := .new (BitVec.ofNat 64 (6 * 2 ^ 60 + 2 ^ 58) :: (nd 6 0 0 0 0).drop 1)
def fillW (a : Nat) (ws : List Word) : Tab Byte := Tab.setMany 0 [] a (ws.flatMap fun w => toBytes 8 w.toNat)

/-- GraphNodesRun, a kernel node: ready, its record with a cause and without; checked, next and not; posted, its kernel retired. -/
theorem witness_kernelNode :
    (let s := nq [wst (nd 0 0 0x1000 0 0) .idle, eP] fun s => { s with mem := { s.mem with ring := fillW 0x1000 (tRec (geo 0 0 0 0 0 0 0)) } }
     let g := gs 7 (ent 3) [wst (nd 0 0 0x1000 0 0) .idle, eP] true true
     (s.queueAt 1 3).graph = some g ∧ g.loaded = true ∧ (s.queueAt 1 3).stat = .running ∧ s.unitErrs = [] ∧ g.ready 0 = true ∧ g.ready 1 = false ∧
     (s.ctxAt 1).stat = .active ∧ unitClear s (s.schedUnit 1 3 0) (ringAt 0x1000 160) = true ∧
     lies (fun i => (s.lookU (s.schedUnit 1 3 0) 1 (0x1000 + .ofNat 64 i) .read).1) (ringAt 0x1000 160) = true ∧
     checkRec s.part (s.ctxAt 1) (s.wordsAt (ringAt 0x1000 160) 20) 0x1000 0 = none ∧ s.nextNode ≠ some (64 + 3, 1)) ∧
    checkRec tS.part (tS.ctxAt 1) (tRec (geo 3 0 0 0 0 0 0)) 0x1000 0 ≠ none ∧
    (nq [wst (nd 0 0 0x1000 0 0) .checked, eP]).nextNode = some (64 + 3, 0) ∧
    (let s : State := { nq [wst (nd 0 0 0x1000 0 0) .posted fun n => { n with kernel := some 3 }, eP] with kernels := [(3, tKer .retired 0)] }
     s.kernels.get? 3 = some (tKer .retired 0) ∧ (tKer .retired 0).stat = .retired) := by
  decide +kernel

/-- GraphNodesRun, the other kinds: copies that read and that write, signals that store and add, a wait before and after its time, a test that holds and
not, ranges that are done, loops of each form, an end node with a DONE word and without. -/
theorem witness_nodes : (let n := wst (nd 1 0 0x1003 0x2005 20) .busy
     let s := nq [n, eN]
     let cut := transferCut 0x1003 0x2005 20
     n.moved < 20 ∧ n.buf.length < cut.2 ∧ n.hold = none ∧ unitClear s (s.schedUnit 1 3 0) (ringAt 0x1003 20) = true ∧
     (ringAt 0x1003 (Nat.min cut.2 (256 - 0x1003 % 256))).length = Nat.min cut.2 (256 - 0x1003 % 256) ∧
     lies (fun i => (s.lookU (s.schedUnit 1 3 0) 1 (0x1003 + .ofNat 64 i) .read).1) (ringAt 0x1003 20) = true ∧
     cut.2 ≤ (List.replicate 20 ((7 : Byte), false)).length ∧
     lies (fun i => (s.lookU (s.schedUnit 1 3 0) 1 (0x2005 + .ofNat 64 i) .write).1) (ringAt 0x2005 cut.1) = true) ∧
    (nq [wst (nd 2 0 0x1000 0x77 3) .moved, eN]).e2eSrc = [] ∧ Word.b 3 4 = false ∧ Word.b 19 4 = true ∧
    lies (fun i => ((nq []).lookU ((nq []).schedUnit 1 3 0) 1 (0x1000 + .ofNat 64 i) .atomic).1) (ringAt 0x1000 8) = true ∧
    (let n := wst (nd 3 0 0x1000 5 (2 ^ 32)) .busy
     n.firstAt = none ∧ n.readAt + 1400 ≤ (nq []).cycle.toNat ∧ 100 + 1 * 1400 ≤ (nq []).cycle.toNat ∧
     (nq []).cycle.toNat < 8000 + 1 * 1400) ∧
    (BitVec.ofNat 64 ((nq []).bytesAt (ringAt 0x1000 8)) : Word) = 0 ∧ (5 : Word) ≠ 0 ∧
    (let g := gs 7 (ent 3) [wst (nd 4 1 0x1000 0 0) .range, wst (nd 1 0 0 0 8) .done, eN] true true
     Word.f ((wst (nd 4 1 0x1000 0 0) .range).words.getD 0 0) 9 0 < g.nodes.length ∧
     ∀ k, 0 < k → k ≤ 1 → k < g.nodes.length → ∃ m : GNode, g.nodes[k]? = some m ∧ m.stat = .done) ∧
    Word.b 0x100 8 = true ∧ (ent 3).getD 2 0 = 0 ∧ (ent 3 0x1000).getD 2 0 ≠ 0 ∧ 2 + 1 = [eN, eN, eN].length := by
  refine ⟨?_, by decide, by decide, by decide, by decide +kernel, by decide, by decide +kernel, by decide, ⟨by decide, ?_⟩, by decide, by decide, by decide, by decide⟩
  · decide +kernel
  · intro k h0 h1 _
    have : k = 1 := by omega
    subst this
    exact ⟨_, rfl, rfl⟩

/-! Collective commands. -/
def bk (arg : Nat) (cc : Nat := 3) : List Word := ((9 * 2 ^ 48 + cc * 2 ^ 36 + arg) :: [0x1200, 0x1300, 0, 0, 0, 0, 0]).map (BitVec.ofNat 64)
def cK (st : CollStat) : Coll := { Coll.zero with stat := st, ctx := 1, gid := 4, members := [0, 1], cnt := [1, 2, 3, 4] }
def cQ (op st : Nat) (b : List Word) (buf : List Byte := []) : CollCmd := ⟨77, 0, 0, 5, 1, op, 2, 0x1000, 0x1000, st, b, buf, [(0, 0, 0x1000, 64)]⟩
def cS (colls : Tab Coll) (q : CollCmd) (bs : List Byte) : State := tAt { tTask with inflight := [⟨.g 3, .await 77, 40, 2, 0x1000, false⟩] } fun s =>
  { s with colls := colls, collCmds := [q], answers := [(77, .data (bs.map fun b => (b, false)))], cycle := 300
           ctxs := [(1, { tCtx with quota := tCtx.quota ||| 0x4000000000000 })] }
def bkb (ws : List Word) : List Byte := ws.flatMap fun w => toBytes 8 w.toNat

/-- CollCommandResults: a block that no rule of R404 to R408 refuses and ones that each does, an aligned address with a translation, without, and a
misaligned one; a command that waits for its turn, for its block, its vector or its program; and a context in each state. -/
theorem witness_coll : tS.canTrap ∧ (tS.task.gReg 5).toNat % 64 ≠ 0 ∧ (tS.task.gReg 4).toNat % 64 = 0 ∧ tS.iss.core < 1024 ∧
    tS.spans (tS.task.gReg 4) .read (ringAt 0x1000 64) ∧
    (match (tS.lookU (.core 0 0 5) 1 (2 ^ 50) .read).1 with | .xlat c => c != 0x089 | _ => false) = true ∧
    (let s := cS [(3, cK .idle)] (cQ 4 0 []) (bkb (bk 2))
     let q := cQ 4 0 []
     (s.taskAt q.core q.slot).stat ≠ .free ∧ (s.taskAt q.core q.slot).place.kernel = q.kernel ∧
     .await q.id ∈ (s.taskAt q.core q.slot).inflight.map Pend.val ∧ (s.older (.core q.core q.slot q.kernel) q.id).clear = true ∧
     s.answers.get? q.id = some (.data ((bkb (bk 2)).map fun b => (b, false))) ∧ (bkb (bk 2)).length = 64 ∧
     ((bk 2).getD 0 0).f 47 42 = 0 ∧ ((bk 2).getD 0 0).f 35 32 = 0 ∧ ((bk 2).getD 0 0).f 41 36 = 3 ∧ ((bk 2).getD 0 0).f 63 48 = 9 ∧
     (s.collAt 3).stat = .idle ∧ (s.collAt 3).ctx = 1) ∧
    ((cS [] (cQ 4 0 []) []).taskOf 0 0 6).awaits 77 = false ∧ (cK .running).stat = .running ∧ (cK .catching).stat = .catching ∧ (cK .halted).stat = .halted ∧
    ((cS [] (cQ 1 1 (bk 9)) []).mem.rd (.ring 0x1200) = 0 ∧ 256 < 32 * 9 ∧ 32 * 8 ≤ 256) ∧
    (0 : Nat) ∉ (List.range 4096).filter (fun r => (([2] : List Byte).getD (r / 8) 0).getLsbD (r % 8)) ∧
    (0 : Nat) ∈ (List.range 4096).filter (fun r => (([3] : List Byte).getD (r / 8) 0).getLsbD (r % 8)) ∧
    progBad ([[0, 0, 0, 0]].map cstep) = false ∧ progBad ([[0xF000000000000000, 0, 0, 0]].map cstep) = true ∧ progRotor ([[0, 0, 0, 0]].map cstep) = false ∧
    (0 : Nat) ∈ (cK .idle).membersAt 1 ∧ (0 : Nat) ∉ ({ cK .idle with members := [1] } : Coll).membersAt 1 := by
  refine ⟨canTrap_of (by decide +kernel), by decide +kernel, by decide +kernel, by decide +kernel, spans_of (by decide +kernel), by decide +kernel, by decide +kernel,
    by decide +kernel, by decide, by decide, by decide, by decide +kernel, by decide +kernel, by decide +kernel, by decide +kernel, by decide +kernel, by decide +kernel,
    by decide +kernel, by decide +kernel⟩

/-! Traps, pre-emption, watchdogs. -/
def ipn (d : RDest) (v : RVal) (l : Nat := 3) : Pend := ⟨d, v, l, 1, 0xFE0, false⟩
def pT (f : Task → Task) (g : State → State := id) : State := g { tS with
  nextId := 300, cycle := 0x200000, cores := [(0, { CoreSt.zero with lastAt := 0x1FFFFE })]
  tasks := [(0, f { tTask with pc := 0x1020, inflight := [ipn (.g 3) (.ready 7), ipn (.q 2) (.ready 1) 2, ipn (.k 1) (.await 70) 40] }), (1, { tTask with stat := .ready })] }
def lateP : Pend := ipn (.g 5) (.late 0x82 5) 1
def preq (p : Bool) (n : Nat) : PreReq := ⟨p, !p, n⟩

/-- PendingTrapsAreTaken: a task that may take what is pending, with reports, events and a late cause due, asleep, entering, with and without a handler. -/
theorem witness_pending : (let s := pT fun t => { t with reports := [⟨0x82, 5⟩], events := [⟨0x0C1, 5⟩] }
     let T := s.taskAt 0 0
     T.stat = .issuing ∧ s.coreFrozen 0 = false ∧ s.gatedCore 0 = false ∧ T.replay = false ∧ T.entering = false ∧ T.jumpErr = none ∧ T.lateDue = none ∧
     T.inTrap = false ∧ T.hasHandler = true ∧ T.reports = ⟨0x82, 5⟩ :: T.reports.drop 1) ∧
    (let T := (pT fun t => { t with events := [⟨0x120, 0⟩, ⟨0x121, 0⟩] }).taskAt 0 0
     (⟨0x120, 0⟩ : Report) ∈ T.events ∧ (∀ x ∈ T.events, x ≠ ⟨0x120, 0⟩ → 0x120 < x.cause) ∧ T.delay = .no ∧ T.reports = []) ∧
    (let s := pT fun t => { t with inflight := t.inflight ++ [lateP], delay := .taken ⟨0x2000, 2, none⟩ }
     let T := s.taskAt 0 0
     T.inflight.find? (fun q => q.left ≤ 1 && q.isLate) = some lateP ∧ T.inTrap = false ∧ T.hasHandler = true) ∧
    (let T := (pT fun t => { t with woke := true, waitPc := 0x1000, waitFlow := some (⟨0x2000, 1, none⟩, []) }).taskAt 0 0
     T.woke = true ∧ T.waitFlow = some (⟨0x2000, 1, none⟩, []) ∧ ∀ f, T.delay ≠ .taken f) ∧
    ((pT fun t => { t with stat := .sleeping }).taskAt 0 0).stat = .sleeping ∧
    ((pT fun t => { t with entering := true }).taskAt 0 0).entering = true ∧
    ((pT fun t => { t with reports := [⟨0x82, 5⟩], trap := { t.trap with vec := 0 } }).taskAt 0 0).hasHandler = false ∧ (tS.ctxAt 1).stat = .active := by
  refine ⟨by decide +kernel, by decide +kernel, by decide +kernel, ⟨by decide, by decide, ?_⟩, by decide +kernel, by decide +kernel, by decide +kernel, by decide +kernel⟩
  intro f h
  cases h

def saveT (st : TStat) (t : Task) : Task := { t with
  stat := st, inflight := [], saving := true, place := { t.place with groups := 0, vregs := 0 } }
def ring0 (s : State) : State := { s with ctxs := [(1, { tCtx with savebase := BitVec.ofNat 64 (2 ^ 63 + 2 ^ 33) })] }

def saved (n : Nat) : State := pT (fun t => { saveT .held t with saveAt := n }) ring0
/-- Some number of pieces written is all of a save. -/
theorem saved_whole : ∃ n, (savePieces (((saved n).saveRegions 0 0 ((saved n).taskAt 0 0) true).filter regionUsed)).length = ((saved n).taskAt 0 0).saveAt := by
  have h1 (n : Nat) : (saved n).saveRegions 0 0 ((saved n).taskAt 0 0) true = (saved 0).saveRegions 0 0 ((saved 0).taskAt 0 0) true := by
    simp only [State.saveRegions]; rfl
  have h2 (n : Nat) : ((saved n).taskAt 0 0).saveAt = n := rfl
  exact ⟨_, (congrArg (fun r => (savePieces (r.filter regionUsed)).length) (h1 _)).trans (h2 _).symm⟩

/-- PreemptionAndWatchdogs: a request of each age and kind, a task that may take it, one asleep, frozen, saving with and without an area, HELD and ready to go on;
a core at and before the limits of both watchdogs. -/
theorem witness_preempt :
    (let P := (pT id).taskAt 0 0
     P.onCore = true ∧ P.stat ≠ .ending ∧ P.place.ctx = Word.f (BitVec.ofNat 64 (2 ^ 20)) 23 20 ∧ P.pre = none) ∧
    (let s := pT fun t => { t with pre := some (preq false 0x100000) }
     let T := s.taskAt 0 0
     T.pre = some (preq false 0x100000) ∧ s.coreFrozen 0 = false ∧ s.gatedCore 0 = false ∧ (s.coreAt 0).frozen = 0 ∧ T.stat = .issuing ∧ T.wait = .none ∧
     T.entering = false ∧ T.jumpErr = none ∧ T.lateDue = none ∧ T.inTrap = false ∧ T.replay = false ∧ T.reports = [] ∧ T.events = [] ∧ T.delay = .no ∧
     T.loops = [] ∧ s.peekFetch 0 0 = some (List.replicate 16 0) ∧ (decodeBundle false (List.replicate 16 0)).readsLatch = false ∧
     0x100000 + 2 ^ 20 ≤ s.cycle.toNat ∧ s.cycle.toNat < 0x1FFFFF + 2 ^ 20) ∧
    (let s := pT (fun t => { t with pre := some (preq true 0x1FFFFF) }) fun s => { s with cores := [(0, { CoreSt.zero with frozen := 3 })] }
     (s.coreAt 0).frozen ≠ 0) ∧
    (let s := pT (saveT .offcore)
     (s.taskAt 0 0).saving = true ∧ (s.ctxAt 1).savebase.b 63 = false ∧ (s.ctxAt 1).stat = .active ∧ (s.coreAt 0).deps = [] ∧ (s.coreAt 0).rawSt = []) ∧
    (∃ n, let s := saved n
     let T := s.taskAt 0 0
     (s.ctxAt T.place.ctx).savebase.b 63 = true ∧ s.unitErrs = [] ∧ s.sideOf (.save 0 0) = [] ∧ s.e2eSrc = [] ∧ T.saving = true ∧
     (savePieces ((s.saveRegions 0 0 T true).filter regionUsed)).length = T.saveAt) ∧
    (let s := pT fun t => { t with stat := .held, inflight := [], shadow := [ipn (.g 3) (.ready 7)] }
     let T := s.taskAt 0 0
     T.stat = .held ∧ T.saving = false ∧ (s.ctxAt T.place.ctx).stat = .active ∧ (∀ x ∈ T.shadow ++ T.hshadow, (match x.val with | .await _ => false | _ => true) = true) ∧ T.fix = [] ∧
     T.wait = .none ∧ ∀ o ∈ s.offs, ¬ (o.core = 0 ∧ o.slot = 0)) ∧
    (let fz (m f : Nat) (g : Task → Task) : State := pT g fun s => { s with tasks := s.tasks.take 1, cores := [(0, { CoreSt.zero with mono := m, frozen := f })] }
     (fz (2 ^ 24) 0 id).issuerOf 0 = some (0, (pT id).taskAt 0 0) ∧ ((fz (2 ^ 24) 0 id).coreAt 0).mono = 2 ^ 24 ∧
     (∀ x ∈ (fz 0 1400 id).tasksOn 0, x = (0, (pT id).taskAt 0 0)) ∧ Nat.max 1 (((pT id).taskAt 0 0).csr.frzwd.f 7 0) * 1400 ≤ ((fz 0 22400 id).coreAt 0).frozen ∧
     (fz 0 22400 id).held = [] ∧
     ((fz 0 22400 fun t => { t with fetchHold := some 70, trap := { t.trap with cause := BitVec.ofNat 64 (2 ^ 63 + 5) } }).taskAt 0 0).inTrap = true) := by
  refine ⟨by decide +kernel, by decide +kernel, by decide +kernel, by decide +kernel, ?_, by decide +kernel, by decide +kernel⟩
  obtain ⟨n, h⟩ := saved_whole
  have hb : ((saved n).ctxAt ((saved n).taskAt 0 0).place.ctx).savebase = BitVec.ofNat 64 (2 ^ 63 + 2 ^ 33) := rfl
  exact ⟨n, by rw [hb]; decide, rfl, rfl, rfl, rfl, h⟩

/-! Links. -/
def lnk (st : LStat) (f : Link → Link := id) : Link := f { Link.zero with
  stat := st, auto := true, next := 6, healthy := 65535, credits := List.replicate 8 4, owed := [1, 0, 0, 0, 2, 0, 0, 0], since := 100, heardAt := 2000, ackAt := 1000 }
def pkz : Packet := newPkt 5 7 0 (3, 1) .read 64 8 [] none
def sentN (n : Nat) : List (Packet × Bool) := List.replicate n (pkz, true)
def lS (n : Nat) (l : Link) (cyc : Nat := 20000000) (f : State → State := id) : State := f { State.reset with
  links := [(n, l)], cycle := BitVec.ofNat 64 cyc, modstat := { State.reset.modstat with phase := 4 } }
def laneZ (errs : List Nat := []) (failed := false) (bits := 0) (count := 0) (since := 0) : Lane := ⟨failed, false, 0, count, bits, errs, since⟩
/-- Whether the lanes from a on are marked healthy. -/
def allOf (l : Link) (a w : Nat) : Bool := (List.range w).all fun i => l.healthy.testBit (a + i)

/-- LinksTrainAndReplay: a link in each state, with all lanes, a half, a quarter and none healthy, before and after each limit; flits that await an
acknowledgement, codewords that are expected, that come in disorder, with 15 errors and more; the eighth and the ninth replay; a rotor's link. -/
theorem witness_links : (lS 3 (lnk .down)).modstat.phase ≠ 1 ∧ (lS 3 (lnk .down)).modstat.phase ≠ 5 ∧ State.reset.part.fitted 3 = true ∧
    ((lS 3 (lnk .training) 1000).linkAt 3).stat = .training ∧ ((lS 3 (lnk .training) 1000).linkAt 3).queue = [] ∧
    (∀ i, 0 ≤ i → i < 16 → (0xFFFF : BitVec 16).getLsbD i = true ∧ ((lnk .training).lanes.get .zero i).failed = false) ∧
    (∀ i, 8 ≤ i → i < 16 → (0xFF00 : BitVec 16).getLsbD i = true) ∧ (0xFF00 : BitVec 16).getLsbD 0 = false ∧
    (∀ i, 8 ≤ i → i < 12 → (0x0F00 : BitVec 16).getLsbD i = true) ∧ (0x0F00 : BitVec 16).getLsbD 12 = false ∧ (0 : BitVec 16).getLsbD 4 = false ∧
    100 + 14000000 ≤ (lS 3 (lnk .training)).cycle.toNat ∧ allOf (lnk .active16) 8 4 = true ∧
    allOf (lnk .active16 fun l => { l with healthy := 0xF0 }) 0 4 = false ∧
    (let l := lnk .active16 fun l => { l with stopped := true, healthy := 0xFF0F, sent := sentN 4 }
     l.queue = [] ∧ l.waiting = [] ∧ allOf l 0 8 = false ∧ allOf l 8 8 = true ∧ l.sent ≠ [] ∧ l.tries < 8) ∧
    (let l := lnk .active16 fun l => { l with lanes := [(5, laneZ [] false (2 ^ 32 + 7) (2 ^ 32 - 1))] }
     let x := l.lanes.get .zero 5
     2 ^ 32 ≤ x.bits ∧ State.reset.linkcfg.f 31 0 < Nat.min (2 ^ 32 - 1) (x.count + (0 : BitVec 32).toNat) ∧ l.auto = true ∧ l.uses 5 = true ∧ 5 ∉ l.waiting) ∧
    (let l := lnk .retrain fun l => { l with left := .active16, rlane := 2, waiting := [9, 3] }
     (lS 3 l 3000).cycle.toNat < l.since + 140000 ∧ 3 ∈ l.waiting ∧ (∀ i ∈ l.waiting, 3 ≤ i) ∧ l.rlane < 16 ∧ allOf l 4 4 = true) ∧
    (let l := lnk .active8 fun l => { l with group := 1, lanes := [(5, laneZ [] true 0 0 10)] }
     (∀ i < 16, (l.lanes.get .zero i).since + 14000000 ≤ (lS 3 l).cycle.toNat) ∧ allOf l 0 16 = true ∧ (l.lanes.get .zero 5).failed = true) ∧
    (0 : BitVec 32).toNat * 2 ^ 16 ≤ State.reset.linkcfg.f 31 0 ∧ ¬ ((70000 : BitVec 32).toNat * 2 ^ 16 ≤ State.reset.linkcfg.f 31 0) ∧
    15 < (List.range 16).length ∧ 5 ≠ (lnk .active16).accept ∧
    (let l := lnk .active16 fun l => { l with sent := sentN 4 }
     l.next < 4096 ∧ l.sent.length ≤ 512 ∧ 0 < 2 ∧ 2 ≤ l.sent.length ∧ (3 + 1 + (l.sent.length - 2)) % 4096 = l.next ∧
     (1 + 1 + l.sent.length) % 4096 = l.next ∧ ((2 : BitVec 12).toNat + l.sent.length) % 4096 = l.next ∧
     l.ackAt + 2800 ≤ (lS 3 l).cycle.toNat ∧ l.heardAt + 1400 ≤ (lS 3 l).cycle.toNat) ∧
    (∀ i < 16, (((lnk .active16).lanes.get .zero i).errs.foldl (· + ·) 0) + ([1, 2, 5] : List Nat).length ≤ 15) ∧
    15 < ((([14, 0, 1] : List Nat) ++ [2]).drop (3 - 15)).foldl (· + ·) 0 ∧ 8 ≤ (lnk .active16 fun l => { l with tries := 8 }).tries := by
  decide +kernel

/-! The rotor. -/
/-- A calendar that names 1 to 511 in order. -/
def calT : Tab Word := (List.range 73).map fun i => (i, BitVec.ofNat 64 ((List.range 7).map fun p => (7 * i + p + 1) * 2 ^ (9 * p)).sum)
def rotS (r : Rotor) (cyc : Nat) (f : State → State := id) : State := f { State.reset with
  links := (List.range 112).map fun i => (144 + i, { Link.zero with stat := .training }), rotor := r, cycle := BitVec.ofNat 64 cyc }
def rotZ : Rotor := { Rotor.zero with calw := calT, cal := calT }
def calName (cal : Tab Word) (i p : Nat) : Nat := (cal.get 0 i).f (9 * p + 8) (9 * p)

/-- The calendar names every module but the own one, 0, once. -/
theorem witness_calendar : ((List.range 73).flatMap fun i => (List.range 7).map fun p => calName calT i p) = (List.range 511).map (· + 1) ∧
    rotorIndex State.reset.part.module = 0 ∧ ∀ i < 512, ((List.range 511).map (· + 1)).count i = if i = 0 then 0 else 1 := by
  refine ⟨by decide +kernel, by decide, fun i _ => ?_⟩
  have hn : ((List.range 511).map (· + 1)).Nodup := List.nodup_range.map fun a b h => by simpa using h
  rcases i with _ | j
  · exact List.count_eq_zero.2 (by simp)
  · rw [if_neg (by omega), List.count_eq_one_of_mem hn (List.mem_map.2 ⟨j, List.mem_range.2 (by omega), rfl⟩)]

/-- RotorFollowsItsCalendar: an idle rotor, enabled and not, with and without a lock; partners of the next slot, of slot 2 alone and of none; darkness
on time and away from it. -/
theorem witness_rotor : (rotS rotZ 10000).part.hasRotor = true ∧ rotZ.en = false ∧ rotZ.relay = [] ∧
    (∀ nl ∈ (rotS rotZ 10000).links, 144 ≤ nl.1 → nl.2.queue = [] ∧ nl.2.sent = []) ∧
    (∀ i, 144 ≤ i → i < 256 → ((rotS rotZ 10000).linkAt i).stat = .training ∧ ∀ k < 16, (((rotS rotZ 10000).linkAt i).lanes.get .zero k).failed = false) ∧
    ([15, 16, 17, 18, 19, 20, 21] : List Nat).length = 7 ∧ (∀ p < 7, ([15, 16, 17, 18, 19, 20, 21] : List Nat).getD p 512 = calName calT 2 p) ∧
    (∀ j < 2, ∃ p < 7, ([15, 16, 17, 18, 19, 20, 21] : List Nat).getD p 512 ≠ calName calT j p) ∧ (1 + 1) % 73 = 2 ∧
    (∀ i < 73, ∃ p < 7, ([1, 1, 1, 1, 1, 1, 1] : List Nat).getD p 512 ≠ calName calT i p) ∧
    6500 + 3010 ≤ (rotS rotZ 10000).cycle.toNat - 350 ∧ (rotS rotZ 10000).cycle.toNat - 350 ≤ 6500 + 3150 ∧
    4000 + 4200 ≤ (rotS rotZ 10000).cycle.toNat ∧ (rotS rotZ 10000).cycle.toNat < 9000 + 4200 := by
  decide +kernel

/-! Packets. -/
def pk4 (src dst : Nat) (f : Packet → Packet := id) : Packet := f { newPkt src dst 0 (3, 0) .read 0x1000 4 [] none with seq := 9 }
def lnk3 : Link := { Link.zero with stat := .active16, credits := List.replicate 8 4, next := 4095, sent := [(pkz, true)] }
def pS (f : State → State := id) : State := f { State.reset with
  part := ⟨2, 1, 0⟩, page := tS.page, cycle := 5000, links := [(3, lnk3)], modstat := { State.reset.modstat with phase := 4 } }
def unk (f : Unacked → Unacked := id) : Unacked := f ⟨pk4 0 7, 1, 1, 0, none, 0, .core 0 0 5, 1, 0x777, false, some 100, none⟩
def tgtOf (done : List Nat) (reps : List Reply := []) (op : Option Packet := none) : E2ETgt := ⟨3, done, reps, op⟩

/-- PacketsArePerformedOnce: the packet at the head of the queue, with a link to take it, one without a credit or busy; packets that the target
has seen, has not, and must hold; an opener; a source whose packet is young, due and given up. -/
theorem witness_delivery : (let s := pS fun s => { s with outq := [pk4 5 1] }
     (pk4 5 1).src ≠ s.part.module ∧ (pk4 5 1).dst / 16 ^ 0 % 16 = 1 ∧ s.part.module / 16 ^ 0 % 16 = 0 ∧ (pk4 5 1).via = none ∧ s.part.fitted 3 = true ∧
     (s.linkAt 3).stopped = false ∧ (∀ m, 0 ≤ m → m < 24 → m ≠ 3 → (s.linkAt m).stat.up = false) ∧ (s.linkAt 3).busy ≤ 8 * s.cycle.toNat ∧
     (s.linkAt 3).sent.length + 1 ≤ 512 ∧ (s.linkAt 3).credits.getD 0 0 ≠ 0 ∧ (pk4 5 1).len ≤ 224) ∧
    (pk4 5 1 fun p => { p with len := 230, via := some 0 }).via = some 0 ∧ (pk4 7 0).dst = (pS).part.module ∧ (pk4 7 0).isOpen = false ∧
    (tgtOf [3]).dup 9 = false ∧ (tgtOf [3]).dup 3 = true ∧ (tgtOf [3]).dup 5 = false ∧ (9 : Nat) ∈ (tgtOf [3, 9] [⟨9, [4], 0, 0⟩]).done ∧
    (tgtOf [3, 9] [⟨9, [4], 0, 0⟩]).replies.find? (fun x => x.seq == 9) = some ⟨9, [4], 0, 0⟩ ∧
    (let s := pS fun s => { s with e2eTgt := [(7, tgtOf [3])] }
     s.e2eTgt.get? 7 = some (tgtOf [3]) ∧ s.held = [] ∧ s.cores = [] ∧ (∀ nc ∈ s.ctxs, nc.2.recs = []) ∧ s.repWait = [] ∧ s.rts = [] ∧
     (ringAt 0x1000 4).all (fun l => !s.mem.bad l) = true) ∧
    (let s := pS fun s => { s with e2eSrc := [(7, ⟨10, false, [unk], []⟩)], tasks := [(0, tTask)] }
     let src := s.e2eSrc.get ⟨0, true, [], []⟩ 7
     src.unacked.find? (fun x => x.pkt.seq == 9) = some unk ∧ src.waiting = [] ∧ unk.pkt.lease = none ∧ unk.unit = .core 0 0 (s.taskAt 0 0).place.kernel ∧
     (s.taskAt 0 0).stat ≠ .free ∧ (s.taskAt 0 0).place.ctx = unk.ctx ∧ unk.held = none ∧ unk.done = false ∧
     s.cycle.toNat < 100 + Nat.max 1 (s.linkcfg.f 39 32) * 1400 ∧ unk.resends < 8 ∧ 8 ≤ (unk fun u => { u with resends := 8 }).resends ∧
     100 + Nat.max 1 (s.linkcfg.f 39 32) * 1400 ≤ 1000000) ∧
    ((pS fun s => { s with part := ⟨0, 1, 0⟩ }).part.hasRotor = true ∧
     (pS fun s => { s with part := ⟨0, 1, 0⟩ }).relayFlits none + pktFlits (pk4 4 1) ≤ 65536 ∧
     (pS fun s => { s with part := ⟨0, 1, 0⟩ }).torusLink (pk4 4 1) = some 3) := by
  decide +kernel

/-- An access that arrives here is served at the places of the ring. -/
theorem witness_arrival (i : Nat) (l : Loc) (h : (ringAt 0x1000 4)[i]? = some l) :
    ∃ kind, (pS).lookFor (fun _ => false) ((pk4 7 0).ia + i) .read = .mem l kind :=
  lies_of (look := fun i => (pS).lookFor (fun _ => false) ((pk4 7 0).ia + i) .read) (by decide +kernel) i l h

/-! Leases. -/
def tLend (st : LendStat) (f : Lender → Lender := id) : Lender := f ⟨BitVec.ofNat 64 (9 * 2 ^ 52 + 64 * 2 ^ 30 + 7), BitVec.ofNat 64 (2000 * 2 ^ 32 + 1), st, 2, 5000, false, 50⟩
def tBor (st : BorStat) (f : Borrower → Borrower := id) : Borrower :=
  f ⟨BitVec.ofNat 64 (9 * 2 ^ 52 + 5 * 2 ^ 30 + 64 * 2 ^ 8), BitVec.ofNat 64 (2 ^ 63 + 2 ^ 62 + 3 * 2 ^ 30), st, false, 1000, 1, false, false, 50, 60, [(1, 2)]⟩
/-- A state whose page table holds one leaf of 1 GiB, in the state st, for the IA 2^36. -/
def leS (st : Nat) (cyc : Nat) (f : State → State := id) : State := f { tD [(0x12000 + 8 * 64, leaf 9 st 0x40000000)] with
  cycle := BitVec.ofNat 64 cyc, modstat := { State.reset.modstat with phase := 4 } }

/-- LeasesFollowTheirStates, the lender's side: an entry in each state, before and after each limit, with a region of one leaf, LOCAL and LENT. -/
theorem witness_lender : (let s := leS 0 100
     let e : Word := BitVec.ofNat 64 (leaf 9 0 0x40000000)
     let l := tLend .free
     s.modstat.phase ≠ 1 ∧ s.modstat.phase ≠ 5 ∧ l.base.f 63 52 ≠ s.part.module ∧ l.cfg.f 6 0 = 1 ∧ s.walk (l.base.f 51 30 * 2 ^ 30) = .leaf e 0x12200 ∧
     leafSize e = 2 ^ 30 ∧ e.f 61 59 = 0 ∧ e.b 52 = false ∧ (∀ c ∈ leafCopies e 0x12200 (2 ^ 36), s.mem.dramWord c = e) ∧
     s.held = [] ∧ s.cores = [] ∧ (∀ nc ∈ s.ctxs, nc.2.recs = []) ∧ s.repWait = []) ∧
    (let s := leS 4 900000
     let e : Word := BitVec.ofNat 64 (leaf 9 4 0x40000000)
     s.walk (2 ^ 36) = .leaf e 0x12200 ∧ e.f 61 59 = 4 ∧ (∀ c ∈ leafCopies e 0x12200 (2 ^ 36), s.mem.dramWord c = e) ∧
     (tLend .active).expiry ≤ s.cycle.toNat ∧ (tLend .recalling).at_ + 560000 ≤ s.cycle.toNat ∧ s.cycle.toNat < (tLend .granting).at_ + 1400000 ∧
     (leS 4 2000000).cycle.toNat ≥ (tLend .granting).at_ + 1400000) := by
  decide +kernel

/-- A packet under the lease 3 that awaits its acknowledgement. -/
def ubk : Unacked := ⟨{ newPkt 0 9 0 (0, 0) .write 0 8 [] (some 3) with seq := 4 }, 1, 2, 0, none, 0, .core 0 0 5, 1, 0, false, none, none⟩

/-- LeasesFollowTheirStates, the borrower's side. -/
theorem witness_borrower : (let s := leS 5 500000
     let e : Word := BitVec.ofNat 64 (leaf 9 5 0x40000000)
     let b := tBor .active
     s.walk (b.src.f 29 8 * 2 ^ 30) = .leaf e 0x12200 ∧ e.f 61 59 = 5 ∧ (∀ c ∈ leafCopies e 0x12200 (2 ^ 36), s.mem.dramWord c = e) ∧ b.pages = 1 ∧
     b.ackAt + b.term * 1400 / 4 ≤ s.cycle.toNat ∧ b.renewAt + b.term * 1400 / 4 ≤ s.cycle.toNat ∧ s.cycle.toNat < b.ackAt + b.term * 1400 ∧
     b.ackAt + b.term * 1400 ≤ (leS 5 3000000).cycle.toNat ∧ b.src.f 63 52 = (9 : BitVec 12).toNat ∧ b.src.f 51 30 = (5 : BitVec 22).toNat ∧
     b.src.f 63 52 ≠ (8 : BitVec 12).toNat ∧ b.fall.b 63 = true ∧ (tBor .evicting fun b => { b with rel := true, fall := 0 }).fall.b 63 = false ∧
     s.e2eSrc.get ⟨0, true, [], []⟩ 9 = ⟨0, true, [], []⟩ ∧ ubk.pkt.lease = some 3 ∧ s.held = []) ∧
    (Word.b (BitVec.ofNat 64 (2 ^ 63 + 3)) 63 = true ∧ Word.f (BitVec.ofNat 64 (2 ^ 63 + 3)) 15 0 = 3) := by
  decide +kernel

/-! Herder steps. -/
def stp (kind : Nat) (op ty : Nat := 0) (log : Nat := 0) (pm : Nat := 2) (off : Nat := 1) (tag : Nat := 6) (a1 a2 : Nat := 0x1000) (len : Nat := 8) (fan : Nat := 0) : List Word :=
  [BitVec.ofNat 64 (kind * 2 ^ 60 + op * 2 ^ 58 + ty * 2 ^ 56 + log * 2 ^ 55 + pm * 2 ^ 53 + fan * 2 ^ 49 + off * 2 ^ 21 + tag * 2 ^ 9), BitVec.ofNat 64 a1,
   BitVec.ofNat 64 a2, BitVec.ofNat 64 (len * 2 ^ 32)]
def hK (st : List Word) (f : Coll → Coll := id) : Coll := f { Coll.zero with
  stat := .running, ctx := 1, gid := 4, members := [0, 1], cnt := [1, 2, 3, 4], status := 0x3000, log := 0x10000, round := 4, prog := [st] }
def hS (k : Coll) (f : State → State := id) : State := f { tS with colls := [(3, k)], cycle := 9000 }
def hM (f : CollMsg → CollMsg := id) : CollMsg := f ⟨4, 5, 1, 6, 0, 0, 0, [1, 2, 3, 4, 5, 6, 7, 8], [], [], [], []⟩
def opensAt (a n : Nat) (acc : Acc) (k : Coll) : Bool :=
  unitClear (hS k) (.coll 3) (ringAt a n) && lies (fun i => ((hS k).lookU (.coll 3) k.ctx (BitVec.ofNat 64 a + .ofNat 64 i) acc).1) (ringAt a n)

/-- HerderStepsMoveData: a context that runs, that ends, that waits to write; a step of each kind with its peer, with and without its message, of its length and
type and of another; a log that fits and one that does not. -/
theorem witness_herderMoves : (let s := hS (hK (stp 1))
     s.colls.get? 3 = some (hK (stp 1)) ∧ (hK (stp 1)).fin = none ∧ (s.ctxAt 1).stat = .active ∧ (hK (stp 1)).writes = [] ∧ s.unitErrs = [] ∧
     (hK (stp 1)).hold = none ∧ s.tgtWait = [] ∧ s.sideOf (.coll 3) = [] ∧ s.e2eSrc = []) ∧
    (hK (stp 1)).peer 0 (hK (stp 1)).step = some 1 ∧ (hK (stp 1)).chunk 0 (hK (stp 1)).step 0x1000 = 0x1000 ∧ opensAt 0x1000 8 .read (hK (stp 1)) = true ∧
    opensAt 0x2000 3 .write (hK (stp 0)) = true ∧ (hK (stp 0)).step.kind = 0 ∧ (hK (stp 6)).step.kind = 6 ∧
    (hM.round = (4 + 1) % 2 ^ 32 ∧ hM.kind = 0 ∧ hM.tag = (hK (stp 2)).step.tag ∧ hM.sender = 1 ∧ hM.bytes.length = (hK (stp 2)).step.len ∧ hM.bad = [] ∧
     hM.bytes.length ≠ (hK (stp 2 0 0 0 2 1 6 0x1000 0 9)).step.len) ∧
    (let m := hM fun m => { m with kind := 1, ty := 1, vals := [1, -2, 3, 4], incl := [1] }
     let k := hK (stp 4 0 1 0 2 1 6 0x1000 1)
     m.ty = k.step.ty ∧ m.op = k.step.op ∧ m.vals.length = k.step.len / 2 ^ k.step.ty ∧ k.bucket = .zero ∧ k.peer 0 k.step = some 1 ∧
     (hM fun m => { m with kind := 1, ty := 2 }).ty ≠ k.step.ty ∧ k.peer2 0 k.step = some 1 ∧ (0 : Nat) ∉ [1] ++ [3]) ∧
    (hK (stp 4 0 1 0 1 5 6 0x1000 1)).peer 0 (hK (stp 4 0 1 0 1 5 6 0x1000 1)).step = none ∧
    (let k := hK (stp 5 0 1 0 2 1 6 0x1000 0 8 3)
     k.step.kind = 5 ∧ (∀ r ∈ k.expected 0 k.step, r ∈ [1, 0]) ∧ (∀ r ∈ [1, 0], r ∈ k.expected 0 k.step) ∧ (1 : Nat) ∈ k.expected 0 k.step) ∧
    (hK (stp 6)).moved < (hK (stp 6)).step.len ∧ (hK (stp 6)).step.log = false ∧ (hK (stp 2 0 0 1)).step.log = true ∧ 4 ≤ 2 ^ 5 / 2 ∧ 2 ^ 2 / 2 < 4 := by
  decide +kernel

/-- HerderStepsCountAndSignal: a word aligned and not, at least its value and below, read again too soon and in time; loops of none and of some; rows to a
member and to none; each phase of A2A and SAR; catch-ups whose donor has, lacks and awaits the rounds; rows that fit and do not. -/
theorem witness_herderCounts : (hK (stp 7 0 0 0 2 1 6 0x1001 5)).step.a1.toNat % 8 ≠ 0 ∧ (hK (stp 7 0 0 0 2 1 6 0x1000 0)).step.a2.toNat ≤ (hS (hK (stp 7))).bytesAt (ringAt 0x1000 8) ∧
    (hS (hK (stp 7))).bytesAt (ringAt 0x1000 8) < (hK (stp 7 0 0 0 2 1 6 0x1000 5)).step.a2.toNat ∧ opensAt 0x1000 8 .read (hK (stp 7)) = true ∧
    9000 + 1 < 8000 + 1400 ∧ 7000 + 1400 ≤ 9000 + 1 ∧
    (let k := hK (stp 8 0 0 0 2 1 6 0) fun k => { k with prog := [stp 8 0 0 0 2 1 6 0, stp 9 0 0 0 2 5, stp 9 0 0 0 2 0] }
     k.step.kind = 8 ∧ k.step.a1 = 0 ∧ (cstep (k.prog.getD 2 [])).kind = 9 ∧ (cstep (k.prog.getD 2 [])).off = 0 ∧ (cstep (k.prog.getD 1 [])).off ≠ 0) ∧
    (hK (stp 8 0 0 0 2 1 6 3)).step.a1 ≠ 0 ∧ (2 : Nat) < 3 ∧
    (let k := hK [BitVec.ofNat 64 (10 * 2 ^ 60 + 2 * 2 ^ 53), 0x1000, 0x1100, BitVec.ofNat 64 (8 * 2 ^ 32 + 2)]
     k.step.kind = 10 ∧ k.step.w3lo = 2 ∧ k.step.len = 8 ∧ opensAt 0x1010 8 .read k = true ∧ (9 : Nat) ∉ k.members ∧ (1 : Nat) ∈ k.members ∧
     ((hS k).translate 1 0x1100 permRW).toOption.isSome = true) ∧
    (hK (stp 10 0 0 0 2 1 6 0x1000 0x1100 0)).step.w3lo ≤ 0 ∧ (hK (stp 11)).step.kind = 11 ∧ opensAt 0x1000 16 .read (hK (stp 11)) = true ∧
    4 < sumTo [5, 6] 2 ∧ (hK (stp 12)).step.kind = 12 ∧ opensAt 0x1000 8 .atomic (hK (stp 12)) = true ∧ (hK (stp 13)).step.kind = 13 ∧
    (hK (stp 13)).members.headD 0 = 0 ∧ (hK (stp 13) fun k => { k with members := [1, 0] }).members.headD 0 ≠ 0 ∧
    10 + Nat.max 1 (tS.linkcfg.f 39 32) * 1400 ≤ 200000 ∧ 9000 < 8990 + Nat.max 1 (tS.linkcfg.f 39 32) * 1400 ∧ tS.sarKeys = [] ∧ tS.sarHolds = [] ∧
    0 + 1 * 140000 ≤ 200000 ∧
    (let donor (r : Bool) (f l : Nat) : CatchLog := ⟨r, f, l, [0, 1]⟩
     (donor false 1 3).reachable = false ∧ 3 + 1 < (donor true 5 6).first ∧ (donor true 1 4).last + 1 < 6 ∧ ¬ ((donor true 1 5).last + 1 < 6) ∧
     ¬ (3 + 1 < (donor true 1 5).first)) ∧
    (ringAt 0x4000 16 ++ ringAt 0x4010 16 ++ ringAt 0x5000 16).Nodup ∧
    lies (fun i => tS.lookIA (0x4000 + i) .atomic) (ringAt 0x4000 16) = true ∧
    (let s := tAt tTask fun s => { s with mem := { s.mem with ring := fillW 0x4000 [0, 0, 0x5000, 4] } }
     (BitVec.ofNat 64 (s.bytesAt ((ringAt 0x4000 16).take 8)) : Word).toNat < s.bytesAt ((ringAt 0x4010 16).drop 8) ∧
     s.bytesAt ((ringAt 0x4010 16).take 8) % 2 ^ 52 + 0 = 0x5000) := by
  decide +kernel

/-- ModuleEventsDoTheirEffect: a re-grant in time and too early, islands that are there, a verified and an unverified reset, the phases of the bring-up. -/
theorem witness_module : tS.modstat.grantAt = none ∧ (5 : Nat) < 2 * 32 ∧ 1 ≤ 7 ∧ 7 ≤ 15 ∧ (List.replicate 32 (3 : Byte)).length = 32 ∧
    (let s : State := { tS with modstat := { tS.modstat with phase := 3 } }
     (s.linkAt 0).stat = .down ∧ s.part.fitted 0 = true) ∧
    (∀ n < 144, (({ tS with links := (List.range 144).map fun n => (n, lnk .active16) } : State).linkAt n).stat ≠ .down ∧
      (({ tS with links := (List.range 144).map fun n => (n, lnk .active16) } : State).linkAt n).stat ≠ .training) ∧
    (2 : BitVec 2).toNat < 4 ∧ 0x80040 / 64 * 64 / 0x80000 = 1 := by
  decide +kernel

/-! Steps. -/
def bun (ws : List (BitVec 32)) : List Byte := ws.flatMap fun w => toBytes 4 w.toNat
/-- Core 0 about to issue the bundle of these words at 0x1000. -/
def stS (ws : List (BitVec 32)) : State := { tS with mem := { tS.mem with ring := Tab.setMany 0 [] 0x1000 (bun ws) }, iss := .zero }
def stPick (s : State) : State := match State.pick { s with turn := 1 } 0 with | some (t, _) => t | none => s
def stFocus (s : State) : State := (stPick s).withIss { Issue.zero with core := 0, slot := 0, pc := 0x1000 }
def stFetch (s : State) : State := ((stFocus s).fetch 0 0).1
/-- What a next state holds. -/
def nextOf (o : Host.Outcome State Fault Refusal) (f : State → Bool) : Bool := match o with | .next t => f t | _ => false
def fetched (r : State × Fetched) : Option (List Byte) := match r.2 with | .ok bs => some bs | _ => none

/-- StepRunsDecodedInstruction: a bundle that holds ADDI G5, G6, 1000 in slot 1 (R50, R52), and nothing else to do. -/
theorem witness_step : (let s := stS [0, 0x042863E8, 0, 0]
     let s1 := stPick s
     let t := s1.taskAt 0 0
     let bs := bun [0, 0x042863E8, 0, 0]
     let b := decodeBundle false bs
     let s3 := stFetch s
     let old := s3.taskAt 0 0
     let i : Instr := .addi ⟨5, false⟩ ⟨6, false⟩ 1000
     let ready := s3.setTaskAt 0 0 old.atIssue
     let start := ready.withIss { ready.iss with
       commit := old.skip, act := .none, seq0 := (s3.coreAt 0).depSeq, infl := old.atIssue.inflight.length, pos := 1, slotRaised := false }
     s.inputs = [] ∧ s.unitAct.isNone = true ∧ s.nextCore = some 0 ∧ (State.pick { s with turn := 1 } 0).isSome = true ∧
     (s1.coreAt 0).pauseTill ≤ s1.cycle.toNat ∧ t.wait = .none ∧ t.returning = false ∧ s1.stillStalled 0 0 = false ∧ s1.trapDue 0 0 = false ∧
     (fetched ((stFocus s).fetch 0 0)) = some bs ∧ b.illegal t.vMap t.noFlow = none ∧ t.badLanding b = false ∧ b.running old old.skip = [(1, i)] ∧
     (overSlot old.vMap [(1, i)] ((ready.task.inflight.map Pend.weight).sum)).isNone = true ∧
     (old.skip.getLsbD 0 && old.keptPc == old.pc && old.kept != .none) = false ∧ nextOf (exec i start) (fun r => !r.iss.stall) = true) := by
  decide +kernel

/-- StepsTakeInputsAndEndClks: an event and an instruction at the head of the inputs, nothing left to do in the clk, and an undefined major. -/
theorem witness_clk : (Instr.coolantLimit).isEvent = true ∧ (Instr.nop).isEvent = false ∧
    (let s : State := { tS with turn := 5000, iss := .zero }
     s.inputs = [] ∧ s.unitAct.isNone = true ∧ s.nextCore = none ∧ s.arrivals = [] ∧ s.barErrs = [] ∧ s.cores = [] ∧ (s.taskAt 0 0).onCore = true ∧
     s.stopped 0 = false ∧ s.stalled.contains 0 = false) ∧
    (let s := stS [0, 0, 0xFF000000, 0]
     let t := (stFetch s).taskAt 0 0
     s.unitAct.isNone = true ∧ s.nextCore = some 0 ∧ fetched ((stFocus s).fetch 0 0) = some (bun [0, 0, 0xFF000000, 0]) ∧
     (decodeBundle false (bun [0, 0, 0xFF000000, 0])).illegal ((stPick s).taskAt 0 0).vMap ((stPick s).taskAt 0 0).noFlow = some (0, 4) ∧
     t.inTrap = false ∧ t.hasHandler = true ∧ t.delay = .no) := by
  decide +kernel

def dueP (d : RDest) (x : VReg) (n : Nat) : Pend := ⟨d, .ready x, n, 1, 0x1000, false⟩

/-- DueResultsReachTheirRegisters: the last of two results due for a register, a pair, a predicate, all of them, a V and a K register. -/
theorem witness_due : (let t := { tTask with inflight := [dueP (.g 3) 5 1, dueP (.g 3) 7 1, dueP (.gPair 8) 9 2] }
     t.inflight = [dueP (.g 3) 5 1] ++ dueP (.g 3) 7 1 :: [dueP (.gPair 8) 9 2] ∧ (dueP (.g 3) 7 1).dest = .g 3 ∧ (dueP (.g 3) 7 1).val = .ready 7 ∧
     (dueP (.g 3) 7 1).left ≤ 1 ∧ ¬ (dueP (.gPair 8) 9 2).left ≤ 1) ∧
    (dueP (.gPair 8) 9 1).dest = .gPair 8 ∧ (dueP .qAll 9 1).dest = .qAll ∧ (dueP (.q 2) 1 1).dest = .q 2 ∧ (dueP (.v 5) 1 1).dest = .v 5 ∧ (dueP (.k 5) 1 1).dest = .k 5 := by
  decide +kernel

/-- RunQueueChoosesDeepestLevel: a core whose task keeps issue, and one that chooses between two READY tasks of different levels. -/
theorem witness_choice : tS.issuerOf 0 = some (0, tTask) ∧ (tS.pick 0).isSome = true ∧
    (let s : State := { tS with tasks := [(0, { tTask with stat := .ready }), (1, { tTask with stat := .ready, place := { tTask.place with level := 2 } })] }
     s.issuerOf 0 = none ∧ (s.pick 0).map (·.2) = some 1 ∧ (0, s.taskAt 0 0) ∈ s.readyOn 0) := by
  decide +kernel

/-- EncodedInstructionsDecodeBack and DecodedInstructionsAreWellFormed: ADDI and END are well-formed and no events, and a word decodes. -/
theorem witness_encoding : (Instr.addi ⟨5, false⟩ ⟨6, false⟩ 1000).wf = true ∧ (Instr.endTask).wf = true ∧ (Instr.endTask).isEvent = false ∧
    decodeSlot false 0 false 0 0x9E000000 = .ok .endTask := by
  decide

/-- The invariants hold of a state with memory, tasks and poison listed, so the steps from it are covered. -/
theorem witness_invariants : (stS [0, 0x042863E8, 0, 0]).memOk ∧ (stS [0, 0x042863E8, 0, 0]).tasksOk ∧
    nextOf (step (stS [0, 0x042863E8, 0, 0])) (fun _ => true) = true := by
  refine ⟨by decide +kernel, ?_, by decide +kernel⟩
  unfold State.tasksOk
  decide +kernel

/-! ### Well-formedness: a term that each check refuses -/

/-- A register beyond its file (spec/00, R52): G64, Q16, K8, a fifth P or T group, and a latch beyond L7. -/
theorem test_wf_files : (Instr.addi ⟨64, false⟩ ⟨6, false⟩ 0).wf = false ∧ (Instr.cmpi 0 ⟨16, false⟩ ⟨5, false⟩ 0).wf = false ∧
    (Instr.vkopAnd ⟨8, false⟩ ⟨0, false⟩ ⟨0, false⟩).wf = false ∧ (Instr.vpsw ⟨64, false⟩).wf = false ∧ (Instr.add true ⟨1, false⟩ ⟨8, true⟩ ⟨0, false⟩).wf = false ∧
    (Instr.add true ⟨1, false⟩ ⟨7, true⟩ ⟨63, false⟩).wf = true := by decide

/-- A small field at an undefined value (R53): a condition, a predicate operation, a width, a loop count, a scope, a wait test. -/
theorem test_wf_small_fields : (Instr.cmp 11 ⟨1, false⟩ ⟨2, false⟩ ⟨3, false⟩).wf = false ∧ (Instr.qop 5 ⟨1, false⟩ ⟨2, false⟩ ⟨3, false⟩).wf = false ∧
    (Instr.sext true 3 ⟨1, false⟩ ⟨2, false⟩).wf = false ∧ (Instr.lbrk 2 0).wf = false ∧ (Instr.lbrk 2 7).wf = false ∧ (Instr.fence 5).wf = false ∧
    (Instr.waite 4 0 4 5).wf = false ∧ (Instr.waite 0 5 4 5).wf = false ∧ (Instr.tcens 2 1 32).wf = false ∧ (Instr.lui false ⟨1, false⟩ ⟨2, false⟩ 2048).wf = false := by
  decide

/-- Orders, scopes and widths of memory operations (R270, R274): a scope of an atomic without an order, ZX of 8 bytes. -/
theorem test_wf_memory : (Instr.aadd 1 2 3 0 1 true).wf = false ∧ (Instr.acas2 1 2 3 1 5).wf = false ∧ (Instr.ldAcq 1 2 0 0 3 true).wf = false ∧
    (Instr.stRel 1 2 0 5 3).wf = false ∧ (Instr.ldh 1 2 0 3 3 true).wf = false ∧ (Instr.chkh 1 2 0 3 3 true).wf = false ∧ (Instr.remop 1 2 3 0 2).wf = false := by
  decide

/-- Element widths and kinds of vector operations (R284, R300, R315). -/
theorem test_wf_vector : (Instr.vnshr 3 false ⟨1, false⟩ ⟨2, false⟩ ⟨3, false⟩).wf = false ∧ (Instr.vwiden 3 false false ⟨1, false⟩ ⟨2, false⟩).wf = false ∧
    (Instr.vpack 3 ⟨1, false⟩ ⟨2, false⟩ ⟨3, false⟩).wf = false ∧ (Instr.vshuf 0 ⟨1, false⟩ ⟨2, false⟩ 3).wf = false ∧
    (Instr.vgath false 0 ⟨1, false⟩ ⟨2, false⟩ ⟨3, false⟩).wf = false ∧ (Instr.vscat 0 ⟨1, false⟩ ⟨2, false⟩ ⟨3, false⟩).wf = false ∧
    (Instr.vdefer 0 0 false ⟨2, false⟩ ⟨3, false⟩).wf = false ∧ (Instr.vdefer 2 0 false ⟨2, true⟩ ⟨3, false⟩).wf = false ∧ (Instr.vdrain 0 0 ⟨1, false⟩ 3).wf = false := by
  decide

/-- Operands of events: a core and a slot that exist, a BAR address, a duty, a line. -/
theorem test_wf_events : (Instr.takePendingTrap 2048 0).wf = false ∧ (Instr.taskResume 0 16).wf = false ∧ (Instr.hostBarAccess true 1 0 0).wf = false ∧
    (Instr.hostBarAccess true 0 4 0).wf = false ∧ (Instr.hostBarAccess false 2 0x10000 0).wf = false ∧ (Instr.powerRegrant [] [16]).wf = false ∧
    (Instr.patrolScrub 0 3 0).wf = false ∧ (Instr.islandGrantExceeded 64 1).wf = false ∧ (Instr.islandGrantExceeded 1 0).wf = false := by decide

/-! ### Words written out from the encoding tables (R50 to R54, R70 to R75) -/

/-- The worked bundle of spec/03 (R49, R52): its header lends V70 the high bit and ADDI bits of its immediate. -/
theorem test_decode_bundle : decodeBundle false (toBytes 4 0xF3000100 ++ toBytes 4 0x042863E8 ++ toBytes 4 0x02329053 ++ toBytes 4 0) =
    ⟨some 3, [⟨false, false, .nop⟩, ⟨false, false, .addi ⟨5, false⟩ ⟨6, false⟩ 1000⟩,
      ⟨false, false, .vadd 3 ⟨70, false⟩ ⟨41, false⟩ ⟨2, true⟩⟩, ⟨false, false, .nop⟩]⟩ := by decide

/-- Control words (slot 0): opcode ×2^25, x ×2^19, y ×2^13, an immediate. -/
theorem test_decode_control : decodeSlot false 0 false 0 0x9E000000 = .ok .endTask ∧ decodeSlot false 0 false 0 0xA0000005 = .ok (.trapi 5) ∧
    decodeSlot false 0 false 0 0xA2000000 = .ok .eret ∧ decodeSlot false 0 false 0 0x92008005 = .ok (.loopi 4 5) ∧
    decodeSlot false 0 false 0 0x94100002 = .ok (.lbrk 2 2) ∧ decodeSlot false 0 false 0 0x825FFFFD = .ok (.brt 2 (-3)) ∧
    decodeSlot false 0 false 0 0x8BF80000 = .ok (.ret 63) ∧ decodeSlot false 0 false 0 0x96000000 = .ok .yield ∧
    decodeSlot false 0 false 0 0x98A00000 = .ok (.waitc 20) ∧ decodeSlot false 0 false 0 0x9AA2A01A = .ok (.waite 2 3 20 21) ∧
    decodeSlot false 0 false 0 0xA4380011 = .ok (.csrr 7 0x011) ∧ decodeSlot false 0 false 0 0xA8000003 = .ok (.fence 3) ∧
    decodeSlot false 0 false 0 0xAAA06000 = .ok (.launch 20 3) ∧ decodeSlot false 0 false 0 0xAE20C007 = .ok (.bararr 4 6 7) := by decide

/-- Scalar, memory and page words (slot 1), and a word of each that breaks a rule. -/
theorem test_decode_memory : decodeSlot false 1 false 0 0x4610500D = .ok (.cmpi 0 ⟨2, false⟩ ⟨5, false⟩ 13) ∧ decodeSlot false 1 false 0 0x84206410 = .ok (.ldw 4 3 2 16) ∧
    decodeSlot false 1 false 0 0x983143CD = .ok (.aadd 6 10 7 2 3 true) ∧ decodeSlot false 1 false 0 0x9419403C = .ok (.ldh 3 10 0 3 3 false) ∧
    decodeSlot false 1 false 0 0xAC008120 = .ok (.pgdisc ⟨8, false⟩ ⟨9, false⟩) ∧ decodeSlot false 1 false 0 0xE0286000 = .error 0 ∧
    decodeSlot true 1 false 0 0xE0286000 = .ok (.pkget ⟨5, false⟩ ⟨6, false⟩) ∧ decodeSlot true 1 false 0 0xE4008140 = .ok (.pkfwd ⟨8, false⟩ ⟨10, false⟩) ∧
    decodeSlot false 0 false 0 0x9E000001 = .error 1 := by decide

/-- Vector words (slot 2) and tile words (slot 3). -/
theorem test_decode_vector_tile : decodeSlot false 2 false 0 0x02329053 = .ok (.vadd 3 ⟨6, false⟩ ⟨41, false⟩ ⟨2, true⟩) ∧
    decodeSlot false 2 false 0 0x0D429547 = .ok (.vmulhQ 3 ⟨40, false⟩ ⟨41, false⟩ ⟨42, false⟩) ∧ decodeSlot false 2 false 0 0x47406402 = .ok (.vld 40 3 2 2) ∧
    decodeSlot false 3 false 0 0x86108480 = .ok (.tmma 2 4 9) ∧ decodeSlot false 3 false 0 0x9E228B00 = .ok (.tld 4 20 22) ∧
    decodeSlot false 3 false 0 0xAE28C001 = .ok (.collRun 5 6) ∧ decodeSlot false 3 false 0 0xAE28C000 = .ok (.collOpen 5 6) := by decide

/-- The encoder writes the same words. -/
theorem test_encode : (encode (.addi ⟨5, false⟩ ⟨6, false⟩ 1000)).map (·.word) = some 0x042863E8 ∧ (encode (.tmma 2 4 9)).map (·.word) = some 0x86108480 ∧
    (encode (.brt 2 (-3))).map (·.word) = some 0x825FFFFD ∧ encode (.hostLinkDown) = none := by decide

/-! ### Steps of one instruction -/

/-- What an instruction leaves in the results in flight of the task on issue. -/
def results (i : Instr) (s : State := tS) : List (RDest × RVal) :=
  match exec i s with
  | .next t => t.task.inflight.map fun p => (p.dest, p.val)
  | _ => []

/-- The one result of an instruction, and the register it is for. -/
def gives (i : Instr) (d : RDest) (v : Nat) (s : State := tS) : Bool := results i s == [(d, .ready (.ofNat 2048 v))]

/-- A bit of what an instruction leaves. -/
def after (i : Instr) (s : State) (f : State → Bool) : Bool := match exec i s with | .next t => f t | _ => false

/-- R241, with G5 = 0x1003, G6 = 7, G7 = 3, G8 = -2, G9 = 2: sums wrap, quotients truncate toward zero, the high half of (2^64 - 2) × 3 is 2. -/
theorem test_scalar_arithmetic : gives (.add false ⟨11, false⟩ ⟨8, false⟩ ⟨7, false⟩) (.g 11) 1 = true ∧
    gives (.sub true ⟨11, false⟩ ⟨9, false⟩ ⟨7, false⟩) (.g 11) (2 ^ 64 - 1) = true ∧
    gives (.mulhu false ⟨11, false⟩ ⟨8, false⟩ ⟨7, false⟩) (.g 11) 2 = true ∧ gives (.mulh false ⟨11, false⟩ ⟨8, false⟩ ⟨7, false⟩) (.g 11) (2 ^ 64 - 1) = true ∧
    gives (.div false ⟨11, false⟩ ⟨6, false⟩ ⟨8, false⟩) (.g 11) (2 ^ 64 - 3) = true ∧ gives (.rem false ⟨11, false⟩ ⟨6, false⟩ ⟨8, false⟩) (.g 11) 1 = true ∧
    gives (.minu false ⟨11, false⟩ ⟨8, false⟩ ⟨7, false⟩) (.g 11) 3 = true ∧ gives (.min false ⟨11, false⟩ ⟨8, false⟩ ⟨7, false⟩) (.g 11) (2 ^ 64 - 2) = true := by
  decide +kernel

/-- R241 to R246: 7 has 61 leading zeros, -2 has 62 redundant sign bits, 0x1003 three bits; a shift by 66 is one by 2; SEXT.B of 0x1003; LUI; CMPI. -/
theorem test_scalar_bits : gives (.clz false ⟨11, false⟩ ⟨6, false⟩) (.g 11) 61 = true ∧ gives (.cls false ⟨11, false⟩ ⟨8, false⟩) (.g 11) 62 = true ∧
    gives (.popc false ⟨11, false⟩ ⟨5, false⟩) (.g 11) 3 = true ∧
    gives (.shl false ⟨11, false⟩ ⟨6, false⟩ ⟨9, false⟩) (.g 11) 28 (tAt { tTask with regs := { tRegs with g := [(6, 7), (9, 66)] } }) = true ∧
    gives (.srai ⟨11, false⟩ ⟨8, false⟩ 1) (.g 11) (2 ^ 64 - 1) = true ∧ gives (.sext false 0 ⟨11, false⟩ ⟨5, false⟩) (.g 11) 3 = true ∧
    gives (.lui true ⟨11, false⟩ ⟨9, false⟩ 0x56789) (.g 11) (2 * 2 ^ 19 + 0x56789) = true ∧ gives (.cmpi 2 ⟨2, false⟩ ⟨8, false⟩ 0) (.q 2) 1 = true := by
  decide +kernel

/-- R3, R269: LDD reads eight bytes from the lowest, LDS extends the sign of two; STW writes the low byte first and four bytes only. -/
theorem test_memory : (let s := tAt tTask fun s => { s with mem := { s.mem with ring := Tab.setMany 0 [] 0x1000 [1, 0xF2, 3, 4, 5, 6, 7, 8] } }
    gives (.ldd 3 4 0 0) (.g 3) 0x080706050403F201 s = true ∧ gives (.lds 3 4 0 0) (.g 3) (2 ^ 64 - 0x10000 + 0xF201) s = true ∧
    after (.stw 8 4 0 0) s (fun t => (ringAt 0x1000 5).map t.mem.rd == [0xFE, 0xFF, 0xFF, 0xFF, 5]) = true) := by
  decide +kernel

/-- R274: AADD.D adds G9 = 2 to the word at G4 and gives the old word. -/
theorem test_atomic : (let s := tAt tTask fun s => { s with mem := { s.mem with ring := Tab.setMany 0 [] 0x1000 [0xFF, 0xFF] } }
    gives (.aadd 3 4 9 0 0 true) (.g 3) 0xFFFF s = true ∧
    after (.aadd 3 4 9 0 0 true) s (fun t => (ringAt 0x1000 4).map t.mem.rd == [1, 0, 1, 0]) = true) := by
  decide +kernel

/-- R218, R241: DIV by zero in slot 1 enters the handler at 0x2000 with cause 0x0C3, the bundle's address and slot 1 in the mask. -/
theorem test_division_trap : (match exec (.div false ⟨11, false⟩ ⟨6, false⟩ ⟨10, false⟩) tS with
    | .next t => t.task.trap.cause == BitVec.ofNat 64 (2 ^ 63 + 0x0C3) && t.task.trap.pc == 0x1000 && t.task.trap.slots == 2 && t.task.pc == 0x2000
    | _ => false) = true := by
  decide +kernel

/-- R282 to R284: VADD.W adds 64 lanes of 32 bits, each of which wraps. -/
theorem test_vector : gives (.vadd 3 ⟨4, false⟩ ⟨1, false⟩ ⟨3, false⟩) (.v 4) (2 ^ 32 * 5 + 3)
    (tV fun t => { t with regs := { t.regs with v := [(1, BitVec.ofNat 2048 (2 ^ 32 * 2 + 0xFFFFFFFF)), (3, BitVec.ofNat 2048 (2 ^ 32 * 3 + 4))] } }) = true := by
  decide +kernel

/-- R83, R200, R352: CTX_CREATE takes a FREE context to BUILDING, LNKCTL.TRAIN a DOWN link to TRAINING, a coolant limit sets MODSTAT.THERM. -/
theorem test_events : after (.ctxCreate 2) { tS with modstat := { tS.modstat with phase := 4 } } (fun t => (t.ctxAt 2).stat == .building) = true ∧
    after (.lnkctlTrain 3) (lS 3 (lnk .down)) (fun t => (t.linkAt 3).stat == .training) = true ∧
    after .coolantLimit tS (fun t => t.modstat.therm) = true := by
  decide +kernel

/-- R244: the two bundles of the worked example, with their lent bits 0x04 and 0xAC. -/
theorem test_decode_lui : decodeSlot false 1 true 0x04 0x042C0468 = .ok (.addi ⟨5, true⟩ ⟨0, false⟩ 0x2468) ∧
    decodeSlot false 1 true 0xAC 0x42281F89 = .ok (.lui true ⟨5, false⟩ ⟨1, true⟩ 0x56789) := by decide

end Sys2Proof.Tests
end

section
/-! The numeric helpers of R40 to R43, the elements of vector registers, and the exact routines of R304 to R310. -/

namespace Sys2Proof.Machine

/-! ### Saturation and rounding shifts (R40 to R42) -/

theorem sat_eq_ite (x : Int) {w : Nat} : sat x w =
    if x < -2 ^ (w - 1) then -2 ^ (w - 1) else if 2 ^ (w - 1) - 1 < x then 2 ^ (w - 1) - 1 else x := by
  have h : (0 : Int) < 2 ^ (w - 1) := by positivity
  unfold sat
  push_cast
  generalize (2 : Int) ^ (w - 1) = p at *
  split_ifs <;> omega

theorem tzShift_eq_ite (x : Int) (n : Nat) : tzShift x n = if 0 ≤ x then x / 2 ^ n else -(-x / 2 ^ n) := by
  unfold tzShift
  push_cast
  split_ifs with h
  · exact Int.tdiv_eq_ediv_of_nonneg h
  · rw [← Int.tdiv_eq_ediv_of_nonneg (by omega : 0 ≤ -x), Int.neg_tdiv, neg_neg]

theorem floorShift_def (x : Int) (n : Nat) : floorShift x n = x / 2 ^ n := by
  simp [floorShift]

/-- A shift to nearest errs by at most half a unit of the last place, and a tie goes to the even multiple. -/
theorem rneShift_nearest (x : Int) (n : Nat) : 2 * |x - rneShift x n * 2 ^ n| ≤ 2 ^ n ∧
    (2 * |x - rneShift x n * 2 ^ n| = 2 ^ n → 0 < n → rneShift x n % 2 = 0) := by
  cases n with
  | zero => simp [rneShift]
  | succ k =>
    have hk : (2 : Int) ^ (k + 1) = 2 * 2 ^ k := by rw [pow_succ, mul_comm]
    have hp : (0 : Int) < 2 ^ k := by positivity
    have hd := Int.mul_ediv_add_emod x (2 ^ (k + 1))
    have hm := Int.emod_nonneg x (show (2 : Int) ^ (k + 1) ≠ 0 by positivity)
    have hl := Int.emod_lt_of_pos x (show (0 : Int) < 2 ^ (k + 1) by positivity)
    simp only [rneShift, floorShift_def, Nat.add_one_ne_zero, if_false, Nat.add_sub_cancel, Nat.cast_pow, Nat.cast_ofNat]
    generalize x / 2 ^ (k + 1) = q at *
    generalize x % 2 ^ (k + 1) = r at *
    rw [hk] at *
    generalize (2 : Int) ^ k = p at *
    subst hd
    have hr : 2 * p * q + r - q * (2 * p) = r := by ring
    have hr' : 2 * p * q + r - (q + 1) * (2 * p) = r - 2 * p := by ring
    rw [hr]
    split_ifs with hc
    · rw [hr', abs_of_nonpos (by omega)]
      omega
    · rw [hr, abs_of_nonneg hm]
      omega

theorem stoShift_eq (x : Int) {n : Nat} (h : 0 < n) (k : Nat) :
    stoShift x n k = (x + ((if n ≤ 16 then k / 2 ^ (16 - n) else k * 2 ^ (n - 16) : Nat) : Int)) / 2 ^ n := by
  rw [stoShift, if_neg (by omega), floorShift_def]

/-! ### Redundant sign bits (R43) -/

theorem bit_eq_testBit (x n : Nat) : bit x n = x.testBit n := by
  rw [bit, Nat.testBit_eq_decide_div_mod_eq]
  rfl

theorem bitLen_le (n x : Nat) : bitLen n x ≤ n := by
  induction n with
  | zero => exact Nat.le_refl 0
  | succ n ih =>
    rw [bitLen]
    split <;> omega

/-- Above its length a number has no bit. -/
theorem testBit_of_bitLen_le {n x i : Nat} (h : bitLen n x ≤ i) (hi : i < n) : x.testBit i = false := by
  induction n with
  | zero => omega
  | succ n ih =>
    rw [bitLen] at h
    split at h
    · omega
    · next hb =>
      rcases Nat.lt_succ_iff_lt_or_eq.1 hi with hi | rfl
      · exact ih h hi
      · simpa [bit_eq_testBit] using hb

/-- The bit below its length is its highest. -/
theorem testBit_bitLen_sub_one {n x : Nat} (h : 0 < bitLen n x) : x.testBit (bitLen n x - 1) = true := by
  induction n with
  | zero => simp [bitLen] at h
  | succ n ih =>
    rw [bitLen] at h ⊢
    split
    · next hb => simpa [bit_eq_testBit] using hb
    · next hb =>
      rw [if_neg hb] at h
      exact ih h

/-- The bits of a value that differ from its top bit, as a number. -/
def signDiff {w : Nat} (y : BitVec w) : Nat := if y.getLsbD (w - 1) then 2 ^ w - 1 - y.toNat else y.toNat

theorem testBit_signDiff {w : Nat} (y : BitVec w) {i : Nat} (h : i < w) :
    (signDiff y).testBit i = (y.getLsbD i != y.getLsbD (w - 1)) := by
  unfold signDiff
  cases hs : y.getLsbD (w - 1) with
  | false => simp [BitVec.getLsbD]
  | true =>
    rw [if_pos rfl, Nat.sub_sub, Nat.add_comm 1, Nat.testBit_two_pow_sub_succ y.isLt]
    simp [h, BitVec.getLsbD]

theorem rsb_toInt {w : Nat} (y : BitVec w) : rsb y.toInt w = w - 1 - bitLen w (signDiff y) := by
  have hw : wrap y.toInt w = y.toNat := by rw [wrap_toNat, BitVec.ofInt_toInt]
  have hb : bit y.toNat (w - 1) = y.getLsbD (w - 1) := bit_eq_testBit _ _
  rw [rsb, hw, hb, signDiff]
  split <;> rfl

theorem bitLen_signDiff_lt {w : Nat} (y : BitVec w) (hw : 0 < w) : bitLen w (signDiff y) ≤ w - 1 := by
  by_contra h
  have hl := bitLen_le w (signDiff y)
  have ht := testBit_bitLen_sub_one (n := w) (x := signDiff y) (by omega)
  rw [show bitLen w (signDiff y) = w by omega, testBit_signDiff y (by omega)] at ht
  simp at ht

/-- The redundant sign bits are the bits below the top, from the top down, that equal it. -/
theorem rsb_spec {w : Nat} (y : BitVec w) (hw : 0 < w) : rsb y.toInt w ≤ w - 1 ∧
    (∀ i < rsb y.toInt w, y.getLsbD (w - 2 - i) = y.getLsbD (w - 1)) ∧
    (rsb y.toInt w < w - 1 → y.getLsbD (w - 2 - rsb y.toInt w) ≠ y.getLsbD (w - 1)) := by
  have hL := bitLen_signDiff_lt y hw
  rw [rsb_toInt]
  refine ⟨by omega, fun i hi => ?_, fun h => ?_⟩
  · have := testBit_of_bitLen_le (n := w) (x := signDiff y) (i := w - 2 - i) (by omega) (by omega)
    rw [testBit_signDiff y (by omega)] at this
    simpa using this
  · have := testBit_bitLen_sub_one (n := w) (x := signDiff y) (by omega)
    rw [testBit_signDiff y (by omega)] at this
    rw [show w - 2 - (w - 1 - bitLen w (signDiff y)) = bitLen w (signDiff y) - 1 by omega]
    simpa using this

/-! ### Elements of a vector register (R16, R287) -/

theorem upFrom_eq (b n : Nat) : upFrom b n = (List.range n).map (b + ·) := by
  induction n generalizing b with
  | zero => rfl
  | succ n ih =>
    rw [upFrom, ih, List.range_succ_eq_map, List.map_cons, List.map_map]
    congr 1
    refine List.map_congr_left fun i _ => ?_
    show b + 1 + i = b + (i + 1)
    omega

theorem unpack_eq (w n x : Nat) : unpack w n x = (List.range n).map fun e => x / 2 ^ (w * e) % 2 ^ w := by
  induction n generalizing x with
  | zero => rfl
  | succ n ih =>
    rw [unpack, ih, List.range_succ_eq_map, List.map_cons, List.map_map]
    simp [Function.comp_def, Nat.div_div_eq_div_mul, ← Nat.pow_add, Nat.mul_add, Nat.add_comm]

/-- The signed elements of a register in order. -/
theorem unpackS_eq {w : Nat} (hw : 0 < w) (n : Nat) (v : VReg) :
    unpackS w n v.toNat = (List.range n).map (el v w) := by
  rw [unpackS, unpack_eq, List.map_map]
  refine List.map_congr_left fun e _ => ?_
  rw [el, ← sext_toNat hw, BitVec.extractLsb'_toNat, Nat.shiftRight_eq_div_pow]
  rfl

/-- A packed list's element at a place is the list's, at its width. -/
theorem pack_div_mod (w : Nat) (xs : List Int) {e : Nat} (he : e < xs.length) :
    pack w xs / 2 ^ (w * e) % 2 ^ w = wrap xs[e] w := by
  induction xs generalizing e with
  | nil => simp at he
  | cons x xs ih =>
    have hx : wrap x w < 2 ^ w := by rw [wrap_toNat]; exact BitVec.isLt _
    rw [pack, List.foldr_cons, ← pack]
    cases e with
    | zero => simp [Nat.mod_eq_of_lt hx]
    | succ e =>
      rw [Nat.mul_succ, Nat.pow_add, Nat.mul_comm (2 ^ (w * e)), ← Nat.div_div_eq_div_mul,
        Nat.add_mul_div_left _ _ (Nat.two_pow_pos w), Nat.div_eq_of_lt hx, Nat.zero_add]
      exact ih (by simpa using he)

/-- A register packed from a list holds its elements (R16). -/
theorem elems_pack {w n : Nat} {xs : List Int} (hx : xs.length = n) (hn : n * w ≤ 2048) {f : Nat → Int}
    (hf : ∀ e (h : e < xs.length), xs[e] = f e) : Elems (.ofNat 2048 (pack w xs)) w n f := by
  intro e he
  have hle : w * e + w ≤ 2048 := by
    calc w * e + w = (e + 1) * w := by ring
      _ ≤ n * w := Nat.mul_le_mul_right _ he
      _ ≤ 2048 := hn
  apply BitVec.eq_of_toNat_eq
  rw [BitVec.extractLsb'_toNat, Nat.shiftRight_eq_div_pow, BitVec.toNat_ofNat, ← hf e (by omega), ← wrap_toNat,
    ← pack_div_mod w xs (by omega), show 2048 = w * e + (2048 - w * e) by omega, Nat.pow_add, Nat.mod_mul_right_div_self,
    Nat.mod_mod_of_dvd]
  exact pow_dvd_pow 2 (by omega)

/-- An element whose value fits its width reads back as that value. -/
theorem el_of_elems {r : VReg} {n : Nat} {f : Nat → Int} (h : Elems r 32 n f) {l : Nat} (hl : l < n)
    (h1 : -2 ^ 31 ≤ f l) (h2 : f l < 2 ^ 31) : el r 32 l = f l := by
  rw [el, h l hl]
  exact BitVec.toInt_ofInt_eq_self (by decide) h1 h2

theorem el_bounds (v : VReg) (l : Nat) : -2 ^ 31 ≤ el v 32 l ∧ el v 32 l < 2 ^ 31 :=
  ⟨BitVec.le_toInt _, BitVec.toInt_lt⟩

theorem tyWidth_pos (t : BitVec 2) : 0 < tyWidth t := by unfold tyWidth; positivity

theorem State.vbits_le (s : State) : s.vbits ≤ 2048 := by
  unfold State.vbits
  split <;> decide

theorem State.els_mul_le (s : State) (w : Nat) : s.els w * w ≤ 2048 :=
  (Nat.div_mul_le_self s.vbits w).trans s.vbits_le

/-- No width leaves a register without an element. -/
theorem State.els_tyWidth_pos (s : State) (t : BitVec 2) : 0 < s.els (tyWidth t) := by
  have ht : tyWidth t ≤ 32 := Nat.mul_le_mul_left 4 (Nat.pow_le_pow_right (by decide) (by omega : t.toNat ≤ 3))
  have hv : 512 ≤ s.vbits := by
    unfold State.vbits
    split <;> decide
  exact Nat.div_pos (by omega) (tyWidth_pos t)

theorem State.elems_eq (s : State) (a : Src) {w : Nat} (hw : 0 < w) :
    s.elems a w = (List.range (s.els w)).map (el (s.task.srcV a) w) := unpackS_eq hw _ _

theorem State.withV_allocated {s : State} {ns : List Nat} (h : s.allocated ns) (k : State → State) : s.withV ns k = k s :=
  if_pos (List.all_eq_true.2 h)

theorem State.retEls_gives (s : State) (as : List Src) (d : Dst) (lam w : Nat) (xs : List Int) :
    GivesV s ((s.touch as).retEls d lam w xs) as d lam (.ofNat 2048 (pack w xs)) := s.retV_gives as d lam _

/-- A list of results for Vd, one for each element, is what the instruction gives. -/
theorem State.retEls_elems (s : State) (as : List Src) (d : Dst) (lam w : Nat) {xs : List Int} {f : Nat → Int}
    (hx : xs = (List.range (s.els w)).map f) :
    ∃ r, Elems r w (s.els w) f ∧ GivesV s ((s.touch as).retEls d lam w xs) as d lam r :=
  ⟨_, elems_pack (by simp [hx]) (s.els_mul_le w) (by simp [hx]), s.retEls_gives as d lam w xs⟩

/-- An element-wise operation on Va gives its value of each element (R288, R304). -/
theorem State.vMap1_elems {s : State} {t : BitVec 2} {d : Dst} {a : Src} (h : s.allocated (d.reg.toNat :: Src.vName a))
    (lam : Nat) (f : Nat → Int → Int) :
    ∃ r, Elems r (tyWidth t) (s.els (tyWidth t)) (fun e => f (tyWidth t) (el (s.task.srcV a) (tyWidth t) e)) ∧
      GivesV s (s.vMap1 t d a lam f) [a] d lam r := by
  unfold State.vMap1
  rw [State.withV_allocated h, s.elems_eq a (tyWidth_pos t), List.map_map]
  exact s.retEls_elems [a] d lam _ rfl

/-- An element-wise operation on Va and Vb gives its value of each pair of elements (R288). -/
theorem State.vMap2_elems {s : State} {t : BitVec 2} {d : Dst} {a b : Src}
    (h : s.allocated (d.reg.toNat :: Src.vName a ++ Src.vName b)) (lam : Nat) (f : Nat → Int → Int → Int) :
    ∃ r, Elems r (tyWidth t) (s.els (tyWidth t))
        (fun e => f (tyWidth t) (el (s.task.srcV a) (tyWidth t) e) (el (s.task.srcV b) (tyWidth t) e)) ∧
      GivesV s (s.vMap2 t d a b lam f) [a, b] d lam r := by
  unfold State.vMap2 State.vMap3
  rw [State.withV_allocated h, s.elems_eq a (tyWidth_pos t), s.elems_eq b (tyWidth_pos t), State.oldElems,
    unpackS_eq (tyWidth_pos t)]
  refine s.retEls_elems [a, b] d lam _ (List.ext_getElem (by simp) fun e _ _ => by simp)

/-- A routine of one vector and a scalar gives its value of each lane (R307). -/
theorem State.vRoutine_elems {s : State} {d : Dst} {a : Src} (h : s.allocated (d.reg.toNat :: Src.vName a)) (b : Src)
    (lam : Nat) (f : Int → Nat → Int) :
    ∃ r, Elems r 32 (s.els 32) (fun l => f (el (s.task.srcV a) 32 l) ((s.task.srcG b).toNat % 32)) ∧
      GivesV s (s.vRoutine d a b lam f) [a, b] d lam r := by
  unfold State.vRoutine
  rw [State.withV_allocated h, s.elems_eq a (by decide), List.map_map]
  refine s.retEls_elems [a, b] d lam _ (List.map_congr_left fun l _ => ?_)
  simp [Word.f, bits]

/-- One value for all lanes (R296, R304). -/
theorem State.vRed_elems {s : State} {t : BitVec 2} {d : Dst} {a : Src} (h : s.allocated (d.reg.toNat :: Src.vName a))
    (f : Nat → List Int → Int) :
    ∃ r, Elems r 32 s.lanes (fun _ => f (tyWidth t) ((List.range (s.els (tyWidth t))).map (el (s.task.srcV a) (tyWidth t)))) ∧
      GivesV s (s.vRed t d a f) [a] d 4 r := by
  unfold State.vRed State.retAll
  rw [State.withV_allocated h, s.elems_eq a (tyWidth_pos t)]
  have hl : (s.touch [a]).lanes = s.els 32 := by
    simp [State.lanes, State.els, State.vbits, State.inRetr]
  rw [hl]
  exact s.retEls_elems [a] d 4 32 (by simp [List.map_const'])

/-! ### The least of a list -/

/-- The least element of a list that is not empty is one of its elements and none is less. -/
theorem imin_spec {xs : List Int} (h : xs ≠ []) : imin xs ∈ xs ∧ ∀ y ∈ xs, imin xs ≤ y := by
  obtain ⟨x, xs, rfl⟩ := List.exists_cons_of_ne_nil h
  have hf : (fun m y : Int => if y < m then y else m) = min := by
    funext m y
    rw [min_comm, min_def]
    split_ifs <;> omega
  refine List.min?_eq_some_iff.1 ?_
  rw [List.min?_cons', imin, hf]

/-! ### Values that fit a lane -/

/-- A value that a 32-bit lane holds. -/
abbrev Fits (x : Int) : Prop := -2 ^ 31 ≤ x ∧ x < 2 ^ 31

theorem fits_sat (x : Int) : Fits (sat x 32) := by
  rw [sat_eq_ite]
  split_ifs <;> omega

theorem sat_of_le {x : Int} (h : 2 ^ 31 - 1 ≤ x) : sat x 32 = 2 ^ 31 - 1 := by
  rw [sat_eq_ite]
  split_ifs <;> omega

/-- A shift to nearest of a value from 0 up gives one from 0 up that is not larger but for a round up. -/
theorem rneShift_bounds {x : Int} (hx : 0 ≤ x) (n : Nat) : 0 ≤ rneShift x n ∧ rneShift x n ≤ x + 1 := by
  have h0 : 0 ≤ floorShift x n := Int.ediv_nonneg hx (by positivity)
  have h1 : floorShift x n ≤ x := Int.ediv_le_self _ hx
  unfold rneShift
  dsimp only
  split_ifs <;> omega

/-- A shift by so much that less than half a unit is left gives 0. -/
theorem rneShift_eq_zero {x : Int} (hx : 0 ≤ x) {n : Nat} (hn : 0 < n) (h : x < 2 ^ (n - 1)) : rneShift x n = 0 := by
  have hp : (2 : Int) ^ (n - 1) ≤ 2 ^ n := pow_le_pow_right₀ (by decide) (by omega)
  have hq : floorShift x n = 0 := by
    rw [floorShift_def]
    exact Int.ediv_eq_zero_of_lt hx (by omega)
  rw [rneShift, if_neg (by omega), hq]
  push_cast
  rw [if_neg (by omega)]

/-! ### The power of two (R306, R308) -/

/-- The mantissa of R308: table T at the high 6 of the f fraction bits fr, interpolated by the lower ones. -/
def exp2Man (fr f : Nat) : Nat :=
  let i := fr * 64 / 2 ^ f
  let low := if 6 ≤ f then fr % 2 ^ (f - 6) else 0
  tabT.getD i 0 + (tabT.getD (i + 1) 0 - tabT.getD i 0) * low / 2 ^ (f - 6)

theorem exp2Parts_eq (x : Int) (f : Nat) : exp2Parts x f = (x / 2 ^ f, exp2Man (x % 2 ^ f).toNat f) := by
  have hx : x - shl (floorShift x f) f = x % 2 ^ f := by
    rw [floorShift_def, shl, Int.emod_def, mul_comm]
    push_cast
    rfl
  unfold exp2Parts exp2Man
  dsimp only
  rw [hx, floorShift_def]
  by_cases hf : 6 ≤ f
  · have hi : (x % 2 ^ f).toNat * 64 / 2 ^ f = (x % 2 ^ f).toNat / 2 ^ (f - 6) := by
      rw [show 2 ^ f = 2 ^ (f - 6) * 64 by rw [show 64 = 2 ^ 6 from rfl, ← Nat.pow_add]; congr 1; omega]
      exact Nat.mul_div_mul_right _ _ (by decide)
    simp only [if_pos hf, hi]
    rw [Nat.mod_eq_sub_div_mul]
  · have hi : (x % 2 ^ f).toNat * 64 / 2 ^ f = (x % 2 ^ f).toNat * 2 ^ (6 - f) := by
      rw [show 64 = 2 ^ (6 - f) * 2 ^ f by rw [← Nat.pow_add, show 6 - f + f = 6 by omega], ← Nat.mul_assoc]
      exact Nat.mul_div_cancel _ (Nat.two_pow_pos f)
    simp only [if_neg hf, hi]

/-- Interpolation between two table values stays between them. -/
theorem interpolate_le {a b low n : Nat} (hab : a ≤ b) (hlow : low ≤ n) : a + (b - a) * low / n ≤ b := by
  have : (b - a) * low / n ≤ b - a := Nat.div_le_of_le_mul (by rw [Nat.mul_comm n]; exact Nat.mul_le_mul_left _ hlow)
  omega

theorem tabT_bounds : ∀ i < 64, 16384 ≤ tabT.getD i 0 ∧ tabT.getD i 0 ≤ tabT.getD (i + 1) 0 ∧ tabT.getD (i + 1) 0 ≤ 32768 := by
  decide

theorem exp2Man_bounds {fr f : Nat} (h : fr < 2 ^ f) : 16384 ≤ exp2Man fr f ∧ exp2Man fr f ≤ 32768 := by
  have hi : fr * 64 / 2 ^ f < 64 := Nat.div_lt_of_lt_mul (Nat.mul_lt_mul_of_pos_right h (by decide))
  obtain ⟨h1, h2, h3⟩ := tabT_bounds _ hi
  have hlow : (if 6 ≤ f then fr % 2 ^ (f - 6) else 0) ≤ 2 ^ (f - 6) := by
    split
    · exact (Nat.mod_lt _ (Nat.two_pow_pos _)).le
    · exact Nat.zero_le _
  exact ⟨h1.trans (Nat.le_add_right _ _), (interpolate_le h2 hlow).trans h3⟩

theorem exp2Man_emod_bounds (x : Int) (f : Nat) :
    16384 ≤ exp2Man (x % 2 ^ f).toNat f ∧ exp2Man (x % 2 ^ f).toNat f ≤ 32768 := by
  refine exp2Man_bounds ?_
  have h0 : (0 : Int) < 2 ^ f := by positivity
  have h1 := Int.emod_nonneg x h0.ne'
  have h2 := Int.emod_lt_of_pos x h0
  zify
  rwa [Int.toNat_of_nonneg h1]

/-- The packed form holds the exponent, saturated, above the mantissa (R308). -/
theorem exp2Packed_eq (x : Int) (f : Nat) :
    exp2Packed x f = sat (x / 2 ^ f) 16 * 2 ^ 16 + exp2Man (x % 2 ^ f).toNat f ∧ Fits (exp2Packed x f) := by
  obtain ⟨h1, h2⟩ := exp2Man_emod_bounds x f
  have hs : -2 ^ 15 ≤ sat (x / 2 ^ f) 16 ∧ sat (x / 2 ^ f) 16 < 2 ^ 15 := by
    rw [sat_eq_ite]
    split_ifs <;> omega
  rw [exp2Packed, exp2Parts_eq]
  dsimp only
  generalize exp2Man (x % 2 ^ f).toNat f = m at *
  generalize sat (x / 2 ^ f) 16 = n at *
  unfold Fits sext wrap
  dsimp only
  split_ifs <;> omega

/-- Beyond 40 places the .Q form saturates, or vanishes, in any case (R308). -/
theorem exp2Q_eq (x : Int) (f : Nat) :
    exp2Q x f = (if 0 ≤ x / 2 ^ f then sat (exp2Man (x % 2 ^ f).toNat f * 2 ^ (x / 2 ^ f).toNat) 32
      else rneShift (exp2Man (x % 2 ^ f).toNat f) (-(x / 2 ^ f)).toNat) ∧ Fits (exp2Q x f) := by
  obtain ⟨h1, h2⟩ := exp2Man_emod_bounds x f
  rw [exp2Q, exp2Parts_eq]
  dsimp only
  generalize exp2Man (x % 2 ^ f).toNat f = m at *
  generalize x / 2 ^ f = n at *
  split_ifs with hn
  · refine ⟨?_, fits_sat _⟩
    rcases Nat.le_total n.toNat 40 with h | h
    · rw [show Nat.min n.toNat 40 = n.toNat from Nat.min_eq_left h, shl]
      push_cast
      rfl
    · have hp : (2 : Int) ^ 40 ≤ 2 ^ n.toNat := pow_le_pow_right₀ (by decide) h
      rw [show Nat.min n.toNat 40 = 40 from Nat.min_eq_right h, shl, sat_of_le (by push_cast; omega), sat_of_le (by nlinarith)]
  · have hb := rneShift_bounds (x := (m : Int)) (by omega) (Nat.min (-n).toNat 40)
    refine ⟨?_, by unfold Fits; omega⟩
    rcases Nat.le_total (-n).toNat 40 with h | h
    · rw [show Nat.min (-n).toNat 40 = (-n).toNat from Nat.min_eq_left h]
    · have hp : (2 : Int) ^ 39 ≤ 2 ^ ((-n).toNat - 1) := pow_le_pow_right₀ (by decide) (by omega)
      rw [show Nat.min (-n).toNat 40 = 40 from Nat.min_eq_right h, rneShift_eq_zero (by omega) (by decide) (by omega),
        rneShift_eq_zero (by omega) (by omega) (by omega)]

/-! ### Normalisation of a positive lane (R43, R309, R310) -/

theorem lt_two_pow_bitLen {n x : Nat} (hx : x < 2 ^ n) : x < 2 ^ bitLen n x := by
  refine Nat.lt_pow_two_of_testBit x fun i hi => ?_
  rcases Nat.lt_or_ge i n with h | h
  · exact testBit_of_bitLen_le hi h
  · exact Nat.testBit_lt_two_pow (hx.trans_le (Nat.pow_le_pow_right (by decide) h))

/-- The redundant sign bits of a positive lane place its highest set bit. -/
theorem rsb_pos {x : Int} (h0 : 0 < x) (h1 : x < 2 ^ 31) :
    rsb x 32 ≤ 30 ∧ 2 ^ (30 - rsb x 32) ≤ x.toNat ∧ x.toNat < 2 ^ (30 - rsb x 32 + 1) := by
  obtain ⟨k, rfl⟩ := Int.eq_ofNat_of_zero_le h0.le
  have hk : k < 2 ^ 31 := by exact_mod_cast h1
  have hy : (k : Int) = (BitVec.ofNat 32 k).toInt := by
    have hn : (BitVec.ofNat 32 k).toNat = k := by rw [BitVec.toNat_ofNat, Nat.mod_eq_of_lt (by omega)]
    rw [BitVec.toInt_eq_toNat_of_lt (by omega), hn]
  have hs : signDiff (BitVec.ofNat 32 k) = k := by
    have : (BitVec.ofNat 32 k).getLsbD 31 = false := by
      rw [BitVec.getLsbD_ofNat, Nat.testBit_lt_two_pow hk, Bool.and_false]
    rw [signDiff, this, if_neg (by decide), BitVec.toNat_ofNat, Nat.mod_eq_of_lt (by omega)]
  have hr : rsb k 32 = 31 - bitLen 32 k := by
    have := rsb_toInt (BitVec.ofNat 32 k)
    rwa [hs, ← hy] at this
  have hlt := lt_two_pow_bitLen (n := 32) (x := k) (by omega)
  have hle : bitLen 32 k ≤ 31 := by
    have := bitLen_signDiff_lt (BitVec.ofNat 32 k) (by decide)
    rwa [hs] at this
  have hpos : 0 < bitLen 32 k := by
    by_contra h
    rw [show bitLen 32 k = 0 by omega] at hlt
    omega
  rw [hr, show 30 - (31 - bitLen 32 k) = bitLen 32 k - 1 by omega, Nat.sub_add_cancel hpos]
  exact ⟨by omega, Nat.ge_two_pow_of_testBit (testBit_bitLen_sub_one hpos), hlt⟩

/-! ### The logarithm (R309) -/

theorem tabL_bounds : ∀ i < 64, tabL.getD i 0 ≤ tabL.getD (i + 1) 0 ∧ tabL.getD (i + 1) 0 ≤ 65536 := by
  decide

/-- The fraction of R309: table L at the high 6 of the 15 bits u, interpolated by the lower 9. -/
def log2Frac (u : Nat) : Nat :=
  tabL.getD (u / 512) 0 + (tabL.getD (u / 512 + 1) 0 - tabL.getD (u / 512) 0) * (u % 512) / 512

theorem log2Frac_le {u : Nat} (h : u < 2 ^ 15) : log2Frac u ≤ 65536 := by
  obtain ⟨h1, h2⟩ := tabL_bounds (u / 512) (by omega)
  exact (interpolate_le h1 (Nat.mod_lt u (by decide)).le).trans h2

/-- The 15 bits below a value's highest set bit, at place p. -/
theorem normalised_eq (x p : Nat) :
    (if 15 ≤ p then x / 2 ^ (p - 15) else x * 2 ^ (15 - p)) = x * 2 ^ 15 / 2 ^ p := by
  split
  · next h =>
    rw [show 2 ^ p = 2 ^ (p - 15) * 2 ^ 15 by rw [← Nat.pow_add, Nat.sub_add_cancel h]]
    exact (Nat.mul_div_mul_right _ _ (by decide)).symm
  · next h =>
    rw [show 2 ^ 15 = 2 ^ (15 - p) * 2 ^ p by rw [← Nat.pow_add, show 15 - p + p = 15 by omega], ← Nat.mul_assoc]
    exact (Nat.mul_div_cancel _ (Nat.two_pow_pos p)).symm

theorem log2Lane_pos {x : Int} (h0 : 0 < x) (f : Nat) : log2Lane x f =
    rneShift ((30 - rsb x 32 : Nat) * 2 ^ 16 + log2Frac (x.toNat * 2 ^ 15 / 2 ^ (30 - rsb x 32) - 2 ^ 15)) (16 - f) := by
  rw [log2Lane, if_neg (by omega)]
  dsimp only
  rw [normalised_eq, log2Frac, ← Nat.mod_eq_sub_div_mul]
  push_cast
  rfl

/-- The logarithm of a lane: -2^31 where it is not positive, else the place of its highest bit and the fraction, rounded (R309). -/
theorem log2Lane_spec {x : Int} (h1 : x < 2 ^ 31) (f : Nat) :
    (if x ≤ 0 then log2Lane x f = -2 ^ 31 else
      let p := 30 - rsb x 32
      2 ^ p ≤ x.toNat ∧ x.toNat < 2 ^ (p + 1) ∧
        log2Lane x f = rneShift (p * 2 ^ 16 + log2Frac (x.toNat * 2 ^ 15 / 2 ^ p - 2 ^ 15)) (16 - f)) ∧
      Fits (log2Lane x f) := by
  split_ifs with hx
  · have he : log2Lane x f = -2 ^ 31 := if_pos hx
    exact ⟨he, by rw [he]; constructor <;> omega⟩
  · obtain ⟨hr, hl, hu⟩ := rsb_pos (not_le.1 hx) h1
    have he := log2Lane_pos (not_le.1 hx) f
    refine ⟨⟨hl, hu, he⟩, ?_⟩
    have hq : x.toNat * 2 ^ 15 / 2 ^ (30 - rsb x 32) < 2 ^ 16 := by
      refine Nat.div_lt_of_lt_mul ?_
      rw [pow_succ] at hu
      omega
    have hf := log2Frac_le (show x.toNat * 2 ^ 15 / 2 ^ (30 - rsb x 32) - 2 ^ 15 < 2 ^ 15 by omega)
    have hb := rneShift_bounds (x := (30 - rsb x 32 : Nat) * 2 ^ 16
      + (log2Frac (x.toNat * 2 ^ 15 / 2 ^ (30 - rsb x 32) - 2 ^ 15) : Int)) (by positivity) (16 - f)
    rw [he]
    constructor <;> omega

/-! ### Reciprocal, reciprocal root and quotient (R310) -/

/-- The reciprocal of a lane (R310). -/
theorem rcpLane_spec (x : Int) : (if x ≤ 0 then rcpLane x = 0 else
    rcpLane x = min (2 ^ 61 / (x * 2 ^ rsb x 32)) (2 ^ 31 - 1)) ∧ Fits (rcpLane x) := by
  split_ifs with hx
  · have he : rcpLane x = 0 := if_pos hx
    exact ⟨he, by rw [he]; constructor <;> omega⟩
  · have he : rcpLane x = min (2 ^ 61 / (x * 2 ^ rsb x 32)) (2 ^ 31 - 1) := by
      rw [rcpLane, if_neg hx, show Nat.min = min from rfl]
      push_cast
      rw [Int.toNat_of_nonneg (by omega)]
    have hn : 0 ≤ 2 ^ 61 / (x * 2 ^ rsb x 32) :=
      Int.ediv_nonneg (by positivity) (Int.mul_nonneg (by omega) (by positivity))
    refine ⟨he, ?_⟩
    rw [he]
    constructor <;> omega

/-- The search bit by bit keeps the root between its bounds. -/
theorem rootBelow_spec {m lim : Nat} (n : Nat) {y : Nat} (h1 : y * y * m ≤ lim) (h2 : lim < (y + 2 ^ n) * (y + 2 ^ n) * m) :
    let r := rootBelow n m lim y
    r * r * m ≤ lim ∧ lim < (r + 1) * (r + 1) * m := by
  induction n generalizing y with
  | zero => exact ⟨h1, h2⟩
  | succ n ih =>
    unfold rootBelow
    dsimp only
    split
    · next h => exact ih h (by rwa [show y + 2 ^ n + 2 ^ n = y + 2 ^ (n + 1) by rw [pow_succ]; omega])
    · next h => exact ih h1 (by omega)

/-- The reciprocal root is the greatest integer whose square times the mantissa stays in 2^62 (R310). -/
theorem invRoot_spec {m : Nat} (hm : 0 < m) :
    invRoot m * invRoot m * m ≤ 2 ^ 62 ∧ 2 ^ 62 < (invRoot m + 1) * (invRoot m + 1) * m :=
  rootBelow_spec 32 (by simp) (by omega)

/-- The reciprocal root of a lane, over its mantissa at an even power of two (R310). -/
theorem rsqLane_spec {x : Int} (h1 : x < 2 ^ 31) : (if x ≤ 0 then rsqLane x = 0 else
    let m : Nat := x.toNat * 2 ^ (rsb x 32 / 2 * 2)
    0 ≤ rsqLane x ∧ rsqLane x * rsqLane x * m ≤ 2 ^ 62 ∧ 2 ^ 62 < (rsqLane x + 1) * (rsqLane x + 1) * m) ∧
    Fits (rsqLane x) := by
  split_ifs with hx
  · have he : rsqLane x = 0 := if_pos hx
    exact ⟨he, by rw [he]; constructor <;> omega⟩
  · obtain ⟨hr, hl, -⟩ := rsb_pos (not_le.1 hx) h1
    have he : rsqLane x = invRoot (x.toNat * 2 ^ (rsb x 32 / 2 * 2)) := by rw [rsqLane, if_neg hx]
    have hm : 2 ^ 29 ≤ x.toNat * 2 ^ (rsb x 32 / 2 * 2) := by
      calc 2 ^ 29 ≤ 2 ^ (30 - rsb x 32 + rsb x 32 / 2 * 2) := Nat.pow_le_pow_right (by decide) (by omega)
        _ = 2 ^ (30 - rsb x 32) * 2 ^ (rsb x 32 / 2 * 2) := Nat.pow_add ..
        _ ≤ _ := Nat.mul_le_mul_right _ hl
    rw [he]
    dsimp only
    generalize x.toNat * 2 ^ (rsb x 32 / 2 * 2) = m at *
    obtain ⟨h3, h4⟩ := invRoot_spec (m := m) (by omega)
    refine ⟨⟨by positivity, by exact_mod_cast h3, by exact_mod_cast h4⟩, ?_⟩
    have : invRoot m < 2 ^ 31 := by
      by_contra h
      have : 2 ^ 31 * 2 ^ 31 * 2 ^ 29 ≤ invRoot m * invRoot m * m :=
        Nat.mul_le_mul (Nat.mul_le_mul (by omega) (by omega)) hm
      omega
    constructor <;> omega

/-- The quotient of two lanes (R310). -/
theorem divqLane_spec (a b : Int) : (if b = 0 then divqLane a b = (if 0 ≤ a then 2 ^ 31 - 1 else -2 ^ 31)
    else divqLane a b = sat (Int.fdiv (a * 2 ^ 15) b) 32) ∧ Fits (divqLane a b) := by
  unfold divqLane
  split_ifs
  · exact ⟨rfl, by constructor <;> omega⟩
  · exact ⟨rfl, by constructor <;> omega⟩
  · exact ⟨rfl, fits_sat _⟩

/-! ### The vector instructions of R304 to R310 -/

/-- Where the registers named are allocated, the instruction gives lanes of which g holds. -/
def GivesLanes (s : State) (d : Dst) (i : Instr) (as names : List Src) (lam : Nat) (g : Nat → Int → Prop) : Prop :=
  s.allocated (d.reg.toNat :: names.flatMap Src.vName) → ∃ r, (∀ l < s.lanes, g l (el r 32 l)) ∧
    Completes i s (fun t => GivesV s t as d lam r)

/-- A routine whose value fits every lane gives each lane that value, and what the value satisfies holds of the lane. -/
theorem givesLanes_of_elems {i : Instr} {s t : State} {as names : List Src} {d : Dst} {lam : Nat} {f : Nat → Int}
    {g : Nat → Int → Prop} (he : exec i s = .next t)
    (hr : s.allocated (d.reg.toNat :: names.flatMap Src.vName) → ∃ r, Elems r 32 (s.els 32) f ∧ GivesV s t as d lam r)
    (hg : ∀ l, g l (f l) ∧ Fits (f l)) : GivesLanes s d i as names lam g := by
  intro h
  obtain ⟨r, hel, ht⟩ := hr h
  refine ⟨r, fun l hl => ?_, t, he, ht⟩
  obtain ⟨h, h1, h2⟩ := hg l
  rwa [el_of_elems hel hl h1 h2]

theorem vcls_completes {s : State} {ty : BitVec 2} {d : Dst} {a : Src} (h : s.allocated (d.reg.toNat :: Src.vName a)) :
    ∃ r, Elems r (tyWidth ty) (s.els (tyWidth ty)) (fun e => rsb (el (s.task.srcV a) (tyWidth ty) e) (tyWidth ty)) ∧
      Completes (.vcls ty d a) s (fun t => GivesV s t [a] d 2 r) := by
  obtain ⟨r, hel, ht⟩ := State.vMap1_elems (t := ty) h 2 fun w x => (rsb x w : Int)
  exact ⟨r, hel, _, rfl, ht⟩

/-- The redundant sign bits of an element are fewer than its width. -/
theorem rsb_el_le (v : VReg) {w : Nat} (hw : 0 < w) (e : Nat) : rsb (el v w e) w ≤ w - 1 := (rsb_spec _ hw).1

theorem vclsMin_completes {s : State} {ty : BitVec 2} {d : Dst} {a : Src} (h : s.allocated (d.reg.toNat :: Src.vName a)) :
    let w := tyWidth ty
    let bits (e : Nat) : Nat := rsb (el (s.task.srcV a) w e) w
    ∃ r : VReg, ∃ m < s.els w, (∀ e < s.els w, bits m ≤ bits e) ∧
      (∀ l < s.lanes, el r 32 l = bits m) ∧ Completes (.vclsMin ty d a) s (fun t => GivesV s t [a] d 4 r) := by
  intro w bits
  obtain ⟨r, hel, ht⟩ := State.vRed_elems (t := ty) h fun w xs => imin (xs.map fun x => (rsb x w : Int))
  have hne : (((List.range (s.els w)).map (el (s.task.srcV a) w)).map fun x => (rsb x w : Int)) ≠ [] := by
    simpa using (s.els_tyWidth_pos ty).ne'
  obtain ⟨hmem, hle⟩ := imin_spec hne
  simp only [List.mem_map, List.mem_range, forall_exists_index, and_imp, forall_apply_eq_imp_iff₂] at hmem hle
  obtain ⟨_, ⟨m, hm, rfl⟩, hmin⟩ := hmem
  rw [← hmin] at hle
  refine ⟨r, m, hm, fun e he => by exact_mod_cast hle e he, fun l hl => ?_, _, rfl, ht⟩
  have hb : bits m < 2 ^ 31 := by
    have h1 : bits m ≤ w - 1 := rsb_el_le _ (tyWidth_pos ty) m
    have h2 : w ≤ 32 := Nat.mul_le_mul_left 4 (Nat.pow_le_pow_right (by decide) (by omega : ty.toNat ≤ 3))
    omega
  have hv : imin (((List.range (s.els w)).map (el (s.task.srcV a) w)).map fun x => (rsb x w : Int)) = bits m := hmin.symm
  rw [el_of_elems hel hl] <;> rw [hv] <;> omega

/-- Settles O24: the helpers by their own lemmas, each routine by the value and the range of its lane. -/
theorem numericHelpersAndExactRoutines : Obligations.NumericHelpersAndExactRoutines := by
  refine ⟨⟨fun x w _ => sat_eq_ite x, tzShift_eq_ite, rneShift_nearest, fun x n k _ => ⟨rfl, fun h0 h => ?_, fun h => ?_⟩,
    fun w y hw => rsb_spec y hw⟩, fun s ty d a b => ?_⟩
  · rw [stoShift_eq x h0, if_pos h]
  · rw [stoShift_eq x (by omega), if_neg (by omega)]
  have hv (l : Nat) := el_bounds (s.task.srcV a) l
  intro w v y f lanes nn fr man root
  have lanes_of {i : Instr} {as names : List Src} {lam : Nat} {g : Nat → Int → Prop} (h : GivesLanes s d i as names lam g) :
      lanes i as names lam g := h
  clear_value lanes
  refine ⟨fun h => ⟨vcls_completes h, vclsMin_completes h⟩, lanes_of ?_, lanes_of ?_, lanes_of ?_, lanes_of ?_, lanes_of ?_,
    lanes_of ?_⟩
  · exact givesLanes_of_elems rfl (fun h => State.vRoutine_elems (by simpa using h) b 4 exp2Packed) fun l => exp2Packed_eq _ _
  · exact givesLanes_of_elems rfl (fun h => State.vRoutine_elems (by simpa using h) b 4 exp2Q) fun l => exp2Q_eq _ _
  · exact givesLanes_of_elems rfl (fun h => State.vRoutine_elems (by simpa using h) b 4 _) fun l => log2Lane_spec (hv l).2 _
  · exact givesLanes_of_elems rfl (fun h => State.vMap1_elems (t := 3) (by simpa using h) 6 _) fun l => rcpLane_spec _
  · exact givesLanes_of_elems rfl (fun h => State.vMap1_elems (t := 3) (by simpa using h) 6 _) fun l => rsqLane_spec (hv l).2
  · exact givesLanes_of_elems rfl (fun h => State.vMap2_elems (t := 3) (by simpa using h) 8 _) fun l => divqLane_spec _ _

end Sys2Proof.Machine
end

section
/-! Stores of a task whose memory port is clear, page tables in LPDDR6, and the noise log of R34. -/

namespace Sys2Proof.Machine

/-! ### What a write of several bytes leaves in memory -/

theorem Mem.rd_foldl_wr_congr {m m' : Mem} (h : ∀ k, m.rd k = m'.rd k) (xs : List (Loc × Byte)) (k : Loc) :
    (xs.foldl (fun m x => m.wr x.1 x.2) m).rd k = (xs.foldl (fun m x => m.wr x.1 x.2) m').rd k := by
  induction xs generalizing m m' with
  | nil => exact h k
  | cons x xs ih =>
    refine ih fun j => ?_
    rw [Mem.rd_wr, Mem.rd_wr, h j]

/-- Two writes in turn read as one write of both. -/
theorem Mem.rd_wrAll_append (m : Mem) (xs ys : List (Loc × Byte)) (k : Loc) :
    ((m.wrAll xs).wrAll ys).rd k = (m.wrAll (xs ++ ys)).rd k := by
  rw [Mem.wrAll, Mem.wrAll, Mem.wrAll, Mem.rd_heal, Mem.rd_heal, List.foldl_append]
  exact Mem.rd_foldl_wr_congr (fun _ => Mem.rd_heal _ _ _) ys k

/-! ### A store through a clear port (R108, R110, R111) -/

theorem State.older_of_clearPort {s : State} (h : s.clearPort) (k : Nat) :
    s.older s.unit k = ⟨[], [], [], [], false, false, false⟩ := by
  obtain ⟨-, hheld, hside, hsent, hbar, -, -⟩ := h
  have h1 : (s.held.filter fun h => s.unit.inOrder && h.unit == s.unit && h.id < k && h.ordered && s.polls h) = [] :=
    List.filter_eq_nil_iff.2 fun h hm => by simp [(hheld h hm).1]
  have h2 : (s.barq.filter fun a => a.unit == s.unit && a.id < k) = [] :=
    List.filter_eq_nil_iff.2 fun a ha => by simp [hbar a ha]
  have h3 : (s.held.any fun h => h.req.isStore && h.unit.logKey == s.unit.logKey && h.id < k) = false :=
    List.any_eq_false.2 fun h hm => by simp [(hheld h hm).2]
  simp [State.older, hside, hsent, h1, h2, h3]

theorem State.kick_of_clearPort {s : State} (h : s.clearPort) (t : State) (ht : t.rts = s.rts) (before : State) (src : Nat)
    (u : Nat × Nat) (ias : List Nat) : t.kick before src u ias = t := by
  obtain ⟨-, -, -, -, -, hk, -⟩ := h
  refine List.foldlRecOn (motive := fun u => u = t) t.rts _ rfl fun v hv rt hrt => ?_
  have hb : rt.2.kick.b 63 = false := hk rt (ht ▸ hrt)
  dsimp only
  rw [if_neg (by simp [hb]), hv]

theorem State.demote_of_clearPort {s : State} (h : s.clearPort) (u : UnitId) (ctx : Nat) (ls : List ByteLook) :
    s.demote u ctx ls = s := by
  cases u <;> simp [State.demote, h.1]

/-- Runs of one write that lie one after the other from an offset on, all to be performed at once. -/
def WRunsFrom : Nat → List WRun → Prop
  | _, [] => True
  | i, r :: rs => r.cls = .write ∧ r.off = i ∧ WRunsFrom (i + r.looks.length) rs

theorem wRunsFrom_append {i : Nat} {xs ys : List WRun} :
    WRunsFrom i (xs ++ ys) ↔ WRunsFrom i xs ∧ WRunsFrom (i + (xs.flatMap WRun.looks).length) ys := by
  induction xs generalizing i with
  | nil => simp [WRunsFrom]
  | cons x xs ih => simp [WRunsFrom, ih, and_assoc, Nat.add_assoc]

/-- A byte to be performed joins the last run or begins one: the runs still lie one after the other. -/
theorem wRunsFrom_addWRun {same : ByteLook → ByteLook → Bool} {acc : List WRun} {b : ByteLook}
    (h : WRunsFrom 0 acc.reverse) (hb : b.off = (acc.reverse.flatMap WRun.looks).length) :
    WRunsFrom 0 (addWRun same acc (.write, b)).reverse ∧
      (addWRun same acc (.write, b)).reverse.flatMap WRun.looks = acc.reverse.flatMap WRun.looks ++ [b] := by
  cases acc with
  | nil => simp_all [addWRun, WRunsFrom]
  | cons r rest =>
    rw [List.reverse_cons, wRunsFrom_append] at h
    obtain ⟨hrest, hr1, hr2, -⟩ := h
    rw [addWRun]
    dsimp only
    split
    · simp [wRunsFrom_append, WRunsFrom, hrest, hr1, hr2]
    · simp_all [wRunsFrom_append, WRunsFrom]

theorem wRunsFrom_foldl {same : ByteLook → ByteLook → Bool} {n : Nat} {ls : List ByteLook} {acc : List WRun}
    (h : WRunsFrom 0 acc.reverse) (hn : (acc.reverse.flatMap WRun.looks).length = n)
    (hls : ∀ i b, ls[i]? = some b → b.off = n + i) :
    let runs := ((ls.map fun b => (WClass.write, b)).foldl (addWRun same) acc).reverse
    WRunsFrom 0 runs ∧ runs.flatMap WRun.looks = acc.reverse.flatMap WRun.looks ++ ls := by
  induction ls generalizing acc n with
  | nil => simpa using h
  | cons b ls ih =>
    obtain ⟨h1, h2⟩ := wRunsFrom_addWRun (same := same) (b := b) h (by rw [hls 0 b rfl, hn, Nat.add_zero])
    obtain ⟨h3, h4⟩ := ih h1 (n := n + 1) (by rw [h2, List.length_append, hn, List.length_singleton])
      fun i x hx => by rw [hls (i + 1) x (by simpa using hx)]; omega
    exact ⟨h3, by rw [List.map_cons, List.foldl_cons, h4, h2, List.append_assoc, List.singleton_append]⟩

/-- Bytes of which none must wait keep their classes (R126). -/
theorem wholeUnits_replicate_write (va n : Nat) : wholeUnits va (List.replicate n .write) = List.replicate n .write := by
  rw [wholeUnits]
  refine List.eq_replicate_iff.2 ⟨by simp [upFrom_eq], fun c hc => ?_⟩
  obtain ⟨⟨x, i⟩, hx, rfl⟩ := List.mem_map.1 hc
  obtain rfl : x = .write := List.eq_of_mem_replicate (List.of_mem_zip hx).1
  simp

/-- The bytes whose looks are these are served from memory and lie at these places. -/
def LooksAt (looks : List ByteLook) (ls : List Loc) : Prop := looks.map (fun b => b.look.loc?) = ls.map some

theorem LooksAt.locs {looks : List ByteLook} {ls : List Loc} (h : LooksAt looks ls) :
    looks.filterMap (fun b => b.look.loc?) = ls := by
  have := congrArg (List.filterMap id) h
  simpa [List.filterMap_map, Function.comp_def] using this

theorem LooksAt.of_mem {looks : List ByteLook} {ls : List Loc} (h : LooksAt looks ls) {b : ByteLook} (hb : b ∈ looks) :
    ∃ l kind, b.look = .mem l kind := by
  have hm : b.look.loc? ∈ ls.map some := h ▸ List.mem_map_of_mem hb
  obtain ⟨l, -, hl⟩ := List.mem_map.1 hm
  cases hk : b.look with
  | mem l kind => exact ⟨l, kind, rfl⟩
  | _ => simp [hk, Look.loc?] at hl

/-- The places of a first part of the bytes and of the rest. -/
theorem LooksAt.append {xs ys : List ByteLook} {ls : List Loc} (h : LooksAt (xs ++ ys) ls) :
    LooksAt xs (ls.take xs.length) ∧ LooksAt ys (ls.drop xs.length) := by
  unfold LooksAt at *
  rw [List.map_take, List.map_drop, ← h]
  simp

theorem looksAt_looks {s : State} {va : Word} {ls : List Loc} (h : s.spans va .write ls) :
    LooksAt (s.looks s.unit s.task.place.ctx va ls.length .write) ls := by
  refine List.ext_getElem (by simp [State.looks, upFrom_eq]) fun i hi hl => ?_
  obtain ⟨kind, m, ia, hk⟩ := h i (ls[i]'(by simpa using hl)) (List.getElem?_eq_getElem _)
  simp [State.looks, upFrom_eq, hk, Look.loc?]

/-- Through a clear port every byte served from memory is written at once. -/
theorem writeRuns_of_clearPort {s : State} (h : s.clearPort) {looks : List ByteLook} {ls : List Loc} (hl : LooksAt looks ls)
    (ho : ∀ (i : Nat) (b : ByteLook), looks[i]? = some b → b.off = i) (ctx : Nat) (va : Word) (dev : Bool) (k : Nat) :
    WRunsFrom 0 (s.writeRuns ctx s.unit va dev false k looks) ∧
      (s.writeRuns ctx s.unit va dev false k looks).flatMap WRun.looks = looks := by
  have hc : looks.map (s.wClass (s.older s.unit k) dev false) = List.replicate looks.length .write := by
    refine List.eq_replicate_iff.2 ⟨by simp, fun c hc => ?_⟩
    obtain ⟨b, hb, rfl⟩ := List.mem_map.1 hc
    obtain ⟨l, kind, hk⟩ := hl.of_mem hb
    simp [State.wClass, hk, State.older_of_clearPort h, Older.blocks]
  have hz : (List.replicate looks.length WClass.write).zip looks = looks.map fun b => (WClass.write, b) :=
    List.ext_getElem (by simp) fun i _ _ => by simp
  rw [State.writeRuns, hc, wholeUnits_replicate_write, hz]
  exact wRunsFrom_foldl (n := 0) (acc := []) trivial rfl (by simpa using ho)

theorem writeRun_of_clearPort {s : State} (h : s.clearPort) (m : Mem) {r : WRun} (hr : r.cls = .write) (ctx : Nat) (va : Word)
    (bs : List Byte) (rel : Bool) (k : Nat) : (s.withMem m s.nextId).writeRun ctx s.unit va bs [] rel k r =
      (s.withMem (m.wrAll ((r.looks.filterMap fun b => b.look.loc?).zip ((bs.drop r.off).take r.looks.length))) s.nextId, []) := by
  rw [State.writeRun, hr]
  dsimp only
  exact congrArg (fun t => (t, [])) (State.kick_of_clearPort h _ (by rfl) _ _ _ _)

/-- One run of a write after the other: memory takes the bytes, and nothing else of the state changes. -/
theorem foldl_writeRun_of_clearPort {s : State} (h : s.clearPort) (ctx : Nat) (va : Word) (bs : List Byte) (rel : Bool) (k : Nat)
    {step : State × List Report × List Nat → WRun → State × List Report × List Nat}
    (hstep : ∀ (t : State) (r : WRun), r.cls = .write →
      step (t, [], []) r = ((t.writeRun ctx s.unit va bs [] rel k r).1, [], []))
    (runs : List WRun) {i : Nat} (hr : WRunsFrom i runs) {ls : List Loc} (hl : LooksAt (runs.flatMap WRun.looks) ls)
    (hb : ls.length = (bs.drop i).length) (m : Mem) :
    ∃ m', runs.foldl step (s.withMem m s.nextId, [], []) = (s.withMem m' s.nextId, [], []) ∧
      ∀ l, m'.rd l = (m.wrAll (ls.zip (bs.drop i))).rd l := by
  induction runs generalizing i ls m with
  | nil =>
    obtain rfl : ls = [] := List.map_eq_nil_iff.1 hl.symm
    exact ⟨m, rfl, fun l => by simp [Mem.wrAll]⟩
  | cons r runs ih =>
    obtain ⟨hcls, hoff, hrest⟩ := hr
    rw [List.flatMap_cons] at hl
    obtain ⟨h1, h2⟩ := LooksAt.append hl
    have hb' : (ls.drop r.looks.length).length = (bs.drop (i + r.looks.length)).length := by
      rw [← List.drop_drop, List.length_drop, List.length_drop, hb]
    obtain ⟨m', hm', hrd⟩ := ih hrest h2 hb' (m.wrAll ((ls.take r.looks.length).zip ((bs.drop i).take r.looks.length)))
    refine ⟨m', ?_, fun l => ?_⟩
    · rw [List.foldl_cons, hstep _ _ hcls, writeRun_of_clearPort h m hcls, h1.locs, hoff]
      exact hm'
    · rw [hrd, Mem.rd_wrAll_append, ← List.drop_drop, ← List.zip_append (by simp [hb]), List.take_append_drop,
        List.take_append_drop]

theorem State.writeLooks_of_clearPort {s : State} (h : s.clearPort) (ctx : Nat) (va : Word) {bs : List Byte} (dev : Bool)
    (k : Nat) {looks : List ByteLook} {ls : List Loc} (hl : LooksAt looks ls)
    (ho : ∀ (i : Nat) (b : ByteLook), looks[i]? = some b → b.off = i) (hb : ls.length = bs.length) :
    ∃ m, s.writeLooks ctx s.unit va bs dev false k looks = (s.withMem m s.nextId, []) ∧
      ∀ l, m.rd l = (s.mem.wrAll (ls.zip bs)).rd l := by
  obtain ⟨hr, hf⟩ := writeRuns_of_clearPort h hl ho ctx va dev k
  rw [State.writeLooks, State.demote_of_clearPort h]
  refine (foldl_writeRun_of_clearPort h ctx va bs false k (step := _) ?_ _ hr (by rwa [hf]) hb s.mem).imp
    fun m hm => ⟨congrArg (fun x => (x.1, x.2.1)) hm.1, hm.2⟩
  intro t r hc
  simp [hc, WClass.isFail]

/-- A store through a clear port writes its bytes where they lie, and nothing else of the state changes (R108). -/
theorem State.storeVA_of_clearPort {s : State} (h : s.clearPort) {va : Word} {ls : List Loc} (hs : s.spans va .write ls)
    {bs : List Byte} (hb : ls.length = bs.length) (dev : Bool) :
    ∃ m, s.storeVA va bs dev false = s.withMem m s.nextId ∧ ∀ l, m.rd l = (s.mem.wrAll (ls.zip bs)).rd l := by
  have hl := looksAt_looks hs
  rw [hb] at hl
  have ho (i : Nat) (b : ByteLook) (hi : (s.looks s.unit s.task.place.ctx va bs.length .write)[i]? = some b) : b.off = i := by
    obtain ⟨hi, rfl⟩ := List.getElem?_eq_some_iff.1 hi
    simp [State.looks, upFrom_eq]
  have hside : s.sideOf s.unit = [] := h.2.2.1
  have hfull : ((s.older s.unit s.nextId).stuck ||
      s.noRoom s.unit s.task.place.ctx va false s.nextId (s.looks s.unit s.task.place.ctx va bs.length .write)) = false := by
    simp [State.older_of_clearPort h, State.noRoom, hside]
  obtain ⟨m, hm, hrd⟩ := State.writeLooks_of_clearPort h s.task.place.ctx va dev s.nextId hl ho hb
  refine ⟨m, ?_, hrd⟩
  rw [State.storeVA]
  dsimp only
  rw [hfull, if_neg (by decide), hm]
  rfl

/-! ### Page tables in memory -/

theorem get_setMany {α : Type} [DecidableEq α] (d : α) (vs : List α) (t : Tab α) (k j : Nat) :
    Tab.get d (Tab.setMany d t k vs) j = if k ≤ j then vs.getD (j - k) (t.get d j) else t.get d j := by
  induction vs generalizing t k with
  | nil => simp [Tab.setMany]
  | cons v vs ih =>
    rw [Tab.setMany, ih, Tab.get_set]
    rcases Nat.lt_trichotomy j k with h | rfl | h
    · simp [show ¬ k ≤ j by omega, show ¬ k + 1 ≤ j by omega, show j ≠ k by omega]
    · simp
    · obtain ⟨i, rfl⟩ : ∃ i, j = k + 1 + i := ⟨j - k - 1, by omega⟩
      simp [show k ≤ k + 1 + i by omega, show k + 1 + i ≠ k by omega, show k + 1 + i - k = i + 1 by omega]

/-- The word of LPDDR6 whose bytes are known (R3). -/
theorem Mem.dramWord_eq {m : Mem} {a n : Nat} {bs : List Byte} (h : ∀ i < 8, some (m.rd (.dram (a + i))) = bs[i]?)
    (hl : bs.length = 8) (hn : ofBytes bs = n) : m.dramWord a = .ofNat 64 n := by
  rw [Mem.dramWord, ← hn]
  congr 2
  refine List.ext_getElem (by simp [upFrom_eq, hl]) fun i h1 h2 => ?_
  have := h i (by omega)
  rw [List.getElem?_eq_getElem h2, Option.some.injEq] at this
  simpa [upFrom_eq] using this

/-- An entry that leads to the next table, at F (R98). -/
def dirWord (F : Nat) : Nat := 3 * 2 ^ 62 + F

/-- A writable leaf of a 4 KiB page at F, kind S, state VALID (R99). -/
def leafWord (F : Nat) : Nat := 2 ^ 63 + 2 ^ 10 + F

/-- A frame of LPDDR6 that leaves the fields beside the address alone. -/
abbrev Frame (F : Nat) : Prop := F % 2 ^ 16 = 0 ∧ F < 2 ^ 40

theorem walkFrom_dir {m : Mem} {dram ia level hi lo base F a : Nat} {rest : List (Nat × Nat × Nat)} (hF : Frame F)
    (ha : base + 8 * bits ia hi lo = a) (hd : F + 4096 ≤ dram)
    (hr : rest ≠ []) (hm : m.dramWord a = .ofNat 64 (dirWord F)) :
    walkFrom m dram ia ((level, hi, lo) :: rest) base = walkFrom m dram ia rest F := by
  obtain ⟨h1, h2⟩ := hF
  have hn : (BitVec.ofNat 64 (dirWord F)).toNat = 3 * 2 ^ 62 + F := by
    rw [BitVec.toNat_ofNat, dirWord]; omega
  have e63 : Word.b (.ofNat 64 (dirWord F)) 63 = true := by simp only [Word.b, bit, hn, beq_iff_eq]; omega
  have e62 : Word.b (.ofNat 64 (dirWord F)) 62 = true := by simp only [Word.b, bit, hn, beq_iff_eq]; omega
  have ef : Word.f (.ofNat 64 (dirWord F)) 61 52 = 0 := by simp only [Word.f, bits, hn]; omega
  have el : Word.f (.ofNat 64 (dirWord F)) 11 0 = 0 := by simp only [Word.f, bits, hn]; omega
  have ep : Word.f (.ofNat 64 (dirWord F)) 51 12 * 4096 = F := by simp only [Word.f, bits, hn]; omega
  rw [walkFrom]
  simp only [ha, hm, e63, e62, ef, el, ep]
  simp [hr]
  omega

theorem leafWord_bits {F : Nat} (hF : Frame F) :
    let e : Word := .ofNat 64 (leafWord F)
    e.b 63 = true ∧ e.b 62 = false ∧ e.b 52 = false ∧ e.b 11 = false ∧ e.b 10 = true ∧ e.b 9 = false ∧ e.b 8 = false := by
  obtain ⟨h1, h2⟩ := hF
  have hn : (BitVec.ofNat 64 (leafWord F)).toNat = 2 ^ 63 + 2 ^ 10 + F := by rw [BitVec.toNat_ofNat, leafWord]; omega
  simp only [Word.b, bit, hn, beq_iff_eq, beq_eq_false_iff_ne]
  omega

theorem leafWord_fields {F : Nat} (hF : Frame F) :
    let e : Word := .ofNat 64 (leafWord F)
    e.f 61 59 = 0 ∧ e.f 58 55 = 0 ∧ e.f 54 53 = 0 ∧ e.f 51 42 = 0 ∧ e.f 51 12 * 4096 = F := by
  obtain ⟨h1, h2⟩ := hF
  have hn : (BitVec.ofNat 64 (leafWord F)).toNat = 2 ^ 63 + 2 ^ 10 + F := by rw [BitVec.toNat_ofNat, leafWord]; omega
  simp only [Word.f, bits, hn]
  omega

theorem walkFrom_leaf {m : Mem} {dram ia hi lo base F a : Nat} (hF : Frame F)
    (ha : base + 8 * bits ia hi lo = a) (hd : F + 4096 ≤ dram) (hm : m.dramWord a = .ofNat 64 (leafWord F)) :
    walkFrom m dram ia [(4, hi, lo)] base = .leaf (.ofNat 64 (leafWord F)) a := by
  obtain ⟨e63, e62, e52, -, -, -, e8⟩ := leafWord_bits hF
  obtain ⟨est, esz, ek, eh, ef⟩ := leafWord_fields hF
  have hok : leafOk dram 4 (.ofNat 64 (leafWord F)) = true := by
    simp only [leafOk, sizeAllowed, leafSize, e52, e8, est, esz, ek, eh, ef]
    have := hF.1
    simp
    omega
  rw [walkFrom]
  simp [ha, hm, e63, e62, hok]

/-- A write to a page of such a leaf goes to its frame (R101). -/
theorem lookLeaf_leafWord (s : State) (own : Nat → Look) {F : Nat} (hF : Frame F) (ia : Nat) :
    s.lookLeaf own (.ofNat 64 (leafWord F)) ia .write = .mem (.dram (F + ia % 4096)) 0 := by
  obtain ⟨-, -, e52, e11, e10, e9, -⟩ := leafWord_bits hF
  obtain ⟨est, esz, ek, -, ef⟩ := leafWord_fields hF
  simp [State.lookLeaf, leafPerm, leafSize, Acc.need, b2n, e52, e11, e10, e9, est, esz, ek, ef]

/-! ### A log buffer on the page of its own page table -/

/-- A context that maps VA 0 to 2^40 onto the same IAs of the module, with every permission. -/
def logCtx : Ctx := { Ctx.zero with stat := .active, range := [(0, .ofNat 64 (2 ^ 63 + 40 * 64)), (1, 0x807)] }

/-- A task whose noise stream logs to 0x10001000, with room for 16 words, of which 5 are taken. -/
def logTask : Task := { Task.empty with
  place := { Place.zero with ctx := 1, kernel := 5, level := 1 }, stat := .issuing
  csr := { Task.empty.csr with noisectl := 1, noisebase := 0x10001000, noiselen := 16, noisepos := 5 } }

/-- The task at its turn, with its page table at F of a memory and n noise words drawn. -/
def logState (F : Nat) (m : Mem) (n : Nat) : State := { State.reset with
  page := ⟨.ofNat 64 (2 ^ 63 + F), [], false, [], []⟩, ctxs := [(1, logCtx)], tasks := [(0, logTask)], mem := m, free := n }

/-- A page table of one page at F, whose entries 0 and 128 lead to itself, and whose entry 1 is the leaf of the page at G. -/
def Mem.tableAt (m : Mem) (F G : Nat) : Prop :=
  m.dramWord F = .ofNat 64 (dirWord F) ∧ m.dramWord (F + 1024) = .ofNat 64 (dirWord F) ∧
    m.dramWord (F + 8) = .ofNat 64 (leafWord G)

theorem logState_walk {F G : Nat} (hF : Frame F) (hG : Frame G) {m : Mem} (hm : m.tableAt F G) (n : Nat) {ia : Nat}
    (h : ia / 4096 = 0x10001) : (logState F m n).walk ia = .leaf (.ofNat 64 (leafWord G)) (F + 8) := by
  obtain ⟨hm0, hm1, hm2⟩ := hm
  have hd : (logState F m n).part.dramBytes = 128 * 24 * 2 ^ 30 := rfl
  have hp : (logState F m n).page.ptbase = .ofNat 64 (2 ^ 63 + F) := rfl
  obtain ⟨h1, h2⟩ := hF
  have hn : (BitVec.ofNat 64 (2 ^ 63 + F)).toNat = 2 ^ 63 + F := by rw [BitVec.toNat_ofNat]; omega
  have hv : Word.b (.ofNat 64 (2 ^ 63 + F)) 63 = true := by simp only [Word.b, bit, hn, beq_iff_eq]; omega
  have hb : Word.f (.ofNat 64 (2 ^ 63 + F)) 41 7 * 128 = F := by simp only [Word.f, bits, hn]; omega
  have htop : F + 8 * bits ia 51 48 = F ∧ F + 8 * bits ia 47 39 = F ∧ F + 8 * bits ia 38 30 = F := by
    simp only [bits]; omega
  have hlow : F + 8 * bits ia 29 21 = F + 1024 ∧ F + 8 * bits ia 20 12 = F + 8 := by
    simp only [bits]; omega
  have hG2 := hG.2
  have hmem : (logState F m n).mem = m := rfl
  show (logState F m n).tableWalk ia = _
  rw [State.tableWalk, hp, hv, hb, hd, hmem]
  dsimp only
  rw [if_neg (by decide), if_neg (by omega), walkFrom_dir ⟨h1, h2⟩ htop.1 (by omega) (by simp) hm0,
    walkFrom_dir ⟨h1, h2⟩ htop.2.1 (by omega) (by simp) hm0, walkFrom_dir ⟨h1, h2⟩ htop.2.2 (by omega) (by simp) hm0,
    walkFrom_dir ⟨h1, h2⟩ hlow.1 (by omega) (by simp) hm1, walkFrom_leaf hG hlow.2 (by omega) hm2]

theorem logState_lookU {F G : Nat} (hF : Frame F) (hG : Frame G) {m : Mem} (hm : m.tableAt F G) (n : Nat) {i : Nat} (hi : i < 4) :
    (logState F m n).lookU (.core 0 0 5) 1 (0x1000100A + .ofNat 64 i) .write =
      (.mem (.dram (G + 10 + i)) 0, 0, 0x1000100A + i) := by
  have hx : (logState F m n).xlate (.core 0 0 5) 1 (0x1000100A + .ofNat 64 i) Acc.write.need = .ok (0, 0x1000100A + i) := by
    show (logState 0 ⟨[], [], [], []⟩ 0).xlate (.core 0 0 5) 1 (0x1000100A + .ofNat 64 i) Acc.write.need = _
    interval_cases i <;> decide
  have hl : (logState F m n).lookIA (0x1000100A + i) .write = .mem (.dram (G + 10 + i)) 0 := by
    rw [State.lookIA, State.lookVia, if_neg (by omega), if_neg (by omega), logState_walk hF hG hm n (by omega)]
    dsimp only
    rw [lookLeaf_leafWord _ _ hG]
    congr 2
    omega
  rw [State.lookU, hx]
  dsimp only
  rw [State.lookAt, if_neg (by simp [State.lookOut]), if_pos (by rfl), hl]

/-! ### The noise log (R34) -/

@[simp] theorem State.result_mem (s : State) (d : RDest) (sup : Bool) (lam : Nat) (x : VReg) : (s.result d sup lam x).mem = s.mem := by
  unfold State.result
  split <;> rfl

@[simp] theorem State.note_mem (s : State) (va : Word) (n cls : Nat) (write : Bool) : (s.note va n cls write).mem = s.mem := by
  unfold State.note
  dsimp only
  split <;> rfl

/-- In the log mode an instruction leaves memory as the stores of its noise words leave it. -/
theorem State.drawn_mem_of_log {s : State} {n : Nat} (hmode : s.task.csr.noisectl.f 1 0 = 1)
    (hroom : ¬ s.task.csr.noiselen.toNat < s.task.csr.noisepos.toNat + n) (use : NoiseUse) (d : RDest) (sup : Bool) (lam : Nat) :
    (s.drawn n use d sup lam).mem =
      ((s.withFree (s.free + n)).logNoise (s.task.csr.noisebase + .ofNat 64 (2 * s.task.csr.noisepos.toNat))
        ((upFrom s.free n).map Config.noiseWord)).mem := by
  rw [State.drawn, State.draw]
  dsimp only
  rw [hmode]
  simp only [if_neg hroom]
  rw [State.result_mem]
  exact State.note_mem _ _ _ _ _

theorem State.logNoise_two (s : State) (va : Word) (x y : BitVec 16) :
    s.logNoise va [x, y] = (s.storeVA (va + .ofNat 64 0) (toBytes 2 x.toNat) false false).storeVA (va + .ofNat 64 2)
      (toBytes 2 y.toNat) false false := rfl

theorem Mem.rd_wrAll_two (m : Mem) (k l : Loc) (x y : Byte) (j : Loc) :
    (m.wrAll [(k, x), (l, y)]).rd j = if j = l then y else if j = k then x else m.rd j := by
  rw [Mem.wrAll, Mem.rd_heal]
  simp [Mem.rd_wr]

/-! ### The counterexample -/

/-- The frame whose address has c and c' in bytes 2 and 3 and d in byte 4. -/
def frame (c c' d : Byte) : Nat := d.toNat * 2 ^ 32 + (c.toNat + 256 * c'.toNat) * 2 ^ 16

theorem frame_ok (c c' : Byte) {d : Byte} (hd : d.toNat < 2) : Frame (frame c c' d) := by
  unfold frame
  constructor <;> omega

/-- A memory that holds nothing but the page table of the page at frame c 0 d, in that page. -/
def tableMem (c d : Byte) : Mem := ⟨[], Tab.setMany 0 (Tab.setMany 0 [] (frame c 0 d)
  [0, 0, c, 0, d, 0, 0, 0xC0, 0, 4, c, 0, d, 0, 0, 0x80]) (frame c 0 d + 1024) [0, 0, c, 0, d, 0, 0, 0xC0], [], []⟩

theorem rd_tableMem (c d : Byte) {i : Nat} (h : i < 1024) : (tableMem c d).rd (.dram (frame c 0 d + i)) =
    [0, 0, c, 0, d, 0, 0, 0xC0, 0, 4, c, 0, d, 0, 0, 0x80].getD i 0 := by
  simp [tableMem, Mem.rd, get_setMany, show ¬ 1024 ≤ i by omega, Tab.get]

theorem rd_tableMem_high (c d : Byte) {i : Nat} (h : i < 8) : (tableMem c d).rd (.dram (frame c 0 d + 1024 + i)) =
    [0, 0, c, 0, d, 0, 0, 0xC0].getD i 0 := by
  simp only [tableMem, Mem.rd, get_setMany]
  interval_cases i <;> simp

/-- The table with bytes 2 and 3 of its leaf replaced is one whose leaf leads to another frame. -/
theorem tableAt_of_rd {c d x y : Byte} {m : Mem}
    (h : ∀ l, m.rd l = ((tableMem c d).wrAll [(.dram (frame c 0 d + 10), x), (.dram (frame c 0 d + 11), y)]).rd l) :
    m.tableAt (frame c 0 d) (frame x y d) := by
  have hlow (i : Nat) (hi : i < 1024) : m.rd (.dram (frame c 0 d + i)) = if i = 11 then y else if i = 10 then x else
      [0, 0, c, 0, d, 0, 0, 0xC0, 0, 4, c, 0, d, 0, 0, 0x80].getD i 0 := by
    rw [h, Mem.rd_wrAll_two, rd_tableMem c d hi]
    simp
  have hhigh (i : Nat) (hi : i < 8) : m.rd (.dram (frame c 0 d + 1024 + i)) = [0, 0, c, 0, d, 0, 0, 0xC0].getD i 0 := by
    rw [h, Mem.rd_wrAll_two, rd_tableMem_high c d hi, if_neg (by simp; omega), if_neg (by simp; omega)]
  have hdir : ofBytes [0, 0, c, 0, d, 0, 0, 0xC0] = dirWord (frame c 0 d) := by
    simp [ofBytes, dirWord, frame]
    omega
  have hleaf : ofBytes [0, 4, x, y, d, 0, 0, 0x80] = leafWord (frame x y d) := by
    simp [ofBytes, leafWord, frame]
    omega
  refine ⟨Mem.dramWord_eq (fun i hi => ?_) rfl hdir, Mem.dramWord_eq (fun i hi => ?_) rfl hdir,
    Mem.dramWord_eq (fun i hi => ?_) rfl hleaf⟩
  · rw [hlow i (by omega)]
    interval_cases i <;> rfl
  · rw [hhigh i hi]
    interval_cases i <;> rfl
  · rw [Nat.add_assoc, hlow (8 + i) (by omega)]
    interval_cases i <;> rfl

theorem tableMem_tableAt (c d : Byte) : (tableMem c d).tableAt (frame c 0 d) (frame c 0 d) := by
  refine tableAt_of_rd fun l => ?_
  rw [Mem.rd_wrAll_two]
  split_ifs with h1 h2
  · rw [h1, rd_tableMem c d (by decide)]; rfl
  · rw [h2, rd_tableMem c d (by decide)]; rfl
  · rfl

theorem logState_clearPort (F : Nat) (m : Mem) (n : Nat) : (logState F m n).clearPort := by
  refine ⟨rfl, ?_, rfl, rfl, ?_, ?_, rfl⟩ <;> simp [logState, State.reset]

/-- From its position on the log buffer lies in the frame of its leaf, at offset 10. -/
theorem logState_spans {F G : Nat} (hF : Frame F) (hG : Frame G) {m : Mem} (hm : m.tableAt F G) (n : Nat) {o k : Nat}
    (hk : o + k ≤ 4) :
    (logState F m n).spans (0x1000100A + .ofNat 64 o) .write ((List.range k).map fun i => .dram (G + 10 + o + i)) := by
  intro i l hl
  obtain ⟨hi, rfl⟩ := List.getElem?_eq_some_iff.1 hl
  have hi : i < k := by simpa using hi
  refine ⟨0, 0, 0x1000100A + (o + i), ?_⟩
  have := logState_lookU hF hG hm n (i := o + i) (by omega)
  rw [BitVec.ofNat_add, ← BitVec.add_assoc] at this
  have hu : (logState F m n).unit = .core 0 0 5 := rfl
  have hc : (logState F m n).task.place.ctx = 1 := rfl
  simpa [Nat.add_assoc, hu, hc] using this

/-- The first word the log stores there replaces the leaf's frame, and the second goes to the new one: the old place of the
second keeps its byte. -/
theorem logNoise_logState_rd {c d : Byte} (hd : d.toNat < 2) {x y : BitVec 16} (hx : x.toNat ≠ c.toNat) (n : Nat) :
    ((logState (frame c 0 d) (tableMem c d) n).logNoise 0x1000100A [x, y]).mem.rd (.dram (frame c 0 d + 12)) = d := by
  obtain ⟨m1, h1, hrd1⟩ := State.storeVA_of_clearPort (logState_clearPort _ _ _)
    (logState_spans (frame_ok c 0 hd) (frame_ok c 0 hd) (tableMem_tableAt c d) n (o := 0) (k := 2) (by decide))
    (bs := toBytes 2 x.toNat) rfl false
  rw [State.logNoise_two, h1]
  have ht : m1.tableAt (frame c 0 d) (frame (.ofNat 8 x.toNat) (.ofNat 8 (x.toNat / 256)) d) := tableAt_of_rd hrd1
  obtain ⟨m2, h2, hrd2⟩ := State.storeVA_of_clearPort (logState_clearPort _ _ _)
    (logState_spans (frame_ok c 0 hd) (frame_ok _ _ hd) ht n (o := 2) (k := 2) (by decide))
    (bs := toBytes 2 y.toNat) rfl false
  have hne : frame (.ofNat 8 x.toNat) (.ofNat 8 (x.toNat / 256)) d ≠ frame c 0 d := by
    simp [frame]
    omega
  show (State.storeVA (logState (frame c 0 d) m1 n) _ _ _ _).mem.rd _ = d
  have hm2 : m2.rd (.dram (frame c 0 d + 12)) = m1.rd (.dram (frame c 0 d + 12)) := by
    refine (hrd2 _).trans ((Mem.rd_wrAll_two _ _ _ _ _ _).trans ?_)
    have hF := (frame_ok c 0 hd).1
    have hG := (frame_ok (.ofNat 8 x.toNat) (.ofNat 8 (x.toNat / 256)) hd).1
    generalize frame (.ofNat 8 x.toNat) (.ofNat 8 (x.toNat / 256)) d = G at hG hne
    have h3 : Loc.dram (frame c 0 d + 12) ≠ .dram (G + 10 + 2 + 1) := by rw [Ne, Loc.dram.injEq]; omega
    have h4 : Loc.dram (frame c 0 d + 12) ≠ .dram (G + 10 + 2 + 0) := by rw [Ne, Loc.dram.injEq]; omega
    exact (if_neg h3).trans (if_neg h4)
  have hm1 : m1.rd (.dram (frame c 0 d + 12)) = d := by
    refine (hrd1 _).trans ((Mem.rd_wrAll_two _ _ _ _ _ _).trans ?_)
    rw [if_neg (by simp), if_neg (by simp)]
    exact rd_tableMem c d (by decide)
  rw [h2]
  exact hm2.trans hm1

/-- A frame byte that the first noise word does not write. -/
def otherFrame : Byte := if (Config.noiseWord 0).toNat = 1 then 2 else 1

theorem noiseWord_ne_otherFrame : (Config.noiseWord 0).toNat ≠ otherFrame.toNat := by
  unfold otherFrame
  split_ifs with hw
  · rw [hw]; decide
  · exact hw

/-- A byte, 0 or 1, that the second noise word does not write. -/
def otherByte : Byte := if (Config.noiseWord 1).extractLsb' 0 8 = 0 then 1 else 0

theorem otherByte_lt : otherByte.toNat < 2 := by
  unfold otherByte
  split_ifs <;> decide

theorem otherByte_ne_noiseWord : otherByte ≠ (Config.noiseWord 1).extractLsb' 0 8 := by
  unfold otherByte
  split_ifs with hw
  · rw [hw]; decide
  · exact Ne.symm hw

/-- Refutes O23: a log buffer may lie on the page of its own page table, where the store of the first word moves the page before
the store of the second. The log-mode clause takes the places of all the words from the state before the first store (VDEFER's
statement asks for spansAway there). The free values of the noise words are met by the bytes the table holds. -/
theorem not_noiseResults : ¬ Obligations.NoiseResults := by
  intro h
  let F := frame otherFrame 0 otherByte
  let s := logState F (tableMem otherFrame otherByte) 0
  let ls : List Loc := (List.range 4).map fun i => .dram (F + 10 + 0 + i)
  have hF := frame_ok otherFrame 0 otherByte_lt
  have hroom : ¬ s.task.csr.noiselen.toNat < s.task.csr.noisepos.toNat + 2 := by decide
  have hnodup : ls.Nodup := by simp [ls, List.range_succ]
  have hspans := logState_spans hF hF (tableMem_tableAt otherFrame otherByte) 0 (o := 0) (k := 4) (by decide)
  obtain ⟨-, -, hlog⟩ := h.2 s 0 1 ls
  obtain ⟨t, ht, hbytes, -⟩ := (hlog hroom (logState_clearPort _ _ _) rfl hnodup).1 (by decide) hspans
  have hmem : t.mem = ((logState F (tableMem otherFrame otherByte) 2).logNoise 0x1000100A
      [Config.noiseWord 0, Config.noiseWord 1]).mem := by
    rw [← Host.Outcome.next.inj ht]
    exact State.drawn_mem_of_log (s := s) (n := 2) (by decide) hroom _ _ _ _
  have hkept : t.mem.rd (.dram (F + 12)) = otherByte := by
    rw [hmem]
    exact logNoise_logState_rd otherByte_lt noiseWord_ne_otherFrame 2
  have hthird : some (t.mem.rd (.dram (F + 12))) = some ((Config.noiseWord 1).extractLsb' 0 8) := congrArg (·[2]?) hbytes
  exact otherByte_ne_noiseWord (hkept.symm.trans (Option.some.inj hthird))

end Sys2Proof.Machine
end

section
/-! The fields that the encoder writes and the decoder reads back, format by format (R51 to R54). -/

namespace Sys2Proof

/-! ### Fields -/

theorem b2n_lt (b : Bool) : b2n b < 2 := by cases b <;> decide

@[simp] theorem b2n_beq_one (b : Bool) : (b2n b == 1) = b := by cases b <;> rfl

@[simp] theorem b2n_mod_two (b : Bool) : b2n b % 2 = b2n b := Nat.mod_eq_of_lt (b2n_lt b)

theorem bit_of_b2n {w n : Nat} {b : Bool} (h : w / 2 ^ n % 2 = b2n b) : bit w n = b := by
  rw [bit, h, b2n_beq_one]

theorem ofNat_of_mod {n k : Nat} {v : BitVec n} (h : k % 2 ^ n = v.toNat) : BitVec.ofNat n k = v :=
  BitVec.eq_of_toNat_eq (by rw [BitVec.toNat_ofNat, h])

/-- The operation has an encoding that decodes to it. -/
def DecodesBack (i : Instr) (o : Option Enc) : Prop :=
  ∃ e : Enc, o = some e ∧ e.pos < 4 ∧ e.ext < 256 ∧ decodeSlot e.retr e.pos e.hdr e.ext e.word = .ok i

theorem decodesBack_some {i : Instr} {retr hdr : Bool} {pos ext : Nat} {w : BitVec 32} (hp : pos < 4) (he : ext < 256)
    (h : decodeDec retr pos ⟨w.toNat, hdr, if hdr then ext else 0⟩ = ⟨false, false, i⟩) : DecodesBack i (some ⟨retr, pos, hdr, ext, w⟩) :=
  ⟨_, rfl, hp, he, by simp [decodeSlot, h]⟩

namespace SlotWord

/-! ### Format RR -/

/-- A source field that breaks no rule of its file (R51, R53, R54). -/
def srcFits (f : File) (s : Src) : Bool := !bad0Reg f s.reg.toNat s.l && !bad1Src f s

theorem srcFits_of_sOk {f : File} {s : Src} (h : sOk f s = true) (hf : f = .zero ∨ f = .pt → s.l = false) : srcFits f s = true := by
  have hs : s.reg.toNat < 128 := s.reg.isLt
  have h : s.reg.toNat < if s.l then 8 else f.size := by
    unfold sOk at h
    split at h <;> simpa [*] using of_decide_eq_true h
  cases hl : s.l <;> cases f <;> simp_all [srcFits, bad0Reg, bad1Src, File.size] <;> omega

theorem sOk_zero : srcFits .zero ⟨0#7, false⟩ = true := rfl

theorem bad_dst_of_dOk {f : File} {d : Dst} (h : dOk f d = true) : bad0Reg f d.reg.toNat false = false ∧ bad1Dst f d = false := by
  have hd : d.reg.toNat < 128 := d.reg.isLt
  rw [dOk, decide_eq_true_eq] at h
  cases f <;> simp_all [bad0Reg, bad1Dst, File.size, ← BitVec.toNat_inj] <;> omega

@[simp] theorem dOk_v (d : Dst) : dOk .v d = true := by
  rw [dOk, decide_eq_true_eq]
  exact d.reg.isLt

/-- The fields that a word of format RR holds with its lent bits (R51, R52). -/
structure HoldsRR (x : SlotWord) (op : Nat) (d : Dst) (a b : Src) (m : Nat) : Prop where
  major : x.major = op
  minor : x.minor = m
  dst : x.dst = d
  srcA : x.srcA = a
  srcB : x.srcB = b
  regD : x.f 24 19 = d.reg.toNat % 64
  regA : x.f 17 12 = a.reg.toNat % 64
  regB : x.f 10 5 = b.reg.toNat % 64
  ext : x.ext < 8

/-- The lent bits e are the high bits of the three registers (R52). -/
def Lends (e : Nat) (d : Dst) (a b : Src) : Prop :=
  e < 8 ∧ e % 2 = d.reg.toNat / 64 ∧ e / 2 % 2 = a.reg.toNat / 64 ∧ e / 4 % 2 = b.reg.toNat / 64

theorem lends_xRR (d : Dst) (a b : Src) : Lends (xRR d a b) d a b := by
  have := d.reg.isLt
  have := a.reg.isLt
  have := b.reg.isLt
  unfold Lends xRR
  omega

theorem holdsRR_wRR {op : Nat} (hop : op < 128) {d : Dst} {a b : Src} {m e : Nat} (hm : m < 16) (he : Lends e d a b) (hdr : Bool) :
    HoldsRR ⟨(wRR op d a b m).toNat, hdr, e⟩ op d a b m := by
  obtain ⟨he, hd, ha, hb⟩ := he
  have := b2n_lt d.s
  have := b2n_lt a.l
  have := b2n_lt b.l
  have h : (wRR op d a b m).toNat = op * 2 ^ 25 + d.reg.toNat % 64 * 2 ^ 19 + b2n d.s * 2 ^ 18 + a.reg.toNat % 64 * 2 ^ 12
      + b2n a.l * 2 ^ 11 + b.reg.toNat % 64 * 2 ^ 5 + b2n b.l * 2 ^ 4 + m := by
    rw [wRR, BitVec.toNat_ofNat, Nat.mod_eq_of_lt]
    omega
  have reg {f i : Nat} {r : BitVec 7} (hf : f = r.toNat % 64) (he : bits e i i = r.toNat / 64) :
      BitVec.ofNat 7 (f + 64 * bits e i i) = r := by
    rw [hf, he, Nat.mod_add_div, BitVec.ofNat_toNat, BitVec.setWidth_eq]
  have hs : bit (wRR op d a b m).toNat 18 = d.s := bit_of_b2n (by omega)
  have hal : bit (wRR op d a b m).toNat 11 = a.l := bit_of_b2n (by omega)
  have hbl : bit (wRR op d a b m).toNat 4 = b.l := bit_of_b2n (by omega)
  have hD : bits (wRR op d a b m).toNat 24 19 = d.reg.toNat % 64 := by rw [bits]; omega
  have hA : bits (wRR op d a b m).toNat 17 12 = a.reg.toNat % 64 := by rw [bits]; omega
  have hB : bits (wRR op d a b m).toNat 10 5 = b.reg.toNat % 64 := by rw [bits]; omega
  exact {
    major := by simp only [major, f, bits]; omega
    minor := by simp only [minor, f, bits]; omega
    dst := congrArg₂ Dst.mk (reg hD (by rw [bits]; omega)) hs
    srcA := congrArg₂ Src.mk (reg hA (by rw [bits]; omega)) hal
    srcB := congrArg₂ Src.mk (reg hB (by rw [bits]; omega)) hbl
    regD := hD
    regA := hA
    regB := hB
    ext := he }

theorem HoldsRR.rr {x : SlotWord} {op : Nat} {d : Dst} {a b : Src} {m : Nat} {fd fa fb : File} {named : Nat} {i : Instr}
    (h : x.HoldsRR op d a b m) (hd : dOk fd d = true)
    (ha : srcFits fa a = true) (hb : srcFits fb b = true) (hm : m ≤ named) (hz : fd = .zero → d.s = true → i.noSuppress = false) :
    x.rr fd fa fb named i = ⟨false, false, i⟩ := by
  obtain ⟨hd0, hd1⟩ := bad_dst_of_dOk hd
  simp only [srcFits, Bool.and_eq_true, Bool.not_eq_true'] at ha hb
  have hout : m / (named + 1) = 0 := Nat.div_eq_of_lt (by omega)
  have hext : x.ext / 8 = 0 := Nat.div_eq_of_lt h.ext
  simp [SlotWord.rr, h.minor, h.dst, h.srcA, h.srcB, hout, hext, hd0, hd1, ha, hb]
  exact hz

/-- A word with the fields of format RR that the slot's map reads as i. -/
theorem decodesBack_wRR {retr : Bool} {pos op m e : Nat} {d : Dst} {a b : Src} {i : Instr} (hm : m < 16) (he : Lends e d a b)
    (hdec : ∀ x : SlotWord, x.HoldsRR op d a b m → x.ext = e → decodeDec retr pos x = ⟨false, false, i⟩)
    (hop : op < 128 := by decide) (hpos : pos < 4 := by decide) : DecodesBack i (some ⟨retr, pos, true, e, wRR op d a b m⟩) :=
  decodesBack_some hpos (by have := he.1; omega) (hdec _ (holdsRR_wRR hop hm he true) rfl)

/-- A word of format RR whose slot's map reads it as i, its registers in the files fd, fa and fb. -/
theorem decodesBack_rr {retr : Bool} {pos op m e : Nat} {d : Dst} {a b : Src} {i : Instr} (fd fa fb : File) (named : Nat)
    (hd : dOk fd d = true) (ha : srcFits fa a = true) (hb : srcFits fb b = true) (hm : m ≤ named)
    (hdec : ∀ x : SlotWord, x.HoldsRR op d a b m → decodeDec retr pos x = x.rr fd fa fb named i)
    (he : Lends e d a b) (hz : fd = .zero → d.s = true → i.noSuppress = false) (hop : op < 128 := by decide) (hn : named < 16 := by decide)
    (hpos : pos < 4 := by decide) : DecodesBack i (some ⟨retr, pos, true, e, wRR op d a b m⟩) :=
  decodesBack_wRR (by omega) he (fun x h _ => (hdec x h).trans (h.rr hd ha hb hm hz)) hop hpos

/-! ### Format RI -/

/-- The fields that a word of format RI holds (R52). -/
structure HoldsRI (x : SlotWord) (op : Nat) (d : Dst) (a : Src) (imm : BitVec 19) : Prop where
  major : x.major = op
  dst : x.dstI = d
  src : x.srcI = a
  low : x.f 10 0 = imm.toNat % 2048
  cond : x.f 24 23 = d.reg.toNat / 16
  pred : x.f 22 19 = d.reg.toNat % 16
  amount : x.f 5 0 = imm.toNat % 64
  rest : x.f 10 6 = imm.toNat % 2048 / 64
  regA : x.f 17 12 = a.reg.toNat
  latch : x.srcA.l = a.l
  sup : bit x.w 18 = d.s

theorem holdsRI_wRI {op : Nat} (hop : op < 128) {d : Dst} {a : Src} (imm : BitVec 19) (hd : d.reg.toNat < 64) (ha : sOk .g a = true)
    (hdr : Bool) (e : Nat) : HoldsRI ⟨(wRI op d a imm).toNat, hdr, e⟩ op d a imm := by
  have := b2n_lt d.s
  have := b2n_lt a.l
  have ha : a.reg.toNat < 64 := by
    unfold sOk File.size at ha
    split at ha <;> have := of_decide_eq_true ha <;> omega
  have h : (wRI op d a imm).toNat = op * 2 ^ 25 + d.reg.toNat * 2 ^ 19 + b2n d.s * 2 ^ 18 + a.reg.toNat * 2 ^ 12
      + b2n a.l * 2 ^ 11 + imm.toNat % 2048 := by
    rw [wRI, BitVec.toNat_ofNat, Nat.mod_eq_of_lt hd, Nat.mod_eq_of_lt ha, Nat.mod_eq_of_lt]
    omega
  have reg {f : Nat} {r : BitVec 7} (hf : f = r.toNat) : BitVec.ofNat 7 f = r := by
    rw [hf, BitVec.ofNat_toNat, BitVec.setWidth_eq]
  have hs : bit (wRI op d a imm).toNat 18 = d.s := bit_of_b2n (by omega)
  have hl : bit (wRI op d a imm).toNat 11 = a.l := bit_of_b2n (by omega)
  have hA : bits (wRI op d a imm).toNat 17 12 = a.reg.toNat := by rw [bits]; omega
  exact {
    major := by simp only [major, f, bits]; omega
    dst := congrArg₂ Dst.mk (reg (by simp only [f, bits]; omega)) hs
    src := congrArg₂ Src.mk (reg hA) hl
    low := by simp only [f, bits]; omega
    cond := by simp only [f, bits]; omega
    pred := by simp only [f, bits]; omega
    amount := by simp only [f, bits]; omega
    rest := by simp only [f, bits]; omega
    regA := hA
    latch := hl
    sup := hs }

theorem HoldsRI.imm19 {x : SlotWord} {op : Nat} {d : Dst} {a : Src} {imm : BitVec 19} (h : x.HoldsRI op d a imm) (hh : x.hdr = true)
    (he : x.ext = xRI imm) : x.imm19 = imm := by
  have := imm.isLt
  rw [SlotWord.imm19, if_pos hh, h.low, he, xRI]
  exact ofNat_of_mod (by omega)

theorem HoldsRI.ri {x : SlotWord} {op : Nat} {d : Dst} {a : Src} {imm : BitVec 19} (h : x.HoldsRI op d a imm) (ha : sOk .g a = true)
    (i : Instr) : x.ri i = ⟨false, false, i⟩ := by
  have hl : (a.l && decide (8 ≤ a.reg.toNat)) = false := by
    unfold sOk at ha
    split at ha
    · have := of_decide_eq_true ha
      simp; omega
    · simp [*]
  simp [SlotWord.ri, h.latch, h.regA, hl]

/-- A word of format RI that the scalar map reads as i. -/
theorem decodesBack_ri {op e : Nat} {d : Dst} {a : Src} {imm : BitVec 19} {i : Instr} (hd : d.reg.toNat < 64) (ha : sOk .g a = true)
    (he : e < 256) (hdr : Bool)
    (hdec : ∀ x : SlotWord, x.HoldsRI op d a imm → x.hdr = hdr → x.ext = (if hdr then e else 0) → decodeDec false 1 x = x.ri i)
    (hop : op < 128 := by decide) : DecodesBack i (some ⟨false, 1, hdr, e, wRI op d a imm⟩) := by
  have hx := holdsRI_wRI hop imm hd ha hdr (if hdr then e else 0)
  exact decodesBack_some (by decide) he ((hdec _ hx rfl rfl).trans (hx.ri ha i))

/-! ### Formats of three fields and an immediate: B, C, J, LP and T -/

/-- The fields that a word of format C, J or LP holds (R52). -/
structure HoldsC (x : SlotWord) (op X Y imm : Nat) : Prop where
  major : x.major = op
  fieldX : x.f 24 19 = X
  fieldY : x.f 18 13 = Y
  fieldI : x.f 12 0 = imm
  limit : x.f 12 5 = imm / 32
  low : x.f 4 0 = imm % 32
  count : x.f 24 13 = 64 * X + Y
  all : x.f 24 0 = X * 2 ^ 19 + Y * 2 ^ 13 + imm
  ext : x.ext = 0

theorem holdsC_wC {op X Y imm : Nat} (hop : op < 128) (hX : X < 64) (hY : Y < 64) (hi : imm < 8192) (hdr : Bool) :
    HoldsC ⟨(wC op X Y imm).toNat, hdr, 0⟩ op X Y imm := by
  have h : (wC op X Y imm).toNat = op * 2 ^ 25 + X * 2 ^ 19 + Y * 2 ^ 13 + imm := by
    rw [wC, BitVec.toNat_ofNat, Nat.mod_eq_of_lt]
    omega
  refine ⟨?_, ?_, ?_, ?_, ?_, ?_, ?_, ?_, rfl⟩ <;> simp only [SlotWord.major, f, bits] <;> omega

theorem decodesBack_c {op X Y imm : Nat} {i : Instr} (hX : X < 64) (hY : Y < 64) (hi : imm < 8192)
    (hdec : ∀ x : SlotWord, x.HoldsC op X Y imm → decodeDec false 0 x = ⟨false, false, i⟩) (hop : op < 128 := by decide) :
    DecodesBack i (some ⟨false, 0, false, 0, wC op X Y imm⟩) :=
  decodesBack_some (by decide) (by decide) (hdec _ (holdsC_wC hop hX hY hi false))

/-- The fields that a word of format B holds (R52). -/
structure HoldsB (x : SlotWord) (op q : Nat) (disp : BitVec 21) : Prop where
  major : x.major = op
  fieldQ : x.f 24 21 = q
  fieldI : x.f 20 0 = disp.toNat
  ext : x.ext = 0

theorem holdsB_wB {op q : Nat} (hop : op < 128) (hq : q < 16) (disp : BitVec 21) (hdr : Bool) :
    HoldsB ⟨(wB op q disp).toNat, hdr, 0⟩ op q disp := by
  have := disp.isLt
  have h : (wB op q disp).toNat = op * 2 ^ 25 + q * 2 ^ 21 + disp.toNat := by
    rw [wB, BitVec.toNat_ofNat, Nat.mod_eq_of_lt]
    omega
  refine ⟨?_, ?_, ?_, rfl⟩ <;> simp only [SlotWord.major, f, bits] <;> omega

theorem decodesBack_b {op q : Nat} {disp : BitVec 21} {i : Instr} (hq : q < 16)
    (hdec : ∀ x : SlotWord, x.HoldsB op q disp → decodeDec false 0 x = ⟨false, false, i⟩) (hop : op < 128 := by decide) :
    DecodesBack i (some ⟨false, 0, false, 0, wB op q disp⟩) :=
  decodesBack_some (by decide) (by decide) (hdec _ (holdsB_wB hop hq disp false))

/-- The fields that a word of format T holds (R52). -/
structure HoldsT (x : SlotWord) (op X Y Z m : Nat) : Prop where
  major : x.major = op
  fieldX : x.f 24 19 = X
  fieldY : x.f 18 13 = Y
  fieldZ : x.f 12 7 = Z
  minor : x.f 6 0 = m
  ext : x.ext = 0

theorem holdsT_wT {op X Y Z m : Nat} (hop : op < 128) (hX : X < 64) (hY : Y < 64) (hZ : Z < 64) (hm : m < 128) (hdr : Bool) :
    HoldsT ⟨(wT op X Y Z m).toNat, hdr, 0⟩ op X Y Z m := by
  have h : (wT op X Y Z m).toNat = op * 2 ^ 25 + X * 2 ^ 19 + Y * 2 ^ 13 + Z * 2 ^ 7 + m := by
    rw [wT, BitVec.toNat_ofNat, Nat.mod_eq_of_lt]
    omega
  refine ⟨?_, ?_, ?_, ?_, ?_, rfl⟩ <;> simp only [SlotWord.major, f, bits] <;> omega

theorem decodesBack_t {op X Y Z m : Nat} {i : Instr} (hX : X < 64) (hY : Y < 64) (hZ : Z < 64) (hm : m < 128)
    (hdec : ∀ x : SlotWord, x.HoldsT op X Y Z m → decodeDec false 3 x = ⟨false, false, i⟩) (hop : op < 128 := by decide) :
    DecodesBack i (some ⟨false, 3, true, 0, wT op X Y Z m⟩) :=
  decodesBack_some (by decide) (by decide) (hdec _ (holdsT_wT hop hX hY hZ hm true))

/-! ### Memory formats: M, MO, MH, A and VM -/

/-- The fields that a word of format M, MO, MH or VM holds, low being the bits below the class field (R52). -/
structure HoldsM (x : SlotWord) (op d b k low : Nat) : Prop where
  major : x.major = op
  regD : x.f 24 19 = d
  regB : x.f 18 13 = b
  cls : x.f 12 9 = k
  rest : x.f 8 0 = low
  form : x.f 8 7 = low / 128
  scope : x.f 6 4 = low / 16 % 8
  entry : x.f 8 4 = low / 16
  size : x.f 3 2 = low / 4 % 4
  zx : bit x.w 1 = (low / 2 % 2 == 1)
  last : x.f 0 0 = low % 2

theorem holdsM_ofNat {op d b k low : Nat} (hop : op < 128) (hd : d < 64) (hb : b < 64) (hk : k < 16) (hl : low < 512) (hdr : Bool) (e : Nat) :
    HoldsM ⟨(BitVec.ofNat 32 (op * 2 ^ 25 + d * 2 ^ 19 + b * 2 ^ 13 + k * 2 ^ 9 + low)).toNat, hdr, e⟩ op d b k low := by
  rw [BitVec.toNat_ofNat, Nat.mod_eq_of_lt (by omega)]
  exact {
    major := by simp only [SlotWord.major, f, bits]; omega
    regD := by simp only [f, bits]; omega
    regB := by simp only [f, bits]; omega
    cls := by simp only [f, bits]; omega
    rest := by simp only [f, bits]; omega
    form := by simp only [f, bits]; omega
    scope := by simp only [f, bits]; omega
    entry := by simp only [f, bits]; omega
    size := by simp only [f, bits]; omega
    zx := by simp only [bit]; congr 1; omega
    last := by simp only [f, bits]; omega }

theorem HoldsM.off17 {x : SlotWord} {op d b k : Nat} {off : BitVec 17} (h : x.HoldsM op d b k (off.toNat % 512)) (hh : x.hdr = true)
    (he : x.ext = xM off) : x.off17 = off := by
  have := off.isLt
  rw [SlotWord.off17, if_pos hh, h.rest, he, xM]
  exact ofNat_of_mod (by omega)

theorem HoldsM.off16 {x : SlotWord} {op d b k : Nat} {r : BitVec 7} {off : BitVec 16} (h : x.HoldsM op d b k (off.toNat % 512))
    (hh : x.hdr = true) (he : x.ext = xVM r off) : x.off16 = off := by
  have := off.isLt
  have := r.isLt
  rw [SlotWord.off16, if_pos hh, h.rest, he, xVM]
  exact ofNat_of_mod (by omega)

theorem HoldsM.dVM {x : SlotWord} {op b k low : Nat} {r : BitVec 7} {off : BitVec 16} (h : x.HoldsM op (r.toNat % 64) b k low)
    (he : x.ext = xVM r off) : x.dVM = r := by
  have := r.isLt
  rw [SlotWord.dVM, h.regD, he, xVM, bits]
  exact ofNat_of_mod (by omega)

/-- A word of format M that the memory map reads as i. -/
theorem decodesBack_m {op : Nat} {d b : BitVec 6} {k : BitVec 4} {off : BitVec 17} {i : Instr}
    (hdec : ∀ x : SlotWord, x.HoldsM op d.toNat b.toNat k.toNat (off.toNat % 512) → x.off17 = off → decodeDec false 1 x = ⟨false, false, i⟩)
    (hop : op < 128 := by decide) : DecodesBack i (some ⟨false, 1, true, xM off, wM op d b k off⟩) := by
  have hx := holdsM_ofNat hop d.isLt b.isLt k.isLt (Nat.mod_lt off.toNat (by decide : 0 < 512)) true (xM off)
  exact decodesBack_some (by decide) (by have := off.isLt; rw [xM]; omega) (hdec _ hx (hx.off17 rfl rfl))

/-- A word of format MO or MH that the memory map reads as i. -/
theorem decodesBack_mo {op low : Nat} {d b : BitVec 6} {k : BitVec 4} {i : Instr} (hl : low < 512)
    (hdec : ∀ x : SlotWord, x.HoldsM op d.toNat b.toNat k.toNat low → x.ext = 0 → decodeDec false 1 x = ⟨false, false, i⟩)
    (hop : op < 128 := by decide) : DecodesBack i (some ⟨false, 1, true, 0, wMO op d b k low⟩) :=
  decodesBack_some (by decide) (by decide) (hdec _ (holdsM_ofNat hop d.isLt b.isLt k.isLt hl true 0) rfl)

/-- A word of format VM that the vector map reads as i. -/
theorem decodesBack_vm {op : Nat} {d : BitVec 7} {b : BitVec 6} {k : BitVec 4} {off : BitVec 16} {i : Instr}
    (hdec : ∀ x : SlotWord, x.HoldsM op (d.toNat % 64) b.toNat k.toNat (off.toNat % 512) → x.dVM = d → x.off16 = off →
      decodeDec false 2 x = ⟨false, false, i⟩)
    (hop : op < 128 := by decide) : DecodesBack i (some ⟨false, 2, true, xVM d off, wVM op d b k off⟩) := by
  have hx := holdsM_ofNat hop (Nat.mod_lt d.toNat (by decide : 0 < 64)) b.isLt k.isLt (Nat.mod_lt off.toNat (by decide : 0 < 512)) true (xVM d off)
  exact decodesBack_some (by decide) (by have := off.isLt; have := d.isLt; rw [xVM]; omega) (hdec _ hx (hx.dVM rfl) (hx.off16 rfl rfl))

/-- The fields that a word of format A holds (R52). -/
structure HoldsA (x : SlotWord) (op d b v o sc z : Nat) : Prop where
  major : x.major = op
  regD : x.f 24 19 = d
  regB : x.f 18 13 = b
  regV : x.f 12 7 = v
  order : x.f 6 5 = o
  scope : x.f 4 2 = sc
  size : x.f 1 0 = z
  ext : x.ext = 0

theorem holdsA_wA {op z : Nat} (hop : op < 128) (d b v : BitVec 6) (o : BitVec 2) (sc : BitVec 3) (hz : z < 4) (hdr : Bool) :
    HoldsA ⟨(wA op d b v o sc z).toNat, hdr, 0⟩ op d.toNat b.toNat v.toNat o.toNat sc.toNat z := by
  have := d.isLt
  have := b.isLt
  have := v.isLt
  have := o.isLt
  have := sc.isLt
  have h : (wA op d b v o sc z).toNat = op * 2 ^ 25 + d.toNat * 2 ^ 19 + b.toNat * 2 ^ 13 + v.toNat * 2 ^ 7 + o.toNat * 2 ^ 5
      + sc.toNat * 2 ^ 2 + z := by
    rw [wA, BitVec.toNat_ofNat, Nat.mod_eq_of_lt]
    omega
  refine ⟨?_, ?_, ?_, ?_, ?_, ?_, ?_, rfl⟩ <;> simp only [SlotWord.major, f, bits] <;> omega

/-- A defined order and scope break neither rule of an atomic's fields (R274). -/
theorem order_of_scOk {o : BitVec 2} {sc : BitVec 3} (h : scOk o sc = true) :
    sc.toNat < 5 ∧ (o.toNat == 0 && sc.toNat != 0) = false := by
  simp only [scOk, Bool.and_eq_true, decide_eq_true_eq, Bool.or_eq_true, bne_iff_ne, beq_iff_eq, ne_eq] at h
  obtain ⟨hs, ho | rfl⟩ := h
  · simp [← BitVec.toNat_inj] at ho
    simp [hs, ho]
  · simp

/-- A word of format A that the memory map reads as i. -/
theorem decodesBack_a {op z : Nat} {d b v : BitVec 6} {o : BitVec 2} {sc : BitVec 3} {i : Instr} (hs : scOk o sc = true) (hz : z < 4)
    (hdec : ∀ x : SlotWord, x.HoldsA op d.toNat b.toNat v.toNat o.toNat sc.toNat z → sc.toNat < 5 →
      (o.toNat == 0 && sc.toNat != 0) = false → decodeDec false 1 x = ⟨false, false, i⟩)
    (hop : op < 128 := by decide) : DecodesBack i (some ⟨false, 1, true, 0, wA op d b v o sc z⟩) := by
  obtain ⟨hs, ho⟩ := order_of_scOk hs
  exact decodesBack_some (by decide) (by decide) (hdec _ (holdsA_wA hop d b v o sc hz true) hs ho)

end SlotWord
end Sys2Proof
end

section
/-! Each slot operation's encoding decodes to it, slot by slot (R70 to R75). -/

namespace Sys2Proof

open SlotWord


theorem regG_lt {d : Dst} (h : dOk .g d = true) : d.reg.toNat < 64 := of_decide_eq_true h

/-- In a slot of registers whose numbers are below 64 nothing is lent (R52). -/
theorem lends_zero {d : Dst} {a b : Src} (hd : d.reg.toNat < 64) (ha : a.reg.toNat < 64) (hb : b.reg.toNat < 64) : Lends 0 d a b := by
  unfold Lends; omega

theorem reg_lt_of_sOk {a : Src} (h : sOk .g a = true) : a.reg.toNat < 64 := by
  unfold sOk File.size at h
  split at h <;> have := of_decide_eq_true h <;> omega

/-- Scalar, memory and packet operations, slot 1 (R70, R72, R73). -/
theorem scalar_decodesBack {i : Instr} {e : Enc} (he : encode i = some e) (hp : e.pos = 1) (hw : i.wf = true) :
    DecodesBack i (encode i) := by
  cases i with
  | nop => exact decodesBack_some (by decide) (by decide) rfl
  | add w d a b | sub w d a b | sadd w d a b | ssub w d a b | mul w d a b | mulh w d a b | mulhu w d a b | div w d a b
  | divu w d a b | rem w d a b | remu w d a b | shl w d a b | shr w d a b | sra w d a b | min w d a b | max w d a b
  | minu w d a b | maxu w d a b =>
    simp only [Instr.wf, Bool.and_eq_true] at hw
    obtain ⟨⟨hd, ha⟩, hb⟩ := hw
    exact decodesBack_rr .g .g .g 1 hd (srcFits_of_sOk ha nofun) (srcFits_of_sOk hb nofun) (Nat.le_of_lt_succ (b2n_lt w))
      (fun x h => by simp [decodeDec, decScalar, h.major, h.minor, h.dst, h.srcA, h.srcB]) (lends_xRR ..) nofun
  | and d a b | or d a b | xor d a b =>
    simp only [Instr.wf, Bool.and_eq_true] at hw
    obtain ⟨⟨hd, ha⟩, hb⟩ := hw
    exact decodesBack_rr .g .g .g 0 hd (srcFits_of_sOk ha nofun) (srcFits_of_sOk hb nofun) (by decide)
      (fun x h => by simp [decodeDec, decScalar, h.major, h.dst, h.srcA, h.srcB]) (lends_xRR ..) nofun
  | clz w d a | cls w d a | popc w d a =>
    simp only [Instr.wf, Bool.and_eq_true] at hw
    obtain ⟨hd, ha⟩ := hw
    exact decodesBack_rr .g .g .zero 1 hd (srcFits_of_sOk ha nofun) sOk_zero (Nat.le_of_lt_succ (b2n_lt w))
      (fun x h => by simp [decodeDec, decScalar, h.major, h.minor, h.dst, h.srcA]) (lends_xRR ..) nofun
  | sext u n d a =>
    simp only [Instr.wf, Bool.and_eq_true] at hw
    obtain ⟨⟨hd, ha⟩, hn⟩ := hw
    have hn : n.toNat < 3 := by
      have := n.isLt
      simp [← BitVec.toNat_inj] at hn
      omega
    have := b2n_lt u
    exact decodesBack_rr .g .g .zero 15 hd (srcFits_of_sOk ha nofun) sOk_zero (by omega)
      (fun x h => by
        have h1 : (n.toNat + 4 * b2n u) % 4 = n.toNat := by omega
        have h2 : (n.toNat + 4 * b2n u) / 4 = b2n u := by omega
        have h3 : BitVec.ofNat 2 (n.toNat + 4 * b2n u) = n := ofNat_of_mod h1
        have h4 : n.toNat + 4 * b2n u < 8 := by omega
        simp [decodeDec, decScalar, h.major, h.minor, h.dst, h.srcA, h1, h2, h3, h4, hn]) (lends_xRR ..) nofun
  | addi d a imm | andi d a imm | ori d a imm | xori d a imm =>
    simp only [Instr.wf, Bool.and_eq_true] at hw
    obtain ⟨hd, ha⟩ := hw
    exact decodesBack_ri (regG_lt hd) ha (by have := imm.isLt; rw [xRI]; omega) true
      (fun x h hh hx => by simp [decodeDec, decScalar, h.major, h.dst, h.src, h.imm19 hh hx])
  | shli d a amt | shri d a amt | srai d a amt =>
    simp only [Instr.wf, Bool.and_eq_true] at hw
    obtain ⟨hd, ha⟩ := hw
    have := amt.isLt
    exact decodesBack_ri (regG_lt hd) ha (by decide) true
      (fun x h hh hx => by
        have h1 : amt.toNat % 2048 / 64 = 0 := by omega
        have h2 : BitVec.ofNat 6 (amt.toNat % 64) = amt := ofNat_of_mod (by omega)
        have h3 : x.ext = 0 := hx
        simp [decodeDec, decScalar, h.major, h.dst, h.src, h.amount, h.rest, h1, h2, h3])
  | lui wide d a imm =>
    simp only [Instr.wf, Bool.and_eq_true] at hw
    obtain ⟨⟨hd, ha⟩, hi⟩ := hw
    have := imm.isLt
    have hext : (if wide then xRI imm else 0) < 256 := by unfold xRI; split <;> omega
    exact decodesBack_ri (regG_lt hd) ha hext wide
      (fun x h hh hx => by
        have h1 : BitVec.ofNat 19 (imm.toNat % 2048 + 2048 * x.ext) = imm := by
          rw [hx]
          refine ofNat_of_mod ?_
          cases wide with
          | true => simp [xRI]; omega
          | false => simp at hi ⊢; omega
        simp [decodeDec, decScalar, h.major, h.dst, h.src, h.low, hh, h1])
  | cmpi c d a imm =>
    simp only [Instr.wf, Bool.and_eq_true] at hw
    obtain ⟨hd, ha⟩ := hw
    have hd : d.reg.toNat < 16 := of_decide_eq_true hd
    have hreg : (BitVec.ofNat 7 (d.reg.toNat + 16 * c.toNat)).toNat = d.reg.toNat + 16 * c.toNat := by
      rw [BitVec.toNat_ofNat]; omega
    exact decodesBack_ri (by simp only [hreg]; omega) ha (by have := imm.isLt; rw [xRI]; omega) true
      (fun x h hh hx => by
        have h1 : (d.reg.toNat + 16 * c.toNat) / 16 = c.toNat := by omega
        have h2 : (d.reg.toNat + 16 * c.toNat) % 16 = d.reg.toNat := by omega
        simp only [decodeDec, decScalar, h.major, h.src, h.imm19 hh hx, h.cond, h.pred, h.sup, hreg, h1, h2]
        simp)
  | cmp c d a b =>
    simp only [Instr.wf, Bool.and_eq_true] at hw
    obtain ⟨⟨⟨hd, ha⟩, hb⟩, hc⟩ := hw
    have hc := of_decide_eq_true hc
    exact decodesBack_rr .q .g .g 15 hd (srcFits_of_sOk ha nofun) (srcFits_of_sOk hb nofun) (by omega)
      (fun x h => by simp [decodeDec, decScalar, h.major, h.minor, h.dst, h.srcA, h.srcB, hc]) (lends_xRR ..) nofun
  | qop o d a b =>
    simp only [Instr.wf, Bool.and_eq_true] at hw
    obtain ⟨⟨⟨hd, ha⟩, hb⟩, ho⟩ := hw
    have ho := of_decide_eq_true ho
    exact decodesBack_rr .q .q .q 15 hd (srcFits_of_sOk ha nofun) (srcFits_of_sOk hb nofun) (by omega)
      (fun x h => by simp [decodeDec, decScalar, h.major, h.minor, h.dst, h.srcA, h.srcB, ho]) (lends_xRR ..) nofun
  | qmovQFromG d a =>
    obtain ⟨hd, ha⟩ := Bool.and_eq_true_iff.1 hw
    exact decodesBack_rr .q .g .zero 15 hd (srcFits_of_sOk ha nofun) sOk_zero (by decide)
      (fun x h => by simp [decodeDec, decScalar, h.major, h.minor, h.dst, h.srcA]) (lends_xRR ..) nofun
  | qmovGFromQ d a =>
    obtain ⟨hd, ha⟩ := Bool.and_eq_true_iff.1 hw
    exact decodesBack_rr .g .q .zero 15 hd (srcFits_of_sOk ha nofun) sOk_zero (by decide)
      (fun x h => by simp [decodeDec, decScalar, h.major, h.minor, h.dst, h.srcA]) (lends_xRR ..) nofun
  | qmovAllg d =>
    exact decodesBack_rr .g .zero .zero 15 hw sOk_zero sOk_zero (by decide)
      (fun x h => by simp [decodeDec, decScalar, h.major, h.minor, h.dst]) (lends_xRR ..) nofun
  | qmovAllq s a =>
    exact decodesBack_rr .zero .g .zero 15 rfl (srcFits_of_sOk hw nofun) sOk_zero (by decide)
      (fun x h => by simp [decodeDec, decScalar, h.major, h.minor, h.dst, h.srcA]) (lends_xRR ..) fun _ _ => rfl
  | sel d a b c =>
    simp only [Instr.wf, Bool.and_eq_true] at hw
    obtain ⟨⟨hd, ha⟩, hb⟩ := hw
    exact decodesBack_rr .g .g .g 15 hd (srcFits_of_sOk ha nofun) (srcFits_of_sOk hb nofun) (by omega)
      (fun x h => by simp [decodeDec, decScalar, h.major, h.minor, h.dst, h.srcA, h.srcB]) (lends_xRR ..) nofun
  | ldb d b k off | lds d b k off | ldw d b k off | ldd d b k off | stb d b k off | sts d b k off | stw d b k off
  | std d b k off =>
    exact decodesBack_m fun x h ho => by simp [decodeDec, decMem, SlotWord.mem, h.major, h.regD, h.regB, h.cls, ho]
  | ldAcq d b k sc z zx =>
    have := b2n_lt zx
    simp only [Instr.wf, Bool.and_eq_true] at hw
    obtain ⟨hsc, hz⟩ := hw
    have hsc := of_decide_eq_true hsc
    have hz : (zx && z == 3#2) = false := by cases zx <;> simp_all
    exact decodesBack_mo (by omega) fun x h he => by
      have h1 : (128 + sc.toNat * 16 + z.toNat * 4 + b2n zx * 2) / 128 = 1 := by omega
      have h2 : (128 + sc.toNat * 16 + z.toNat * 4 + b2n zx * 2) / 16 % 8 = sc.toNat := by omega
      have h3 : (128 + sc.toNat * 16 + z.toNat * 4 + b2n zx * 2) / 4 % 4 = z.toNat := by omega
      have h4 : (128 + sc.toNat * 16 + z.toNat * 4 + b2n zx * 2) / 2 % 2 = b2n zx := by omega
      have h5 : (128 + sc.toNat * 16 + z.toNat * 4 + b2n zx * 2) % 2 = 0 := by omega
      simp [decodeDec, decMem, plain, h.major, h.regD, h.regB, h.cls, h.form, h.scope, h.size, h.zx, h.last, he, h1, h2, h3, h4, h5, hsc, hz]
  | stRel d b k sc z =>
    have hsc := of_decide_eq_true hw
    exact decodesBack_mo (by omega) fun x h he => by
      have h1 : (256 + sc.toNat * 16 + z.toNat * 4) / 128 = 2 := by omega
      have h2 : (256 + sc.toNat * 16 + z.toNat * 4) / 16 % 8 = sc.toNat := by omega
      have h3 : (256 + sc.toNat * 16 + z.toNat * 4) / 4 % 4 = z.toNat := by omega
      have h4 : (256 + sc.toNat * 16 + z.toNat * 4) / 2 % 2 = 0 := by omega
      have h5 : (256 + sc.toNat * 16 + z.toNat * 4) % 2 = 0 := by omega
      simp [decodeDec, decMem, plain, h.major, h.regD, h.regB, h.cls, h.form, h.scope, h.size, h.zx, h.last, he, h1, h2, h3, h4, h5, hsc]
  | ldh d b k n z zx | chkh d b k n z zx =>
    have := b2n_lt zx
    have hz : (zx && z == 3#2) = false := by cases zx <;> simp_all [Instr.wf]
    exact decodesBack_mo (by omega) fun x h he => by
      have h2 : (n.toNat * 16 + z.toNat * 4 + b2n zx * 2) / 16 = n.toNat := by omega
      have h3 : (n.toNat * 16 + z.toNat * 4 + b2n zx * 2) / 4 % 4 = z.toNat := by omega
      have h4 : (n.toNat * 16 + z.toNat * 4 + b2n zx * 2) / 2 % 2 = b2n zx := by omega
      have h5 : (n.toNat * 16 + z.toNat * 4 + b2n zx * 2) % 2 = 0 := by omega
      simp [decodeDec, decMem, plain, h.major, h.regD, h.regB, h.cls, h.entry, h.size, h.zx, h.last, he, h2, h3, h4, h5, hz]
  | aadd d b v o sc z | asadd d b v o sc z | amin d b v o sc z | amax d b v o sc z | aand d b v o sc z | aor d b v o sc z
  | axchg d b v o sc z | acas d b v o sc z =>
    have := b2n_lt z
    exact decodesBack_a hw (by omega) fun x h hs ho => by
      simp only [decodeDec, decMem, atom, plain, h.major, h.regD, h.regB, h.regV, h.order, h.scope, h.size, h.ext, ho]
      simp [hs]; omega
  | acas2 d b v o sc | remop d b v o sc =>
    exact decodesBack_a hw (by decide) fun x h hs ho => by
      simp only [decodeDec, decMem, atom, plain, h.major, h.regD, h.regB, h.regV, h.order, h.scope, h.size, h.ext, ho]
      simp [hs]
  | pgdisc a b | pgpref a b | pgprefRec a b | pgprefRecw a b =>
    obtain ⟨ha, hb⟩ := Bool.and_eq_true_iff.1 hw
    exact decodesBack_rr .zero .g .g 15 rfl (srcFits_of_sOk ha nofun) (srcFits_of_sOk hb nofun) (by decide)
      (fun x h => by simp [decodeDec, decMem, h.major, h.minor, h.srcA, h.srcB]) (lends_xRR ..) nofun
  | pkget d a =>
    obtain ⟨hd, ha⟩ := Bool.and_eq_true_iff.1 hw
    exact decodesBack_rr .g .g .zero 15 hd (srcFits_of_sOk ha nofun) sOk_zero (by decide)
      (fun x h => by simp [decodeDec, decPacket, retrDefines, h.major, h.minor, h.dst, h.srcA])
      (lends_zero (regG_lt hd) (reg_lt_of_sOk ha) (by decide)) nofun
  | pkreply a b | pkfwd a b | pkdone a b =>
    obtain ⟨ha, hb⟩ := Bool.and_eq_true_iff.1 hw
    exact decodesBack_rr .zero .g .g 15 rfl (srcFits_of_sOk ha nofun) (srcFits_of_sOk hb nofun) (by decide)
      (fun x h => by simp [decodeDec, decPacket, retrDefines, h.major, h.minor, h.srcA, h.srcB])
      (lends_zero (by decide) (reg_lt_of_sOk ha) (reg_lt_of_sOk hb)) nofun
  | _ => cases he <;> cases hp



/-- Control operations, slot 0 (R71). -/
theorem control_decodesBack {i : Instr} {e : Enc} (he : encode i = some e) (hp : e.pos = 0) (hw : i.wf = true) :
    DecodesBack i (encode i) := by
  cases i with
  | br disp | call disp =>
    exact decodesBack_b (by decide) fun x h => by simp [decodeDec, decControl, plain, h.major, h.fieldQ, h.fieldI, h.ext]
  | brt q disp | brf q disp =>
    exact decodesBack_b q.isLt fun x h => by simp [decodeDec, decControl, plain, h.major, h.fieldQ, h.fieldI, h.ext]
  | callt i t c | jmpt i t c =>
    exact decodesBack_c i.isLt t.isLt (by have := c.isLt; omega) fun x h => by
      simp [decodeDec, decControl, plain, h.major, h.fieldX, h.fieldY, h.limit, h.low, h.ext]
  | ret a | waitc a =>
    exact decodesBack_c a.isLt (by decide) (by decide) fun x h => by
      simp [decodeDec, decControl, plain, h.major, h.fieldX, h.fieldY, h.fieldI, h.ext]
  | lpad n =>
    exact decodesBack_c (by decide) (by decide) (by omega) fun x h => by
      simp [decodeDec, decControl, plain, h.major, h.fieldX, h.fieldY, h.fieldI, h.ext, n.isLt]
  | loop a n | csrr a n | csrw a n =>
    exact decodesBack_c a.isLt (by decide) (by omega) fun x h => by
      simp [decodeDec, decControl, plain, h.major, h.fieldX, h.fieldY, h.fieldI, h.ext, n.isLt]
  | loopi c n =>
    exact decodesBack_c (by omega) (by omega) n.isLt fun x h => by
      simp [decodeDec, decControl, plain, h.major, h.count, h.fieldI, h.ext, Nat.div_add_mod]
  | lbrk q n =>
    simp only [Instr.wf, Bool.and_eq_true, bne_iff_ne, ne_eq, ← BitVec.toNat_inj] at hw
    exact decodesBack_c (by omega) (by decide) (by omega) fun x h => by
      have : n.toNat % 8 = n.toNat := Nat.mod_eq_of_lt n.isLt
      simp [decodeDec, decControl, plain, h.major, h.fieldX, h.fieldY, h.fieldI, h.ext, q.isLt, n.isLt, this]
      simpa using hw
  | yield | endTask | eret =>
    exact decodesBack_c (by decide) (by decide) (by decide) fun x h => by
      simp [decodeDec, decControl, plain, h.major, h.all, h.ext]
  | waite t sc a b =>
    simp only [Instr.wf, Bool.and_eq_true, decide_eq_true_eq] at hw
    obtain ⟨ht, hsc⟩ := hw
    exact decodesBack_c a.isLt b.isLt (by omega) fun x h => by
      have h1 : (t.toNat + 8 * sc.toNat) % 8 = t.toNat := by omega
      have h2 : (t.toNat + 8 * sc.toNat) / 8 = sc.toNat := by omega
      have h3 : BitVec.ofNat 3 (t.toNat + 8 * sc.toNat) = t := ofNat_of_mod h1
      have h4 : sc.toNat % 8 = sc.toNat := by omega
      simp [decodeDec, decControl, plain, h.major, h.fieldX, h.fieldY, h.fieldI, h.ext, h1, h2, h3, h4, ht, hsc]
      omega
  | twaitAll a =>
    exact decodesBack_c (by decide) a.isLt (by decide) fun x h => by
      simp [decodeDec, decControl, plain, h.major, h.fieldX, h.fieldY, h.fieldI, h.ext]
  | twait a b | twaitZ a b =>
    exact decodesBack_c (by omega) b.isLt (by decide) fun x h => by
      simp [decodeDec, decControl, plain, h.major, h.fieldX, h.fieldY, h.fieldI, h.ext, a.isLt]
  | trapi n =>
    exact decodesBack_c (by decide) (by decide) (by omega) fun x h => by
      simp [decodeDec, decControl, plain, h.major, h.fieldX, h.fieldY, h.fieldI, h.ext, n.isLt]
  | fence sc =>
    exact decodesBack_c (by decide) (by decide) (by omega) fun x h => by
      have : sc.toNat % 8 = sc.toNat := Nat.mod_eq_of_lt sc.isLt
      simp [decodeDec, decControl, plain, h.major, h.fieldX, h.fieldY, h.fieldI, h.ext, sc.isLt, this]
      simpa [Instr.wf] using hw
  | launch a d | launchW a d =>
    exact decodesBack_c a.isLt (by omega) (by decide) fun x h => by
      simp [decodeDec, decControl, plain, h.major, h.fieldX, h.fieldY, h.fieldI, h.ext, d.isLt]
  | barinit a b n | bararr a b n | barq a b n =>
    exact decodesBack_c a.isLt b.isLt (by omega) fun x h => by
      simp [decodeDec, decControl, plain, h.major, h.fieldX, h.fieldY, h.fieldI, h.ext, n.isLt]
  | barwait a b n =>
    have hn : n.toNat < 512 := n.isLt
    exact decodesBack_c a.isLt b.isLt (by omega) fun x h => by
      have h1 : n.toNat / 512 = 0 := by omega
      simp [decodeDec, decControl, plain, h.major, h.fieldX, h.fieldY, h.fieldI, h.ext, h1]
      omega
  | barwaitA a n =>
    have hn : n.toNat < 512 := n.isLt
    exact decodesBack_c a.isLt (by decide) (by omega) fun x h => by
      have h1 : (512 + n.toNat) / 512 = 1 := by omega
      have h2 : BitVec.ofNat 9 (512 + n.toNat) = n := ofNat_of_mod (by omega)
      simp [decodeDec, decControl, plain, h.major, h.fieldX, h.fieldY, h.fieldI, h.ext, h1, h2]
      omega
  | _ => cases he <;> cases hp



/-- Tile, copy and engine operations, slot 3 (R75). -/
theorem tile_decodesBack {i : Instr} {e : Enc} (he : encode i = some e) (hp : e.pos = 3) (hw : i.wf = true) :
    DecodesBack i (encode i) := by
  cases i with
  | tdset x y | algld x y | collOpen x y | collRun x y | collShrink x y | collJoin x y | collCatch x y | collClose x y =>
    exact decodesBack_t (by omega) y.isLt (by decide) (by decide) fun w h => by
      simp [decodeDec, decTile, plain, h.major, h.fieldX, h.fieldY, h.fieldZ, h.minor, h.ext, x.isLt]
  | tscl x y | tsclZ x y | tacc x y | taccZ x y | tdrain x y | tdrainZ x y =>
    exact decodesBack_t (by omega) (by omega) (by decide) (by decide) fun w h => by
      simp [decodeDec, decTile, plain, h.major, h.fieldX, h.fieldY, h.fieldZ, h.minor, h.ext, x.isLt, y.isLt]
  | tmma x y z | tmmas x y z | tmmao x y z | tresc x y z | trescZ x y z | txps x y z | tld x y z | tst x y z | tstx x y z
  | tcpyMm x y z | tcpyTm x y z | tcpyMt x y z | tcpyTt x y z | tcpyd x y z | tmskld x y z =>
    exact decodesBack_t (by omega) (by omega) z.isLt (by decide) fun w h => by
      simp [decodeDec, decTile, plain, h.major, h.fieldX, h.fieldY, h.fieldZ, h.minor, h.ext, x.isLt, y.isLt]
  | tcens n x y =>
    exact decodesBack_t x.isLt y.isLt (by decide) (by omega) fun w h => by
      have : n.toNat % 4 = n.toNat := Nat.mod_eq_of_lt n.isLt
      simp [decodeDec, decTile, plain, h.major, h.fieldX, h.fieldY, h.fieldZ, h.minor, h.ext, n.isLt, this]
      simp [Instr.wf] at hw
      omega
  | tmmaa x y z n =>
    have hn : n.toNat < 4 := n.isLt
    exact decodesBack_t (by omega) y.isLt z.isLt (by omega) fun w h => by
      have h1 : n.toNat / 4 = 0 := by omega
      simp [decodeDec, decTile, plain, h.major, h.fieldX, h.fieldY, h.fieldZ, h.minor, h.ext, x.isLt, h1]
      omega
  | tmmaaSw x y z n =>
    have hn : n.toNat < 4 := n.isLt
    exact decodesBack_t (by omega) y.isLt z.isLt (by omega) fun w h => by
      have h1 : (4 + n.toNat) / 4 = 1 := by omega
      have h2 : BitVec.ofNat 2 (4 + n.toNat) = n := ofNat_of_mod (by omega)
      simp [decodeDec, decTile, plain, h.major, h.fieldX, h.fieldY, h.fieldZ, h.minor, h.ext, x.isLt, h1, h2]
      omega
  | tconj x y n | tnorm x y n | dset x y n =>
    exact decodesBack_t (by omega) y.isLt (by decide) (by omega) fun w h => by
      simp [decodeDec, decTile, plain, h.major, h.fieldX, h.fieldY, h.fieldZ, h.minor, h.ext, x.isLt, n.isLt]
  | tzero x =>
    exact decodesBack_t (by omega) (by decide) (by decide) (by decide) fun w h => by
      simp [decodeDec, decTile, plain, h.major, h.fieldX, h.fieldY, h.fieldZ, h.minor, h.ext, x.isLt]
  | noise x n =>
    exact decodesBack_t x.isLt (by decide) (by decide) (by omega) fun w h => by
      simp [decodeDec, decTile, plain, h.major, h.fieldX, h.fieldY, h.fieldZ, h.minor, h.ext, n.isLt]
  | _ => cases he <;> cases hp


/-- The element-wise operations on two vectors of one width. -/
theorem elementwise_decodesBack {t : BitVec 2} {d : Dst} {a b : Src} (ha : sOk .v a = true) (hb : sOk .v b = true) {i : Instr}
    (hi : i ∈ [Instr.vadd t d a b, .vsub t d a b, .vsadd t d a b, .vssub t d a b, .vmul t d a b, .vmulh t d a b, .vmac t d a b,
      .vmin t d a b, .vmax t d a b, .vand t d a b, .vor t d a b, .vxor t d a b, .vshl t d a b, .vshr t d a b, .vsra t d a b, .vsel t d a b]) :
    DecodesBack i (encode i) := by
  simp only [List.mem_cons, List.not_mem_nil, or_false] at hi
  rcases hi with rfl | rfl | rfl | rfl | rfl | rfl | rfl | rfl | rfl | rfl | rfl | rfl | rfl | rfl | rfl | rfl
  all_goals
    exact decodesBack_rr .v .v .v 15 (dOk_v d) (srcFits_of_sOk ha nofun) (srcFits_of_sOk hb nofun) (by omega)
      (fun x h => by simp [decodeDec, decVector, h.major, h.minor, h.dst, h.srcA, h.srcB, t.isLt]) (lends_xRR ..) nofun

/-- The operations on one vector of one width: its sums, extremes, running sums and sign counts among them. -/
theorem unary_decodesBack {t : BitVec 2} {d : Dst} {a : Src} (ha : sOk .v a = true) {i : Instr}
    (hi : i ∈ [Instr.vabs t d a, .vneg t d a, .vreds t d a, .vredmMax t d a, .vscan t d a, .vcls t d a, .vredsSq t d a,
      .vredmMin t d a, .vscanEx t d a, .vclsMin t d a, .vredmAmax t d a]) : DecodesBack i (encode i) := by
  have form (n : Nat) : (4 * n + t.toNat) / 4 = n ∧ BitVec.ofNat 2 (4 * n + t.toNat) = t :=
    ⟨by omega, ofNat_of_mod (by omega)⟩
  obtain ⟨h0, h0'⟩ := form 0
  obtain ⟨h1, h1'⟩ := form 1
  obtain ⟨h2, h2'⟩ := form 2
  simp only [Nat.reduceMul, Nat.mul_zero] at h0 h0' h1 h1' h2 h2'
  simp only [List.mem_cons, List.not_mem_nil, or_false] at hi
  rcases hi with rfl | rfl | rfl | rfl | rfl | rfl | rfl | rfl | rfl | rfl | rfl
  all_goals
    exact decodesBack_rr .v .v .zero 15 (dOk_v d) (srcFits_of_sOk ha nofun) sOk_zero (by omega)
      (fun x h => by
        simp only [decodeDec, decVector, h.major, h.minor, h.dst, h.srcA, h0, h0', h1, h1', h2, h2']
        simp [t.isLt]) (lends_xRR ..) nofun

theorem vmovi_decodesBack (t : BitVec 2) (d : Dst) (c : BitVec 16) : DecodesBack (.vmovi t d c) (encode (.vmovi t d c)) := by
  have := b2n_lt d.s
  have := d.reg.isLt
  have h : (wVI d (t.toNat * 65536 + c.toNat)).toNat = 0x22 * 2 ^ 25 + d.reg.toNat % 64 * 2 ^ 19 + b2n d.s * 2 ^ 18 + t.toNat * 65536 + c.toNat := by
    rw [wVI, BitVec.toNat_ofNat, Nat.mod_eq_of_lt] <;> omega
  have hs : bit (wVI d (t.toNat * 65536 + c.toNat)).toNat 18 = d.s := bit_of_b2n (by omega)
  refine decodesBack_some (by decide) (by omega) ?_
  generalize (wVI d (t.toNat * 65536 + c.toNat)).toNat = w at h hs ⊢
  have hm : (SlotWord.mk w true (d.reg.toNat / 64)).major = 0x22 := by simp only [major, f, bits]; omega
  have ht : BitVec.ofNat 2 (bits w 17 16) = t := ofNat_of_mod (by rw [bits]; omega)
  have hc : BitVec.ofNat 16 (bits w 15 0) = c := ofNat_of_mod (by rw [bits]; omega)
  have hr : BitVec.ofNat 7 (bits w 24 19 + 64 * bits (d.reg.toNat / 64) 0 0) = d.reg := ofNat_of_mod (by simp only [bits]; omega)
  have he : d.reg.toNat / 64 / 2 = 0 := by omega
  simp only [decodeDec, decVector, if_true, hm, f, ht, hc, hr, hs, he]
  simp

/-- What the slot checks of a source ask of its bits (R51, R54). -/
theorem bad_src_of_srcFits {f : File} {s : Src} (h : srcFits f s = true) :
    bad0Reg f s.reg.toNat s.l = false ∧ bad1Src f s = false := by simpa [srcFits] using h

theorem vdefer_decodesBack {c : BitVec 3} {q : BitVec 2} {s : Bool} {a b : Src} (hw : (Instr.vdefer c q s a b).wf = true) :
    DecodesBack (.vdefer c q s a b) (encode (.vdefer c q s a b)) := by
  simp only [Instr.wf, Bool.and_eq_true, bne_iff_ne, ne_eq, ← BitVec.toNat_inj] at hw
  obtain ⟨⟨⟨hc, ha⟩, hl⟩, hb⟩ := hw
  obtain ⟨-, ha1⟩ := bad_src_of_srcFits (srcFits_of_sOk ha nofun)
  obtain ⟨hb0, hb1⟩ := bad_src_of_srcFits (srcFits_of_sOk hb nofun)
  have hreg : (BitVec.ofNat 7 (q.toNat + 8 * c.toNat)).toNat = q.toNat + 8 * c.toNat := by
    rw [BitVec.toNat_ofNat]; omega
  obtain ⟨he, hd, hla, hlb⟩ := lends_xRR ⟨0#7, s⟩ a b
  have hd : xRR ⟨0#7, s⟩ a b % 2 = 0 := by simpa using hd
  have hc : c.toNat ≠ 0 := hc
  have he : Lends (xRR ⟨0#7, s⟩ a b) ⟨.ofNat 7 (q.toNat + 8 * c.toNat), s⟩ a b :=
    ⟨he, by simp only [hreg]; omega, hla, hlb⟩
  refine decodesBack_wRR (by decide) he fun x h hx => ?_
  have hD : x.f 24 19 = q.toNat + 8 * c.toNat := h.regD.trans (by simp only [hreg]; omega)
  have h1 : x.f 24 22 = c.toNat := by simp only [f, bits] at hD ⊢; omega
  have h2 : x.f 20 19 = q.toNat := by simp only [f, bits] at hD ⊢; omega
  have h3 : bit x.w 21 = false := by simp only [f, bits] at hD; simp [bit]; omega
  have h4 : bits x.ext 0 0 = 0 := by rw [hx]; simpa [bits] using hd
  have h5 : x.ext / 8 = 0 := Nat.div_eq_of_lt h.ext
  simp only [decodeDec, decVector, h.major, h.minor, h.dst, h.srcA, h.srcB, h1, h2, h3, h4, h5, ha1, hb0, hb1]
  cases hal : a.l <;> simp_all

theorem vdrain_decodesBack {c : BitVec 3} {q : BitVec 2} {d : Dst} {k : BitVec 3} (hw : (Instr.vdrain c q d k).wf = true) :
    DecodesBack (.vdrain c q d k) (encode (.vdrain c q d k)) := by
  have hc : c.toNat ≠ 0 := by simpa [Instr.wf, ← BitVec.toNat_inj] using hw
  have hd := d.reg.isLt
  have hA : (BitVec.ofNat 7 (q.toNat + 4 * c.toNat)).toNat = q.toNat + 4 * c.toNat := by
    rw [BitVec.toNat_ofNat]; omega
  have hB : (k.setWidth 7).toNat = k.toNat := by
    rw [BitVec.toNat_setWidth]; omega
  refine decodesBack_wRR (by decide) ⟨by omega, by omega, by simp only [hA]; omega, by simp only [hB]; omega⟩ fun x h hx => ?_
  have hA : x.f 17 12 = q.toNat + 4 * c.toNat := h.regA.trans (by simp only [hA]; omega)
  have h1 : x.f 16 14 = c.toNat := by simp only [f, bits] at hA ⊢; omega
  have h2 : x.f 13 12 = q.toNat := by simp only [f, bits] at hA ⊢; omega
  have h3 : bit x.w 17 = false := by simp only [f, bits] at hA; simp [bit]; omega
  have h4 : x.f 10 5 = k.toNat := h.regB.trans (by simp only [hB]; omega)
  have h5 : x.ext / 2 = 0 := by omega
  simp only [decodeDec, decVector, h.major, h.minor, h.dst, h.srcA, h.srcB, h1, h2, h3, h4, h5]
  simp [hc, k.isLt]

/-- The optimiser's forms of a core (R74, R313). -/
theorem vopt_decodesBack {s : Bool} {d a : BitVec 6} {b : Src} (hb : sOk .g b = true) {i : Instr}
    (hi : i ∈ [Instr.voptm s d a b, .voptv s d a b, .vopts s d a b]) : DecodesBack i (encode i) := by
  obtain ⟨-, hb1⟩ := bad_src_of_srcFits (srcFits_of_sOk hb nofun)
  have hd : (d.setWidth 7).toNat = d.toNat := by rw [BitVec.toNat_setWidth]; omega
  have ha : (a.setWidth 7).toNat = a.toNat := by rw [BitVec.toNat_setWidth]; omega
  have he (s) : Lends 0 ⟨d.setWidth 7, s⟩ ⟨a.setWidth 7, false⟩ b :=
    lends_zero (by simp only [hd]; omega) (by simp only [ha]; omega) (reg_lt_of_sOk hb)
  have hd' : BitVec.ofNat 6 (d.toNat % 64) = d := ofNat_of_mod (by omega)
  have ha' : BitVec.ofNat 6 (a.toNat % 64) = a := ofNat_of_mod (by omega)
  simp only [List.mem_cons, List.not_mem_nil, or_false] at hi
  rcases hi with rfl | rfl | rfl
  all_goals
    refine decodesBack_wRR (by decide) (he s) fun x h hx => ?_
    simp only [decodeDec, decVector, h.major, h.minor, h.dst, h.srcA, h.srcB, h.regD, h.regA, hx, hb1, hd, ha, hd', ha']
    simp

/-- The optimiser's lane forms of a retriever (R391). -/
theorem voptL_decodesBack {d : Dst} {a : BitVec 7} {b : Src} (hb : sOk .g b = true) {i : Instr}
    (hi : i ∈ [Instr.voptmL d a b, .voptvL d a b, .voptsL d a b]) : DecodesBack i (encode i) := by
  obtain ⟨-, hb1⟩ := bad_src_of_srcFits (srcFits_of_sOk hb nofun)
  have he : Lends (xRR d ⟨a, false⟩ ⟨0#7, false⟩) d ⟨a, false⟩ b := by
    obtain ⟨he, hd, ha, hz⟩ := lends_xRR d ⟨a, false⟩ ⟨0#7, false⟩
    exact ⟨he, hd, ha, hz.trans (by simp [Nat.div_eq_of_lt (reg_lt_of_sOk hb)])⟩
  simp only [List.mem_cons, List.not_mem_nil, or_false] at hi
  rcases hi with rfl | rfl | rfl
  all_goals
    refine decodesBack_wRR (by decide) he fun x h hx => ?_
    have h5 : x.ext / 8 = 0 := Nat.div_eq_of_lt h.ext
    simp only [decodeDec, retrDefines, decVector, h.major, h.minor, h.dst, h.srcA, h.srcB, h5, hb1]
    simp

/-- Vector operations, slot 2 (R74, R391). -/
theorem vector_decodesBack {i : Instr} {e : Enc} (he : encode i = some e) (hp : e.pos = 2) (hw : i.wf = true) :
    DecodesBack i (encode i) := by
  cases i with
  | vadd t d a b | vsub t d a b | vsadd t d a b | vssub t d a b | vmul t d a b | vmulh t d a b | vmac t d a b | vmin t d a b
  | vmax t d a b | vand t d a b | vor t d a b | vxor t d a b | vshl t d a b | vshr t d a b | vsra t d a b | vsel t d a b =>
    obtain ⟨ha, hb⟩ := Bool.and_eq_true_iff.1 hw
    exact elementwise_decodesBack (t := t) (d := d) ha hb (by simp)
  | vmulhQ t d a b | vshlS t d a b =>
    obtain ⟨ha, hb⟩ := Bool.and_eq_true_iff.1 hw
    have h1 : (4 + t.toNat) / 4 = 1 := by omega
    have h2 : BitVec.ofNat 2 (4 + t.toNat) = t := ofNat_of_mod (by omega)
    exact decodesBack_rr .v .v .v 15 (dOk_v d) (srcFits_of_sOk ha nofun) (srcFits_of_sOk hb nofun) (by omega)
      (fun x h => by simp [decodeDec, decVector, h.major, h.minor, h.dst, h.srcA, h.srcB, h1, h2]) (lends_xRR ..) nofun
  | vabs t d a | vneg t d a | vreds t d a | vredmMax t d a | vscan t d a | vcls t d a | vredsSq t d a | vredmMin t d a
  | vscanEx t d a | vclsMin t d a | vredmAmax t d a =>
    exact unary_decodesBack (t := t) (d := d) hw (by simp)
  | vbcast t d a =>
    exact decodesBack_rr .v .g .zero 15 (dOk_v d) (srcFits_of_sOk hw nofun) sOk_zero (by omega)
      (fun x h => by simp [decodeDec, decVector, h.major, h.minor, h.dst, h.srcA, t.isLt]) (lends_xRR ..) nofun
  | vbcastV t d a b =>
    obtain ⟨ha, hb⟩ := Bool.and_eq_true_iff.1 hw
    have h1 : (4 + t.toNat) / 4 = 1 := by omega
    have h2 : BitVec.ofNat 2 (4 + t.toNat) = t := ofNat_of_mod (by omega)
    exact decodesBack_rr .v .v .g 15 (dOk_v d) (srcFits_of_sOk ha nofun) (srcFits_of_sOk hb nofun) (by omega)
      (fun x h => by simp [decodeDec, decVector, h.major, h.minor, h.dst, h.srcA, h.srcB, h1, h2]) (lends_xRR ..) nofun
  | vnshr t r d a b =>
    simp only [Instr.wf, Bool.and_eq_true, bne_iff_ne, ne_eq, ← BitVec.toNat_inj] at hw
    obtain ⟨⟨ha, hb⟩, ht⟩ := hw
    have ht : t.toNat < 3 := by have := t.isLt; change ¬ t.toNat = 3 at ht; omega
    have := b2n_lt r
    have h1 : (t.toNat + 4 * b2n r) % 4 = t.toNat := by omega
    have h2 : (t.toNat + 4 * b2n r) / 4 = b2n r := by omega
    have h3 : BitVec.ofNat 2 (t.toNat + 4 * b2n r) = t := ofNat_of_mod h1
    have h4 : t.toNat + 4 * b2n r < 8 := by omega
    exact decodesBack_rr .v .v .g 15 (dOk_v d) (srcFits_of_sOk ha nofun) (srcFits_of_sOk hb nofun) (by omega)
      (fun x h => by simp [decodeDec, decVector, h.major, h.minor, h.dst, h.srcA, h.srcB, h1, h2, h3, h4, ht]) (lends_xRR ..) nofun
  | vgath r t d a b =>
    simp only [Instr.wf, Bool.and_eq_true, bne_iff_ne, ne_eq, ← BitVec.toNat_inj] at hw
    obtain ⟨⟨ha, hb⟩, ht⟩ := hw
    have ht : t.toNat ≠ 0 := ht
    have := b2n_lt r
    have h1 : (t.toNat + 4 * b2n r) % 4 = t.toNat := by omega
    have h2 : (t.toNat + 4 * b2n r) / 4 = b2n r := by omega
    have h3 : BitVec.ofNat 2 (t.toNat + 4 * b2n r) = t := ofNat_of_mod h1
    have h4 : t.toNat + 4 * b2n r < 8 := by omega
    exact decodesBack_rr .v .v .g 15 (dOk_v d) (srcFits_of_sOk ha nofun) (srcFits_of_sOk hb nofun) (by omega)
      (fun x h => by
        simp only [decodeDec, decVector, h.major, h.minor, h.dst, h.srcA, h.srcB, h1, h2, h3, h4]
        simp [ht]) (lends_xRR ..) nofun
  | vscat t d a b =>
    simp only [Instr.wf, Bool.and_eq_true, bne_iff_ne, ne_eq, ← BitVec.toNat_inj] at hw
    obtain ⟨⟨ha, hb⟩, ht⟩ := hw
    have ht : 0 < t.toNat := Nat.pos_of_ne_zero ht
    exact decodesBack_rr .v .v .g 15 (dOk_v d) (srcFits_of_sOk ha nofun) (srcFits_of_sOk hb nofun) (by omega)
      (fun x h => by simp [decodeDec, decVector, h.major, h.minor, h.dst, h.srcA, h.srcB, ht, t.isLt]) (lends_xRR ..) nofun
  | vcmp c t d a b | vunpk c t d a b =>
    obtain ⟨ha, hb⟩ := Bool.and_eq_true_iff.1 hw
    have h1 : (t.toNat + 4 * c.toNat) / 4 = c.toNat := by omega
    have h2 : BitVec.ofNat 2 (t.toNat + 4 * c.toNat) = t := ofNat_of_mod (by omega)
    exact decodesBack_rr .v .v .v 15 (dOk_v d) (srcFits_of_sOk ha nofun) (srcFits_of_sOk hb nofun) (by omega)
      (fun x h => by simp [decodeDec, decVector, h.major, h.minor, h.dst, h.srcA, h.srcB, h1, h2]) (lends_xRR ..) nofun
  | vcvt t c d a b =>
    obtain ⟨ha, hb⟩ := Bool.and_eq_true_iff.1 hw
    have h1 : (t.toNat + 4 * c.toNat) / 4 = c.toNat := by omega
    have h2 : BitVec.ofNat 2 (t.toNat + 4 * c.toNat) = t := ofNat_of_mod (by omega)
    exact decodesBack_rr .v .v .g 15 (dOk_v d) (srcFits_of_sOk ha nofun) (srcFits_of_sOk hb nofun) (by omega)
      (fun x h => by simp [decodeDec, decVector, h.major, h.minor, h.dst, h.srcA, h.srcB, h1, h2]) (lends_xRR ..) nofun
  | vwiden t r u d a =>
    simp only [Instr.wf, Bool.and_eq_true, bne_iff_ne, ne_eq, ← BitVec.toNat_inj] at hw
    obtain ⟨ha, ht⟩ := hw
    have ht : t.toNat < 3 := by have := t.isLt; change ¬ t.toNat = 3 at ht; omega
    have := b2n_lt r
    have := b2n_lt u
    have h1 : (t.toNat + 4 * b2n r + 8 * b2n u) % 4 = t.toNat := by omega
    have h2 : (t.toNat + 4 * b2n r + 8 * b2n u) / 4 % 2 = b2n r := by omega
    have h3 : (t.toNat + 4 * b2n r + 8 * b2n u) / 8 = b2n u := by omega
    have h4 : BitVec.ofNat 2 (t.toNat + 4 * b2n r + 8 * b2n u) = t := ofNat_of_mod h1
    exact decodesBack_rr .v .v .zero 15 (dOk_v d) (srcFits_of_sOk ha nofun) sOk_zero (by omega)
      (fun x h => by simp [decodeDec, decVector, h.major, h.minor, h.dst, h.srcA, h1, h2, h3, h4, ht]) (lends_xRR ..) nofun
  | vpack t d a b =>
    simp only [Instr.wf, Bool.and_eq_true, bne_iff_ne, ne_eq, ← BitVec.toNat_inj] at hw
    obtain ⟨⟨ha, hb⟩, ht⟩ := hw
    have ht : t.toNat < 3 := by have := t.isLt; change ¬ t.toNat = 3 at ht; omega
    exact decodesBack_rr .v .v .v 15 (dOk_v d) (srcFits_of_sOk ha nofun) (srcFits_of_sOk hb nofun) (by omega)
      (fun x h => by simp [decodeDec, decVector, h.major, h.minor, h.dst, h.srcA, h.srcB, ht]) (lends_xRR ..) nofun
  | vshuf t d a b =>
    simp only [Instr.wf, Bool.and_eq_true, bne_iff_ne, ne_eq, ← BitVec.toNat_inj] at hw
    obtain ⟨ha, ht⟩ := hw
    have ht : 0 < t.toNat := Nat.pos_of_ne_zero ht
    have hb : sOk .pt ⟨b.setWidth 7, false⟩ = true := decide_eq_true (by have := b.isLt; simp [File.size]; omega)
    have h1 : b.toNat % 128 = b.toNat := by omega
    exact decodesBack_rr .v .v .pt 15 (dOk_v d) (srcFits_of_sOk ha nofun) (srcFits_of_sOk hb fun _ => rfl) (by omega)
      (fun x h => by simp [decodeDec, decVector, h.major, h.minor, h.dst, h.srcA, h.srcB, ht, t.isLt, h1]) (lends_xRR ..) nofun
  | vkopAnd d a b | vkopOr d a b | vkopXor d a b | vkopAndn d a b =>
    simp only [Instr.wf, Bool.and_eq_true] at hw
    obtain ⟨⟨hd, ha⟩, hb⟩ := hw
    exact decodesBack_rr .k .k .k 15 hd (srcFits_of_sOk ha nofun) (srcFits_of_sOk hb nofun) (by decide)
      (fun x h => by simp [decodeDec, decVector, h.major, h.minor, h.dst, h.srcA, h.srcB]) (lends_xRR ..) nofun
  | vkopFromv d a =>
    obtain ⟨hd, ha⟩ := Bool.and_eq_true_iff.1 hw
    exact decodesBack_rr .k .v .zero 15 hd (srcFits_of_sOk ha nofun) sOk_zero (by decide)
      (fun x h => by simp [decodeDec, decVector, h.major, h.minor, h.dst, h.srcA]) (lends_xRR ..) nofun
  | vkopTov d a =>
    exact decodesBack_rr .v .k .zero 15 (dOk_v d) (srcFits_of_sOk hw nofun) sOk_zero (by decide)
      (fun x h => by simp [decodeDec, decVector, h.major, h.minor, h.dst, h.srcA]) (lends_xRR ..) nofun
  | vkopFromg d a =>
    obtain ⟨hd, ha⟩ := Bool.and_eq_true_iff.1 hw
    exact decodesBack_rr .k .g .zero 15 hd (srcFits_of_sOk ha nofun) sOk_zero (by decide)
      (fun x h => by simp [decodeDec, decVector, h.major, h.minor, h.dst, h.srcA]) (lends_xRR ..) nofun
  | vkopTog d a | vkopPopc d a =>
    obtain ⟨hd, ha⟩ := Bool.and_eq_true_iff.1 hw
    exact decodesBack_rr .g .k .zero 15 hd (srcFits_of_sOk ha nofun) sOk_zero (by decide)
      (fun x h => by simp [decodeDec, decVector, h.major, h.minor, h.dst, h.srcA]) (lends_xRR ..) nofun
  | vpld d a =>
    obtain ⟨hd, ha⟩ := Bool.and_eq_true_iff.1 hw
    exact decodesBack_rr .pt .v .zero 15 hd (srcFits_of_sOk ha nofun) sOk_zero (by decide)
      (fun x h => by simp [decodeDec, decVector, h.major, h.minor, h.dst, h.srcA]) (lends_xRR ..) nofun
  | vpsw d =>
    exact decodesBack_rr .pt .zero .zero 15 hw sOk_zero sOk_zero (by decide)
      (fun x h => by simp [decodeDec, decVector, h.major, h.minor, h.dst]) (lends_xRR ..) nofun
  | vpswAll s =>
    exact decodesBack_rr .zero .zero .zero 15 rfl sOk_zero sOk_zero (by decide)
      (fun x h => by simp [decodeDec, decVector, h.major, h.minor, h.dst]) (lends_xRR ..) fun _ _ => rfl
  | vextr t d a b =>
    simp only [Instr.wf, Bool.and_eq_true] at hw
    obtain ⟨⟨hd, ha⟩, hb⟩ := hw
    exact decodesBack_rr .g .v .g 15 hd (srcFits_of_sOk ha nofun) (srcFits_of_sOk hb nofun) (by omega)
      (fun x h => by simp [decodeDec, decVector, h.major, h.minor, h.dst, h.srcA, h.srcB, t.isLt]) (lends_xRR ..) nofun
  | vldr d a =>
    exact decodesBack_rr .v .g .zero 0 (dOk_v d) (srcFits_of_sOk hw nofun) sOk_zero (by decide)
      (fun x h => by simp [decodeDec, decVector, h.major, h.dst, h.srcA]) (lends_xRR ..) nofun
  | vstr s a b =>
    obtain ⟨ha, hb⟩ := Bool.and_eq_true_iff.1 hw
    exact decodesBack_rr .zero .g .v 0 rfl (srcFits_of_sOk ha nofun) (srcFits_of_sOk hb nofun) (by decide)
      (fun x h => by simp [decodeDec, decVector, h.major, h.dst, h.srcA, h.srcB]) (lends_xRR ..) fun _ _ => rfl
  | vrnds t d a b =>
    obtain ⟨ha, hb⟩ := Bool.and_eq_true_iff.1 hw
    exact decodesBack_rr .v .v .g 15 (dOk_v d) (srcFits_of_sOk ha nofun) (srcFits_of_sOk hb nofun) (by omega)
      (fun x h => by simp [decodeDec, decVector, h.major, h.minor, h.dst, h.srcA, h.srcB, t.isLt]) (lends_xRR ..) nofun
  | vrndsNar t r d a b =>
    simp only [Instr.wf, Bool.and_eq_true, bne_iff_ne, ne_eq, ← BitVec.toNat_inj] at hw
    obtain ⟨⟨ha, hb⟩, ht⟩ := hw
    have ht : t.toNat < 3 := by have := t.isLt; change ¬ t.toNat = 3 at ht; omega
    have := b2n_lt r
    have h1 : (t.toNat + 4 + 8 * b2n r) % 4 = t.toNat := by omega
    have h2 : (t.toNat + 4 + 8 * b2n r) / 4 % 2 = 1 := by omega
    have h3 : (t.toNat + 4 + 8 * b2n r) / 8 = b2n r := by omega
    have h4 : BitVec.ofNat 2 (t.toNat + 4 + 8 * b2n r) = t := ofNat_of_mod h1
    have h5 : ¬ t.toNat + 4 + 8 * b2n r < 4 := by omega
    exact decodesBack_rr .v .v .g 15 (dOk_v d) (srcFits_of_sOk ha nofun) (srcFits_of_sOk hb nofun) (by omega)
      (fun x h => by
        simp only [decodeDec, decVector, h.major, h.minor, h.dst, h.srcA, h.srcB, h1, h2, h3, h4, h5]
        simp [ht]) (lends_xRR ..) nofun
  | vexp2 d a b | vexp2Q d a b | vlog2 d a b =>
    obtain ⟨ha, hb⟩ := Bool.and_eq_true_iff.1 hw
    exact decodesBack_rr .v .v .g 15 (dOk_v d) (srcFits_of_sOk ha nofun) (srcFits_of_sOk hb nofun) (by decide)
      (fun x h => by simp [decodeDec, decVector, h.major, h.minor, h.dst, h.srcA, h.srcB]) (lends_xRR ..) nofun
  | vrcp d a | vrsq d a =>
    exact decodesBack_rr .v .v .zero 15 (dOk_v d) (srcFits_of_sOk hw nofun) sOk_zero (by decide)
      (fun x h => by simp [decodeDec, decVector, h.major, h.minor, h.dst, h.srcA]) (lends_xRR ..) nofun
  | vdivq d a b =>
    obtain ⟨ha, hb⟩ := Bool.and_eq_true_iff.1 hw
    exact decodesBack_rr .v .v .v 15 (dOk_v d) (srcFits_of_sOk ha nofun) (srcFits_of_sOk hb nofun) (by decide)
      (fun x h => by simp [decodeDec, decVector, h.major, h.minor, h.dst, h.srcA, h.srcB]) (lends_xRR ..) nofun
  | vld d b k off | vst d b k off =>
    exact decodesBack_vm fun x h hd ho => by simp [decodeDec, decVector, h.major, h.regB, h.cls, hd, ho]
  | vtld d b off | vtst d b off =>
    exact decodesBack_vm fun x h hd ho => by simp [decodeDec, decVector, h.major, h.regB, h.cls, hd, ho]
  | vmovi t d c => exact vmovi_decodesBack t d c
  | vdefer c q s a b => exact vdefer_decodesBack hw
  | vdrain c q d k => exact vdrain_decodesBack hw
  | voptm s d a b | voptv s d a b | vopts s d a b => exact vopt_decodesBack (s := s) (d := d) (a := a) hw (by simp)
  | voptmL d a b | voptvL d a b | voptsL d a b => exact voptL_decodesBack (d := d) (a := a) hw (by simp)
  | _ => cases he <;> cases hp


theorem isSome_encode (i : Instr) : (encode i).isSome = !i.isEvent := by cases i <;> rfl

theorem pos_lt_of_encode {i : Instr} {e : Enc} (h : encode i = some e) : e.pos < 4 := by
  cases i <;> cases h <;> exact Nat.le_of_ble_eq_true rfl

/-- Settles O51, slot by slot: the fields that the encoder writes are those that the slot's map reads. -/
theorem encodedInstructionsDecodeBack : Obligations.EncodedInstructionsDecodeBack := by
  intro i hev hw
  obtain ⟨e, he⟩ := Option.isSome_iff_exists.1 ((isSome_encode i).trans (by rw [hev]; rfl))
  have hpos := pos_lt_of_encode he
  obtain h | h | h | h : e.pos = 0 ∨ e.pos = 1 ∨ e.pos = 2 ∨ e.pos = 3 := by omega
  · exact control_decodesBack he h hw
  · exact scalar_decodesBack he h hw
  · exact vector_decodesBack he h hw
  · exact tile_decodesBack he h hw

end Sys2Proof
end

section
/-! Words of the encoding tables, the flow action at the end of a bundle, and the results due at the end of a clk. -/

namespace Sys2Proof.Machine

/-- Settles O50: the decoder evaluated on each word. -/
theorem specWordsDecode : Obligations.SpecWordsDecode := by
  unfold Obligations.SpecWordsDecode
  decide

/-! ### The flow action of a bundle (R64, R169, R258, R262) -/

theorem State.inRetr_of_core_lt {s : State} (h : s.iss.core < 1024) : s.inRetr = false := decide_eq_false (Nat.not_le.2 h)

theorem toNat_setF_top (w : Word) : (w.setF 63 63 0).toNat = w.toNat % 2 ^ 63 := by
  have := w.isLt
  simp only [Word.setF, bits, BitVec.toNat_ofNat]
  omega

theorem getLsbD_setF_top (w : Word) : (w.setF 63 63 0).getLsbD 63 = false := by
  rw [BitVec.getLsbD, toNat_setF_top, Nat.testBit_mod_two_pow, decide_eq_false (Nat.lt_irrefl 63), Bool.false_and]

/-- On a core YIELD makes its task READY and notes which task has yielded (R172, R258). -/
theorem State.flow_yield {s : State} (h : s.iss.core < 1024) (pc : Word) (kept : Bool) :
    s.flow .yield pc kept = (s.setTask { s.task with stat := .ready }).setCoreAt s.iss.core
      { s.coreAt s.iss.core with yielded := some s.iss.slot } := by
  simp only [State.flow, State.inRetr_of_core_lt h, Bool.false_eq_true, if_false]

/-- On a core END leaves its task ENDING, out of its handler, without loops and hoisted loads (R169, R262). -/
theorem State.flow_ended {s : State} (h : s.iss.core < 1024) (pc : Word) (kept : Bool) :
    s.flow .ended pc kept = s.setTask { s.task with
      loops := [], hoist := [], waitPc := pc, trap := { s.task.trap with cause := s.task.trap.cause.setF 63 63 0 }, stat := .ending } := by
  simp only [State.flow, State.inRetr_of_core_lt h, Bool.false_eq_true, if_false]

/-- Settles O8, action by action: each replaces the task in focus. -/
theorem flowActionsTakeEffect : Obligations.FlowActionsTakeEffect := by
  intro s pc f w
  refine ⟨s.setTask_task _, s.setTask_task _, fun h => ?_, s.setTask_task _, fun h => ?_⟩
  · rw [State.flow_yield h]
    exact ⟨s.setTask_task _, congrArg CoreSt.yielded (State.setCoreAt_coreAt ..)⟩
  · rw [State.flow_ended h, s.setTask_task]
    exact ⟨rfl, rfl, rfl, getLsbD_setF_top _, rfl⟩

end Sys2Proof.Machine
end

section
/-! The results due at the end of a clk (R48, R55). -/

namespace Sys2Proof.Machine

theorem getLsbD_one_shiftLeft (m n : Nat) : (1#16 <<< m).getLsbD n = (decide (m < 16) && decide (m = n)) := BitVec.getLsbD_twoPow m n

/-! ### What one result leaves as it is -/

section
variable (t : Task) (d : RDest) (x : VReg) (n : Nat)

theorem Task.writeDest_frame : (t.writeDest d x).pc = t.pc ∧ (t.writeDest d x).trap = t.trap ∧ (t.writeDest d x).loops = t.loops ∧
    (t.writeDest d x).stat = t.stat ∧ (t.writeDest d x).inflight = t.inflight := by
  cases d with
  | g | q =>
    dsimp only [Task.writeDest]
    split <;> exact ⟨rfl, rfl, rfl, rfl, rfl⟩
  | _ => exact ⟨rfl, rfl, rfl, rfl, rfl⟩

theorem Task.gReg_writeDest_of_ne (h : d ≠ .g n) (hp : d ≠ .gPair n) (hk : ∀ k, n = k + 1 → d ≠ .gPair k) :
    (t.writeDest d x).gReg n = t.gReg n := by
  cases d with
  | g m =>
    have hm : n ≠ m := fun e => h (by rw [e])
    by_cases m = 0 <;> simp [Task.writeDest, Task.gReg, Tab.get_set_ne _ _ _ hm, *]
  | gPair m =>
    have hm : n ≠ m := fun e => hp (by rw [e])
    have hm' : n ≠ m + 1 := fun e => hk m e rfl
    by_cases hm0 : m = 0
    · simp only [Task.writeDest, Task.gReg, if_pos hm0, Tab.get_set_ne _ _ _ hm']
    · simp only [Task.writeDest, Task.gReg, if_neg hm0, Tab.get_set_ne _ _ _ hm, Tab.get_set_ne _ _ _ hm']
  | q m => by_cases m = 0 <;> simp [Task.writeDest, Task.gReg, *]
  | _ => rfl

theorem Task.qReg_writeDest_of_ne (h : d ≠ .q n) (ha : d ≠ .qAll) : (t.writeDest d x).qReg n = t.qReg n := by
  cases d with
  | q m =>
    have hm : n ≠ m := fun e => h (by rw [e])
    by_cases hm0 : m = 0
    · simp only [Task.writeDest, if_pos hm0]
    · have hbit : (1#16 <<< m).getLsbD n = false := by
        rw [getLsbD_one_shiftLeft, decide_eq_false hm.symm, Bool.and_false]
      simp only [Task.writeDest, Task.qReg, if_neg hm0]
      have hq : (t.regs.q.getLsbD n && decide (n < 16)) = t.regs.q.getLsbD n := by
        by_cases hn : n < 16
        · simp [hn]
        · simp [BitVec.getLsbD_of_ge _ _ (Nat.le_of_not_lt hn)]
      split <;> simp [hbit, hq]
  | qAll => exact absurd rfl ha
  | g m => by_cases m = 0 <;> simp [Task.writeDest, Task.qReg, *]
  | _ => rfl

theorem Task.vPhys_writeDest_of_ne (h : d ≠ .v n) : (t.writeDest d x).vPhys n = t.vPhys n := by
  cases d with
  | v m =>
    have hm : n ≠ m := fun e => h (by rw [e])
    exact Tab.get_set_ne _ _ _ hm
  | g m | q m => by_cases m = 0 <;> simp [Task.writeDest, Task.vPhys, *]
  | _ => rfl

theorem Task.kReg_writeDest_of_ne (h : d ≠ .k n) : (t.writeDest d x).kReg n = t.kReg n := by
  cases d with
  | k m =>
    have hm : n ≠ m := fun e => h (by rw [e])
    exact Tab.get_set_ne _ _ _ hm
  | g m | q m => by_cases m = 0 <;> simp [Task.writeDest, Task.kReg, *]
  | _ => rfl

/-! ### What it writes -/

theorem Task.gReg_writeDest_g (h : n ≠ 0) : (t.writeDest (.g n) x).gReg n = x.setWidth 64 := by
  simp [Task.writeDest, Task.gReg, h]

theorem Task.gReg_writeDest_gPair (h : n ≠ 0) : (t.writeDest (.gPair n) x).gReg n = x.setWidth 64 := by
  simp [Task.writeDest, Task.gReg, h, Tab.get_set_ne _ _ _ (Nat.ne_of_lt n.lt_succ_self)]

theorem Task.gReg_writeDest_gPair_succ : (t.writeDest (.gPair n) x).gReg (n + 1) = (x >>> 64).setWidth 64 := by
  simp [Task.writeDest, Task.gReg]

theorem Task.qReg_writeDest_q (h : n ≠ 0) (hn : n < 16) : (t.writeDest (.q n) x).qReg n = x.getLsbD 0 := by
  have hbit : (1#16 <<< n).getLsbD n = true := by
    rw [getLsbD_one_shiftLeft, decide_eq_true hn, decide_eq_true rfl, Bool.and_true]
  simp only [Task.writeDest, Task.qReg, if_neg h]
  split <;> simp_all

theorem Task.qReg_writeDest_qAll (h : n ≠ 0) (hn : n < 16) : (t.writeDest .qAll x).qReg n = x.getLsbD n := by
  simp [Task.writeDest, Task.qReg, h, hn]

theorem Task.vPhys_writeDest_v : (t.writeDest (.v n) x).vPhys n = x := Tab.get_set_self ..

theorem Task.kReg_writeDest_k : (t.writeDest (.k n) x).kReg n = x.setWidth 64 := Tab.get_set_self ..

end

/-! ### All that are due -/

/-- A task with one result due written. -/
def Task.settleOne (t : Task) (p : Pend) : Task :=
  match p.val with
  | .ready x => t.writeDest p.dest x
  | _ => t

/-- The results due at the end of a clk. -/
def Task.dueNow (t : Task) : List Pend := t.inflight.filter fun p => p.left ≤ 1 && !p.isLate

/-- The results that stay in flight. -/
def Task.stillDue (t : Task) : List Pend :=
  (t.inflight.filter fun q => 1 < q.left || q.isLate).map fun q => { q with left := Nat.max 1 (q.left - 1) }

theorem Task.age_eq (t : Task) : t.age = t.dueNow.foldl Task.settleOne { t with inflight := t.stillDue } := rfl

/-- What is left as it is by every result that is due is left as it is by them all. -/
theorem foldl_settleOne_of_frame {α : Type} (f : Task → α) {ps : List Pend} (h : ∀ q ∈ ps, ∀ t x, f (Task.writeDest t q.dest x) = f t) (t : Task) :
    f (ps.foldl Task.settleOne t) = f t := by
  induction ps generalizing t with
  | nil => rfl
  | cons p ps ih =>
    rw [List.foldl_cons, ih fun q hq => h q (List.mem_cons_of_mem _ hq)]
    unfold Task.settleOne
    split
    · exact h p List.mem_cons_self t _
    · rfl

theorem mem_dueNow {t : Task} {q : Pend} (h : q ∈ t.dueNow) : q ∈ t.inflight ∧ q.left ≤ 1 := by
  simp only [Task.dueNow, List.mem_filter, Bool.and_eq_true, decide_eq_true_eq] at h
  exact ⟨h.1, h.2.1⟩

theorem Task.age_of_frame {α : Type} (f : Task → α) {t : Task} (h : ∀ q ∈ t.inflight, q.left ≤ 1 → ∀ t x, f (Task.writeDest t q.dest x) = f t) :
    f t.age = f { t with inflight := t.stillDue } := by
  rw [t.age_eq, foldl_settleOne_of_frame f fun q hq => h q (mem_dueNow hq).1 (mem_dueNow hq).2]

/-- What the last result due for it sets holds that result's value at the end of the clk. -/
theorem Task.age_of_last {α : Type} (f : Task → α) {t : Task} {a b : List Pend} {p : Pend} {x : VReg} {v : α} (hi : t.inflight = a ++ p :: b)
    (hx : p.val = .ready x) (hd : p.left ≤ 1) (hp : ∀ t, f (Task.writeDest t p.dest x) = v)
    (hb : ∀ q ∈ b, q.left ≤ 1 → ∀ t x, f (Task.writeDest t q.dest x) = f t) : f t.age = v := by
  have hlate : p.isLate = false := by simp [Pend.isLate, hx]
  have hdue : t.dueNow = a.filter (fun p => p.left ≤ 1 && !p.isLate) ++ p :: b.filter (fun p => p.left ≤ 1 && !p.isLate) := by
    rw [Task.dueNow, hi, List.filter_append, List.filter_cons_of_pos (by simp [hd, hlate])]
  rw [t.age_eq, hdue, List.foldl_append, List.foldl_cons, foldl_settleOne_of_frame f]
  · rw [Task.settleOne, hx]
    exact hp _
  · intro q hq
    simp only [List.mem_filter, Bool.and_eq_true, decide_eq_true_eq] at hq
    exact hb q hq.1 hq.2.1

/-- Settles O55: each register by the last result due for it, or by none. -/
theorem dueResultsReachTheirRegisters : Obligations.DueResultsReachTheirRegisters := by
  intro t a b p x n due hitsG hitsQ hitsV hitsK last
  have frameG {q : Pend} (h : ¬ hitsG q) (hd : q.left ≤ 1) (t : Task) (x : VReg) : (t.writeDest q.dest x).gReg n = t.gReg n :=
    t.gReg_writeDest_of_ne _ x n (fun e => h ⟨hd, .inl e⟩) (fun e => h ⟨hd, .inr (.inl e)⟩) fun k hk e => h ⟨hd, .inr (.inr ⟨k, hk, e⟩)⟩
  have frameQ {q : Pend} (h : ¬ hitsQ q) (hd : q.left ≤ 1) (t : Task) (x : VReg) : (t.writeDest q.dest x).qReg n = t.qReg n :=
    t.qReg_writeDest_of_ne _ x n (fun e => h ⟨hd, .inl e⟩) fun e => h ⟨hd, .inr e⟩
  have frameV {q : Pend} (h : ¬ hitsV q) (hd : q.left ≤ 1) (t : Task) (x : VReg) : (t.writeDest q.dest x).vPhys n = t.vPhys n :=
    t.vPhys_writeDest_of_ne _ x n fun e => h ⟨hd, e⟩
  have frameK {q : Pend} (h : ¬ hitsK q) (hd : q.left ≤ 1) (t : Task) (x : VReg) : (t.writeDest q.dest x).kReg n = t.kReg n :=
    t.kReg_writeDest_of_ne _ x n fun e => h ⟨hd, e⟩
  have kept {α : Type} (f : Task → α) (h : ∀ t d x, f (Task.writeDest t d x) = f t) : f t.age = f { t with inflight := t.stillDue } :=
    t.age_of_frame f fun _ _ _ t x => h t _ x
  refine ⟨fun h => t.age_of_frame (·.gReg n) fun q hq hd => frameG (h q hq) hd, fun h => t.age_of_frame (·.qReg n) fun q hq hd => frameQ (h q hq) hd,
    fun h => t.age_of_frame (·.vPhys n) fun q hq hd => frameV (h q hq) hd, fun h => t.age_of_frame (·.kReg n) fun q hq hd => frameK (h q hq) hd,
    rfl, rfl, kept (·.pc) fun t d x => (t.writeDest_frame d x).1, kept (·.trap) fun t d x => (t.writeDest_frame d x).2.1,
    kept (·.loops) fun t d x => (t.writeDest_frame d x).2.2.1, kept (·.stat) fun t d x => (t.writeDest_frame d x).2.2.2.1,
    ?_, ?_, ?_, ?_, ?_, ?_, ?_, kept (·.inflight) fun t d x => (t.writeDest_frame d x).2.2.2.2⟩
  · rintro ⟨hi, hd, hx, hl⟩ h0 hb
    exact t.age_of_last (·.gReg n) hi hx hl (fun t => hd ▸ t.gReg_writeDest_g x n h0) fun q hq => frameG (hb q hq)
  · rintro ⟨hi, hd, hx, hl⟩ h0 hb
    exact t.age_of_last (·.gReg n) hi hx hl (fun t => hd ▸ t.gReg_writeDest_gPair x n h0) fun q hq => frameG (hb q hq)
  · rintro k ⟨hi, hd, hx, hl⟩ rfl hb
    exact t.age_of_last (·.gReg (k + 1)) hi hx hl (fun t => hd ▸ t.gReg_writeDest_gPair_succ x k) fun q hq => frameG (hb q hq)
  · rintro ⟨hi, hd, hx, hl⟩ h0 hn hb
    exact t.age_of_last (·.qReg n) hi hx hl (fun t => hd ▸ t.qReg_writeDest_q x n h0 hn) fun q hq => frameQ (hb q hq)
  · rintro ⟨hi, hd, hx, hl⟩ h0 hn hb
    exact t.age_of_last (·.qReg n) hi hx hl (fun t => hd ▸ t.qReg_writeDest_qAll x n h0 hn) fun q hq => frameQ (hb q hq)
  · rintro ⟨hi, hd, hx, hl⟩ hb
    exact t.age_of_last (·.vPhys n) hi hx hl (fun t => hd ▸ t.vPhys_writeDest_v x n) fun q hq => frameV (hb q hq)
  · rintro ⟨hi, hd, hx, hl⟩ hb
    exact t.age_of_last (·.kReg n) hi hx hl (fun t => hd ▸ t.kReg_writeDest_k x n) fun q hq => frameK (hb q hq)

end Sys2Proof.Machine
end

section
/-! One step: the turn of a core, the issue of one bundle, and one slot of it (R46, R48, R50, R222). -/

namespace Sys2Proof.Machine

/-! ### The parts of a step -/

theorem State.issueOn_of_turnOn {s r : State} {core : Nat} (h : s.turnOn core = .next r) :
    s.issueOn core = .next (r.chooseNext core) := by
  simp only [State.issueOn, h]

/-- With no input and no unit at work a step is the turn of the next core, and the choice of the next task (R170). -/
theorem step_of_turnOn {s r : State} {core : Nat} (hi : s.inputs = []) (hu : s.unitAct = none) (hc : s.nextCore = some core)
    (h : s.turnOn core = .next r) : step s = .next ((r.chooseNext core).withIss .zero) := by
  simp only [step, hi, hu, hc, State.issueOn_of_turnOn h]
  rfl

/-- A core whose task has nothing to wait for and no trap to take issues its bundle (R172, R223, R225, R237). -/
theorem State.turnOn_of_pick {s s1 : State} {core slot : Nat} (hp : State.pick { s with turn := core + 1 } core = some (s1, slot))
    (hc : (s1.coreAt core).pauseTill ≤ s1.cycle.toNat) (hw : (s1.taskAt core slot).wait = .none) (hr : (s1.taskAt core slot).returning = false)
    (hs : s1.stillStalled core slot = false) (ht : s1.trapDue core slot = false) : s.turnOn core = s1.issueBundle core slot := by
  simp only [State.turnOn, hp, if_neg (Nat.not_lt.2 hc), hw, hr, hs, ht]
  simp

/-- The task to issue in focus. -/
def State.focusOn (s : State) (core slot : Nat) : State :=
  s.withIss { Issue.zero with core := core, slot := slot, pc := (s.taskAt core slot).pc, inTrap := (s.taskAt core slot).inTrap }

/-- A bundle that has come and breaks no rule runs (R46, R60, R68). -/
theorem State.issueBundle_of_legal {s s3 : State} {core slot : Nat} {bs : List Byte} (hf : (s.focusOn core slot).fetch core slot = (s3, .ok bs))
    (hi : (decodeBundle (1024 ≤ core) bs).illegal (s.taskAt core slot).vMap (s.taskAt core slot).noFlow = none)
    (hl : (s.taskAt core slot).badLanding (decodeBundle (1024 ≤ core) bs) = false) :
    s.issueBundle core slot = s3.runBundle core slot (decodeBundle (1024 ≤ core) bs) := by
  unfold State.focusOn State.withIss at hf
  simp only [State.issueBundle, hf, hi, hl]
  rfl

/-- A bundle that breaks a rule of R60 raises the rule's reason with the mask of its slots, and executes nothing. -/
theorem State.issueBundle_of_illegal {s s3 : State} {core slot reason m : Nat} {bs : List Byte}
    (hf : (s.focusOn core slot).fetch core slot = (s3, .ok bs))
    (hi : (decodeBundle (1024 ≤ core) bs).illegal (s.taskAt core slot).vMap (s.taskAt core slot).noFlow = some (reason, m)) :
    s.issueBundle core slot = .next (s3.raiseBundle (16 * reason + m) m 0) := by
  unfold State.focusOn State.withIss at hf
  simp only [State.issueBundle, hf, hi]

/-- A slot that has executed: committed, or, where it raised, without the lost latch it read (R58, R222, log 60). -/
def State.slotDone (r s : State) (n : Nat) : State :=
  if r.iss.slotRaised then r.setTask { r.task with csr := { r.task.csr with taskst := s.task.csr.taskst } }
  else r.withIss { r.iss with commit := r.iss.commit ||| (1#4 <<< n) }

theorem State.slotDone_stall (r s : State) (n : Nat) : (r.slotDone s n).iss.stall = r.iss.stall := by
  unfold State.slotDone
  split <;> rfl

theorem execSlot_of_next {n : Nat} {i : Instr} {s r : State} (h : exec i (s.withIss { s.iss with pos := n, slotRaised := false }) = .next r) :
    execSlot n i s = .next (r.slotDone s n) := by
  unfold State.withIss at h
  simp only [execSlot, h]
  rfl

/-- The state in which the slots of a bundle execute: the task as its bundle finds it, and the record of the bundle (R222, R225). -/
def State.readyFor (s : State) (core slot : Nat) (keeps : Bool) : State :=
  let old := s.taskAt core slot
  (s.setTaskAt core slot old.atIssue).withIss { s.iss with
    commit := old.skip, act := if keeps then old.kept else .none, seq0 := (s.coreAt core).depSeq, infl := old.atIssue.inflight.length }

/-- Whether a flow action that a trap kept belongs to the bundle that the task issues (R225, log 8). -/
def Task.keepsFlow (t : Task) : Bool := t.skip.getLsbD 0 && t.keptPc == t.pc && t.kept != .none

/-- A bundle with one slot to run, which the task has room for and which does not stall, is that slot and the end of the bundle. -/
theorem State.runBundle_of_one {s r : State} {core slot n : Nat} {b : Bundle} {i : Instr} {old : Task} (hold : s.taskAt core slot = old)
    {ready : State} (hready : s.readyFor core slot old.keepsFlow = ready) (hrun : b.running old old.skip = [(n, i)])
    (hover : overSlot old.vMap [(n, i)] (ready.task.inflight.map Pend.weight).sum = none)
    (hexec : exec i (ready.withIss { ready.iss with pos := n, slotRaised := false }) = .next r) (hstall : r.iss.stall = false) :
    s.runBundle core slot b = .next ((r.slotDone ready n).endBundle old old.keepsFlow) := by
  subst hold hready
  have hsum (ps : List Pend) : ps.foldl (fun k p => k + p.weight) 0 = (ps.map Pend.weight).sum := by
    rw [List.sum_eq_foldl, List.foldl_map]
  have hslots : execSlots [(n, i)] (s.readyFor core slot (s.taskAt core slot).keepsFlow) =
      .next (r.slotDone (s.readyFor core slot (s.taskAt core slot).keepsFlow) n) := by
    simp only [execSlots, execSlot_of_next hexec]
  have hdef : s.runBundle core slot b =
      match overSlot (s.taskAt core slot).vMap (b.running (s.taskAt core slot) (s.taskAt core slot).skip)
        ((s.readyFor core slot (s.taskAt core slot).keepsFlow).task.inflight.foldl (fun k p => k + p.weight) 0) with
      | some n => .next (s.raiseBundle 0x05A (2 ^ n) 0)
      | none => match execSlots (b.running (s.taskAt core slot) (s.taskAt core slot).skip) (s.readyFor core slot (s.taskAt core slot).keepsFlow) with
        | .next r => .next (if r.iss.stall then s.stall core else r.endBundle (s.taskAt core slot) (s.taskAt core slot).keepsFlow)
        | r => r := rfl
  rw [hdef, hsum, hrun, hover, hslots]
  simp only [State.slotDone_stall, hstall]
  rfl

/-- Settles O53: the turn, the issue, the bundle and its one slot in turn. -/
theorem stepRunsDecodedInstruction : Obligations.StepRunsDecodedInstruction := by
  intro s s1 s3 r core slot n bs i t c focus b old keeps ready start done hi hu hc hp hpause hw hr hs ht hf hill hland hrun hover hexec hstall
  have hbundle : s3.runBundle core slot b = .next (done.endBundle old keeps) :=
    State.runBundle_of_one (ready := s3.readyFor core slot old.keepsFlow) rfl rfl hrun hover hexec hstall
  have hturn : s.turnOn core = .next (done.endBundle old keeps) :=
    (State.turnOn_of_pick hp hpause hw hr hs ht).trans ((State.issueBundle_of_legal hf hill hland).trans hbundle)
  exact step_of_turnOn hi hu hc hturn

end Sys2Proof.Machine
end

section
/-! No instruction and no event stops the machine: every meaning ends in a next state (R46, log 3). -/

namespace Sys2Proof.Machine

/-- An outcome that is a next state: neither a fault nor a refusal. -/
def Out.Goes (o : Out) : Prop := ∃ u, o = .next u

theorem Out.goes_next (s : State) : Out.Goes (.next s) := ⟨s, rfl⟩

theorem Out.goes_ite {c : Prop} [Decidable c] {a b : Out} (ha : a.Goes) (hb : b.Goes) : (if c then a else b).Goes := by
  split
  · exact ha
  · exact hb

theorem State.goes_command {s : State} {o : Out} (h : o.Goes) : (s.command o).Goes := Out.goes_ite (Out.goes_next s) h

/-! ### The meanings that decide more than once, or through another meaning -/

theorem execBarrierArrival_goes (s : State) : (execBarrierArrival s).Goes := by
  unfold execBarrierArrival
  extract_lets s1
  split
  · exact Out.goes_next _
  · exact Out.goes_ite (Out.goes_next _) <| Out.goes_ite (Out.goes_next _) <| Out.goes_ite (Out.goes_next _) (Out.goes_next _)

theorem execSaveComplete_goes (core slot : Nat) (s : State) : (execSaveComplete core slot s).Goes := by
  unfold execSaveComplete
  refine Out.goes_ite (Out.goes_ite (Out.goes_next _) <| Out.goes_ite (Out.goes_next _) ?_) (Out.goes_next _)
  split
  · exact Out.goes_next _
  · dsimp only
    split
    · exact Out.goes_next _
    · exact Out.goes_ite (Out.goes_next _) (Out.goes_next _)

theorem execTaskResume_goes (core slot : Nat) (s : State) : (execTaskResume core slot s).Goes := by
  unfold execTaskResume
  refine Out.goes_ite (Out.goes_next _) ?_
  split
  · exact Out.goes_next _
  · refine Out.goes_ite (Out.goes_next _) <| Out.goes_ite (Out.goes_next _) ?_
    dsimp only
    split
    · exact Out.goes_next _
    · exact Out.goes_ite (Out.goes_next _) (Out.goes_next _)

theorem execE2eAckArrival_goes (tgt : BitVec 12) (seq : BitVec 32) (data : List Byte) (cause : BitVec 9) (pstate : BitVec 3) (s : State) :
    (execE2eAckArrival tgt seq data cause pstate s).Goes := by
  unfold execE2eAckArrival
  extract_lets m pr
  split
  · exact Out.goes_next _
  · exact Out.goes_next _

theorem execPacketArrivalAtTarget_goes (p : Packet) (s : State) : (execPacketArrivalAtTarget p s).Goes := by
  unfold execPacketArrivalAtTarget
  refine Out.goes_ite (Out.goes_ite (Out.goes_next _) (Out.goes_next _)) ?_
  split
  · exact Out.goes_ite ⟨_, rfl⟩ (execE2eAckArrival_goes ..)
  · dsimp only
    split
    · exact Out.goes_next _
    · exact Out.goes_ite (Out.goes_next _) <| Out.goes_ite (Out.goes_next _) (Out.goes_next _)

/-! ### Every instruction and event -/

/-- By the shape of the meaning: one next state, a choice of two or more, a command of the host (R453, R458), or a case split on what
the state holds, each of whose branches is a next state. -/
theorem exec_goes (j : Instr) (s : State) : Out.Goes (exec j s) := by
  cases j with
  | trapi | eret | fence | ldAcq | stRel | acas2 | remop | accessAtHomeController | replayRequestReceived | rotorDwellStart | rotorGuardStart
  | leaseGrantArrival | leaseAcceptArrival | leaseTermExpiry | leaseRenewalSend | powerRegrant =>
    exact Out.goes_ite (Out.goes_next _) (Out.goes_next _)
  | bararr | barwaitA | barq => exact Out.goes_ite (Out.goes_next _) <| Out.goes_ite (Out.goes_next _) (Out.goes_next _)
  | barinit | codewordReceived =>
    exact Out.goes_ite (Out.goes_next _) <| Out.goes_ite (Out.goes_next _) <| Out.goes_ite (Out.goes_next _) (Out.goes_next _)
  | pgabort | lnkctlDown | rtThreadStop | blcmdExpect | blcmdRelease | blcmdClear => exact State.goes_command (Out.goes_next _)
  | ptinv | fgenFlush | preempt | lnkctlTrain | rtThreadStart | llcmdReclaim =>
    exact State.goes_command (Out.goes_ite (Out.goes_next _) (Out.goes_next _))
  | barrierArrival => exact execBarrierArrival_goes ..
  | saveComplete => exact execSaveComplete_goes ..
  | taskResume => exact execTaskResume_goes ..
  | e2eAckArrival => exact execE2eAckArrival_goes ..
  | packetArrivalAtTarget => exact execPacketArrivalAtTarget_goes ..
  | lbrk | waitc | waite | endTask | barwait | ldh | chkh | pgdisc | pkget | pkreply | pkfwd | pkdone | vdefer | vdrain | takePendingTrap
  | ptinvComplete | miggo | migrationComplete | launchRecordArrival | kernelPlacement | taskEndComplete | monopolyWatchdogExpiry
  | freezeConversion | tileTaskStart | tileTaskComplete | copyBurstReply | waiteReread | linkTrainingComplete | linkWidthAgreed
  | laneThresholdCrossed | linkWiden | packetRoute | rotorEnable | e2eResendTimeout | llcmdGrant | evictionComplete | collStepEnd =>
    unfold exec
    dsimp only [execLbrk, execWaitc, execWaite, execEndTask, execBarwait, execLdh, execChkh, execPgdisc, execPkget, execPkreply, execPkfwd,
      execPkdone, execVdefer, execVdrain, execTakePendingTrap, execPtinvComplete, execMiggo, execMigrationComplete, execLaunchRecordArrival,
      execKernelPlacement, execTaskEndComplete, execMonopolyWatchdogExpiry, execFreezeConversion, execTileTaskStart, execTileTaskComplete,
      execCopyBurstReply, execWaiteReread, execLinkTrainingComplete, execLinkWidthAgreed, execLaneThresholdCrossed, execLinkWiden,
      execPacketRoute, execRotorEnable, execE2eResendTimeout, execLlcmdGrant, execEvictionComplete, execCollStepEnd, State.command]
    repeat' split
    all_goals exact Out.goes_next _
  | _ => exact Out.goes_next _

end Sys2Proof.Machine
end

section
/-! The end of a clk: what it leaves of memory and of the tasks (R48, R177, R193). -/

namespace Sys2Proof.Tab

variable {α : Type}

theorem get_eq_default_or_mem (d : α) (t : Tab α) (k : Nat) : get d t k = d ∨ (k, get d t k) ∈ t := by
  induction t with
  | nil => exact .inl rfl
  | cons x t ih =>
    obtain ⟨j, v⟩ := x
    by_cases hj : j = k
    · subst hj
      simp [get]
    · simp only [get, if_neg hj]
      exact ih.imp_right (List.mem_cons_of_mem _)

theorem mem_of_mem_put {t : Tab α} {k : Nat} {v : α} {x : Nat × α} (h : x ∈ put t k v) : x = (k, v) ∨ x ∈ t := by
  induction t with
  | nil => exact .inl (List.mem_singleton.1 h)
  | cons y t ih =>
    obtain ⟨j, w⟩ := y
    simp only [put] at h
    split at h
    · exact List.mem_cons.1 h
    · split at h
      · exact (List.mem_cons.1 h).imp_right (List.mem_cons_of_mem _)
      · obtain rfl | h := List.mem_cons.1 h
        · exact .inr List.mem_cons_self
        · exact (ih h).imp_right (List.mem_cons_of_mem _)

theorem mem_put_self (t : Tab α) (k : Nat) (v : α) : (k, v) ∈ put t k v := by
  induction t with
  | nil => exact List.mem_singleton_self _
  | cons y t ih =>
    obtain ⟨j, w⟩ := y
    simp only [put]
    split
    · exact List.mem_cons_self
    · split
      · exact List.mem_cons_self
      · exact List.mem_cons_of_mem _ ih

/-- A write replaces at most the entry that a read of its key finds. -/
theorem mem_put_of_mem (d : α) {t : Tab α} {x : Nat × α} (h : x ∈ t) (k : Nat) (v : α) : x ∈ put t k v ∨ x = (k, get d t k) := by
  induction t with
  | nil => exact absurd h List.not_mem_nil
  | cons y t ih =>
    obtain ⟨j, w⟩ := y
    simp only [put, get]
    split
    · exact .inl (List.mem_cons_of_mem _ h)
    · split
      next hj =>
        subst hj
        exact (List.mem_cons.1 h).elim .inr fun h => .inl (List.mem_cons_of_mem _ h)
      · obtain rfl | h := List.mem_cons.1 h
        · exact .inl List.mem_cons_self
        · exact (ih h).imp_left (List.mem_cons_of_mem _)

theorem get_mapVal (d : α) (t : Tab α) (k : Nat) {f : Nat → α → α} (h : f k d = d) :
    get d (t.map fun x => (x.1, f x.1 x.2)) k = f k (get d t k) := by
  induction t with
  | nil => exact h.symm
  | cons x t ih =>
    obtain ⟨j, v⟩ := x
    simp only [List.map_cons, get]
    split
    · rename_i hj
      rw [hj]
    · exact ih

end Sys2Proof.Tab

namespace Sys2Proof.Machine

/-! ### Barriers at the end of a clk leave memory as it is (R193) -/

theorem State.onTask_mem (s : State) (core slot kernel : Nat) (f : Task → Task) : (s.onTask core slot kernel f).mem = s.mem := by
  unfold State.onTask
  dsimp only
  split <;> rfl

theorem State.breakBar_mem (s : State) (home n reason : Nat) : (s.breakBar home n reason).mem = s.mem := by
  unfold State.breakBar
  dsimp only
  split <;> rfl

theorem State.updArriver_mem (s : State) (a : Arrival) (g : Task → Task) : (s.updArriver a g).mem = s.mem := s.onTask_mem ..

theorem execBarrierArrival_mem {s t : State} (h : execBarrierArrival s = .next t) : t.mem = s.mem := by
  unfold execBarrierArrival at h
  extract_lets s1 at h
  split at h
  · exact Host.Outcome.next.inj h ▸ rfl
  next a _ =>
    extract_lets s2 e tv now reply s3 s4 gen key at h
    have hreply (v : RVal) (s : State) : (reply v s).mem = s.mem := by
      dsimp only [reply]
      split
      · exact s.onTask_mem ..
      · rfl
    have h4 : s4.mem = s.mem := (s3.updArriver_mem ..).trans (hreply ..)
    split at h
    · cases h
      exact (State.updArriver_mem ..).trans (hreply ..)
    · split at h
      · cases h
        exact (State.updArriver_mem ..).trans (hreply ..)
      · split at h
        · cases h
          exact h4
        · cases h
          exact h4

theorem State.errBreaks_mem (s : State) : s.errBreaks.mem = s.mem := by
  unfold State.errBreaks
  refine List.foldlRecOn (motive := fun t : State => t.mem = s.mem) _ _ rfl fun t ht e _ => ?_
  refine List.foldlRecOn (motive := fun t : State => t.mem = s.mem) _ _ ht fun t ht hn _ => ?_
  split
  · exact ht
  · exact (t.breakBar_mem ..).trans ht

theorem State.barsClk_mem (k : Nat) (s : State) : (State.barsClk k s).mem = s.mem := by
  induction k generalizing s with
  | zero =>
    unfold State.barsClk
    refine List.foldlRecOn (motive := fun t : State => t.mem = s.mem) _ _ s.errBreaks_mem fun t ht cx _ => ?_
    refine List.foldlRecOn (motive := fun t : State => t.mem = s.mem) _ _ ht fun t ht nb _ => ?_
    refine List.foldlRecOn (motive := fun t : State => t.mem = s.mem) _ _ ht fun t ht r _ => ?_
    split
    · exact (t.breakBar_mem ..).trans ht
    · exact ht
  | succ k ih =>
    unfold State.barsClk
    split
    · rename_i t h
      exact (ih t).trans (execBarrierArrival_mem h)
    · exact ih s

/-! ### Quiet barriers leave the tasks as they are -/

/-- No barrier of a core is in WAITING. -/
def State.barsQuiet (s : State) : Prop := ∀ cx ∈ s.cores, ∀ nb ∈ cx.2.bars, nb.2.stat ≠ .waiting

theorem State.errBreaks_of_none {s : State} (h : s.barErrs = []) : s.errBreaks = s := by
  unfold State.errBreaks
  rw [h]
  exact congrArg (fun e => { s with barErrs := e }) h.symm

theorem State.barsClk_of_quiet {s : State} (he : s.barErrs = []) (hq : s.barsQuiet) : State.barsClk 0 s = s := by
  unfold State.barsClk
  rw [State.errBreaks_of_none he]
  refine List.foldlRecOn (motive := fun t : State => t = s) _ _ rfl fun t ht cx hcx => ?_
  have hnone : (cx.2.bars.filter fun nb => nb.2.stat == .waiting && nb.2.bound != 0) = [] :=
    List.filter_eq_nil_iff.2 fun nb hnb => by simp [hq cx hcx nb hnb]
  rw [hnone]
  exact ht

/-! ### The counters of a core -/

theorem State.clkCore_cases (s : State) (core : Nat) : s.clkCore core = s ∨ ∃ c, s.clkCore core = s.setCoreAt core c ∧ c.bars = (s.coreAt core).bars := by
  unfold State.clkCore
  extract_lets c gated frozen others c'
  split
  · exact .inl rfl
  · exact .inr ⟨c', rfl, rfl⟩

theorem State.barsQuiet_setCoreAt {s : State} (hq : s.barsQuiet) {core : Nat} {c : CoreSt} (hc : c.bars = (s.coreAt core).bars) :
    (s.setCoreAt core c).barsQuiet := by
  intro cx hcx nb hnb
  obtain rfl | hcx := Tab.mem_of_mem_put hcx
  · rw [hc] at hnb
    obtain h0 | hmem := Tab.get_eq_default_or_mem .zero s.cores core
    · rw [State.coreAt, h0] at hnb
      exact absurd hnb List.not_mem_nil
    · exact hq _ hmem nb hnb
  · exact hq cx hcx nb hnb

/-- Two states with the same memory, tasks and barrier errors, the second with quiet barriers where the first has them. -/
def State.sameButCores (s t : State) : Prop := t.mem = s.mem ∧ t.tasks = s.tasks ∧ t.barErrs = s.barErrs ∧ (s.barsQuiet → t.barsQuiet)

theorem State.clkCore_same (s : State) (core : Nat) : s.sameButCores (s.clkCore core) := by
  obtain h | ⟨c, h, hc⟩ := s.clkCore_cases core
  · rw [h]
    exact ⟨rfl, rfl, rfl, id⟩
  · rw [h]
    exact ⟨rfl, rfl, rfl, fun hq => State.barsQuiet_setCoreAt hq hc⟩

theorem State.foldl_clkCore_same (cores : List Nat) (s : State) : s.sameButCores (cores.foldl State.clkCore s) :=
  List.foldlRecOn (motive := s.sameButCores) cores _ ⟨rfl, rfl, rfl, id⟩ fun t ⟨hm, ht, he, hq⟩ core _ =>
    have ⟨hm', ht', he', hq'⟩ := t.clkCore_same core
    ⟨hm'.trans hm, ht'.trans ht, he'.trans he, hq' ∘ hq⟩

/-! ### A task -/

theorem Task.age_stat (t : Task) : t.age.stat = t.stat := t.age_of_frame (·.stat) fun _ _ _ t x => (t.writeDest_frame _ x).2.2.2.1

theorem State.clkTask_of_offCore (s : State) (core : Nat) {t : Task} (h : t.onCore = false) : s.clkTask core t = t := by
  simp [State.clkTask, h]

theorem State.clkTask_of_onCore {s : State} {core : Nat} {t : Task} (h : t.onCore = true) (hs : s.stopped core = false)
    (hw : s.stalled.contains core = false) (hc : core < 1024) : ∃ at_, s.clkTask core t = { t.age with offAt := at_ } := by
  have hage : t.age.onCore = true := by simpa [Task.onCore, t.age_stat] using h
  have hlow : ¬ 1024 ≤ core := Nat.not_le.2 hc
  refine ⟨if s.heldBack t.age then some (t.age.offAt.getD s.cycle.toNat) else none, ?_⟩
  simp only [State.clkTask, h, hs, hw, hage, hc, hlow, Bool.not_true, Bool.or_false, Bool.false_eq_true, decide_false, decide_true, Bool.false_and,
    Bool.and_self, if_true, if_false]

theorem State.endClk_mem (s : State) : s.endClk.mem = s.mem := (State.barsClk_mem _ _).trans (State.foldl_clkCore_same _ s).1

/-- With no arrival on its way and no barrier to break, the end of a clk does to each task what it does to it alone. -/
theorem State.endClk_get_tasks {s : State} (ha : s.arrivals = []) (he : s.barErrs = []) (hq : s.barsQuiet) (k : Nat) :
    s.endClk.tasks.get .empty k = s.clkTask (k / 16) (s.tasks.get .empty k) := by
  obtain ⟨-, ht, he', hq'⟩ := s.foldl_clkCore_same ((once (s.busyCores ++ s.cores.map (·.1))).filter (· < 1024))
  unfold State.endClk
  dsimp only
  rw [ha, List.length_nil, State.barsClk_of_quiet (he'.trans he) (hq' hq), ht]
  exact Tab.get_mapVal .empty s.tasks k (f := fun k => s.clkTask (k / 16)) (s.clkTask_of_offCore _ rfl)

end Sys2Proof.Machine
end

section
/-! A bundle that breaks a rule of R60: the trap its task takes, and the core's next choice (R63, R170, R220, R223). -/

namespace Sys2Proof.Machine

/-! ### The mask of an illegal bundle -/

theorem slotMask_lt (l : List Bool) : slotMask l < 16 := by
  have hb (b : Bool) : b2n b ≤ 1 := by cases b <;> decide
  match l with
  | [] => decide
  | [a] => have := hb a; simp [slotMask, upFrom]; omega
  | [a, b] => have := hb a; have := hb b; simp [slotMask, upFrom]; omega
  | [a, b, c] => have := hb a; have := hb b; have := hb c; simp [slotMask, upFrom]; omega
  | a :: b :: c :: d :: _ => have := hb a; have := hb b; have := hb c; have := hb d; simp [slotMask, upFrom]; omega

theorem Bundle.illegal_lt {b : Bundle} {vm : Nat → Nat} {noFlow : Bool} {reason m : Nat} (h : b.illegal vm noFlow = some (reason, m)) : m < 16 := by
  have hor {x y : Nat} (hx : x < 16) (hy : y < 16) : x ||| y < 16 := Nat.or_lt_two_pow (n := 4) hx hy
  have hite {c : Prop} [Decidable c] (l : List Bool) : (if c then slotMask l else 0) < 16 := by
    split
    · exact slotMask_lt l
    · decide
  unfold Bundle.illegal at h
  extract_lets m0 m1 is m2 posts mems gs many total gmask fmask m3 at h
  have hm3 : m3 < 16 := hor (hor (hor (hite _) (hite _)) (hite _)) (hite _)
  have hmask {r k : Nat} (hk : k < 16) (h : some (r, k) = some (reason, m)) : m < 16 := by
    cases h
    exact hk
  split at h
  · exact hmask (slotMask_lt _) h
  · split at h
    · exact hmask (slotMask_lt _) h
    · split at h
      · exact hmask (slotMask_lt _) h
      · split at h
        · exact hmask hm3 h
        · cases h

/-! ### The drain of a trap entry (R223, R228) -/

theorem Task.writeDest_regs {d : RDest} (h : d.atDrain = true) (t : Task) (x : VReg) : (t.writeDest d x).regs = t.regs := by
  cases d with
  | t | e | ze | d | pLoad | pSwap | pSwapAll => rfl
  | _ => cases h

/-- What no tile-side result writes is not changed by the drain. -/
theorem Task.emptied_of_frame {α : Type} (f : Task → α) (h : ∀ d : RDest, d.atDrain = true → ∀ t x, f (Task.writeDest t d x) = f t) (t : Task) :
    f t.emptied = f { t with inflight := [] } := by
  refine List.foldlRecOn (motive := fun u => f u = f { t with inflight := [] }) _ _ rfl fun u hu p hp => ?_
  split
  · exact (h _ (List.mem_filter.1 hp).2 ..).trans hu
  · exact hu

theorem Task.emptied_of_none {t : Task} (h : ∀ p ∈ t.inflight, p.dest.atDrain = false) : t.emptied = { t with inflight := [] } := by
  have hnone : (t.inflight.filter fun p => p.dest.atDrain) = [] := List.filter_eq_nil_iff.2 fun p hp => by simp [h p hp]
  rw [Task.emptied, hnone]
  rfl

section
variable (t : Task)

theorem Task.afterTrap_trap : t.afterTrap.trap = t.trap := t.emptied_of_frame (·.trap) fun d _ t x => (t.writeDest_frame d x).2.1
theorem Task.afterTrap_pc : t.afterTrap.pc = t.pc := t.emptied_of_frame (·.pc) fun d _ t x => (t.writeDest_frame d x).1
theorem Task.afterTrap_stat : t.afterTrap.stat = t.stat := t.emptied_of_frame (·.stat) fun d _ t x => (t.writeDest_frame d x).2.2.2.1
theorem Task.afterTrap_regs : t.afterTrap.regs = t.regs := t.emptied_of_frame (·.regs) fun _ hd t x => t.writeDest_regs hd x

end

theorem Task.afterTrap_tile {t : Task} (h : ∀ p ∈ t.inflight, p.dest.atDrain = false) : t.afterTrap.tile = t.tile :=
  (congrArg Task.tile (Task.emptied_of_none h) :)

/-! ### The task that holds issue (R170) -/

/-- Whether a task of a core holds issue. -/
def State.hasIssuer (s : State) (core : Nat) : Prop := ∃ x ∈ s.tasks, x.1 / 16 = core ∧ x.2.stat = .issuing

theorem State.hasIssuer_iff (s : State) (core : Nat) : s.hasIssuer core ↔ (s.issuerOf core).isSome = true := by
  unfold State.hasIssuer State.issuerOf State.tasksOn
  rw [List.find?_isSome]
  constructor
  · rintro ⟨x, hx, hc, hi⟩
    exact ⟨(x.1 % 16, x.2), List.mem_map.2 ⟨x, List.mem_filter.2 ⟨hx, by simp [hc, hi]⟩, rfl⟩, by simp [hi]⟩
  · rintro ⟨y, hy, hi⟩
    obtain ⟨x, hx, rfl⟩ := List.mem_map.1 hy
    obtain ⟨hx, hc⟩ := List.mem_filter.1 hx
    simp only [Bool.and_eq_true, beq_iff_eq] at hc
    exact ⟨x, hx, hc.1, by simpa using hi⟩

/-- Replacing a task by one that holds issue where it did keeps a core's issuer. -/
theorem State.hasIssuer_setTaskAt {s : State} {core : Nat} (h : s.hasIssuer core) (c k : Nat) {t : Task}
    (ht : (s.taskAt c k).stat = .issuing → t.stat = .issuing) : (s.setTaskAt c k t).hasIssuer core := by
  obtain ⟨x, hx, hc, hi⟩ := h
  obtain hx' | rfl := Tab.mem_put_of_mem .empty hx (taskKey c k) t
  · exact ⟨x, hx', hc, hi⟩
  · exact ⟨_, Tab.mem_put_self .., hc, ht hi⟩

theorem taskKey_div {core slot : Nat} (h : slot < 16) : taskKey core slot / 16 = core := by
  unfold taskKey
  omega

theorem State.mem_readyOn {s : State} {core : Nat} {x : Nat × Task} (h : x ∈ s.readyOn core) : x.1 < 16 := by
  obtain ⟨kt, -, rfl⟩ := List.mem_map.1 (List.mem_filter.1 h).1
  exact Nat.mod_lt _ (by decide)

theorem firstAfter_mem {xs : List (Nat × Task)} {last : Option Nat} {x : Nat × Task} (h : firstAfter xs last = some x) : x ∈ xs := by
  unfold firstAfter at h
  extract_lets rank at h
  refine List.foldlRecOn (motive := fun best => best = some x → x ∈ xs) xs _ (fun h => absurd h (Option.some_ne_none x).symm) (fun best hb y hy h => ?_) h
  split at h
  · cases h
    exact hy
  · split at h
    · cases h
      exact hy
    · exact hb h

theorem State.chosen_mem {s : State} {core : Nat} {x : Nat × Task} (h : s.chosen core = some x) : x ∈ s.readyOn core := by
  unfold State.chosen at h
  extract_lets rs aged level at h
  have haged (y : (Nat × Task) × Nat) : aged = some y → y.1 ∈ rs := by
    refine List.foldlRecOn (motive := fun best => best = some y → y.1 ∈ rs) rs _ (fun h => absurd h (Option.some_ne_none y).symm) fun best hb x hx h => ?_
    split at h
    · cases h
      exact hx
    · split at h
      · cases h
        exact hx
      · exact hb h
    · exact hb h
  clear_value aged
  split at h
  next y =>
    cases h
    exact haged y rfl
  · exact (List.mem_filter.1 (firstAfter_mem h)).1

theorem State.hasIssuer_of_taskAt {s : State} {core slot : Nat} (hs : slot < 16) (h : (s.taskAt core slot).stat = .issuing) : s.hasIssuer core := by
  obtain h0 | hmem := Tab.get_eq_default_or_mem .empty s.tasks (taskKey core slot)
  · rw [State.taskAt, h0] at h
    cases h
  · exact ⟨_, hmem, taskKey_div hs, h⟩

theorem State.choose_stat {s : State} {core : Nat} {x : Nat × Task} (h : x ∈ s.readyOn core) :
    ((s.choose core x.1).taskAt core x.1).stat = .issuing := by
  obtain ⟨as, bs, hx⟩ := List.append_of_mem h
  unfold State.choose
  dsimp only
  rw [hx, List.foldl_append, List.foldl_cons, if_pos rfl]
  refine List.foldlRecOn (motive := fun u : State => (u.taskAt core x.1).stat = .issuing) bs _ ?_ fun u hu y _ => ?_
  · rw [State.setTaskAt_taskAt]
    rfl
  · by_cases hy : y.1 = x.1
    · rw [if_pos hy, hy, State.setTaskAt_taskAt]
      rfl
    · rw [State.setTaskAt_taskAt_ne]
      · exact hu
      · unfold taskKey
        omega

/-- Once a core has chosen, a task holds issue. -/
theorem State.hasIssuer_of_pick {s s1 : State} {core slot : Nat} (hc : core < 1024) (h : s.pick core = some (s1, slot)) : s1.hasIssuer core := by
  unfold State.pick at h
  rw [if_neg (Nat.not_le.2 hc)] at h
  split at h
  next x hx =>
    cases h
    exact (s.hasIssuer_iff core).2 (by rw [hx]; rfl)
  · obtain ⟨x, hx, h⟩ := Option.map_eq_some_iff.1 h
    cases h
    exact State.hasIssuer_of_taskAt (State.mem_readyOn (State.chosen_mem hx)) (State.choose_stat (State.chosen_mem hx))

theorem State.chooseNext_of_hasIssuer {s : State} {core : Nat} (h : core < 1024 → s.hasIssuer core) : s.chooseNext core = s := by
  unfold State.chooseNext
  refine if_pos ?_
  by_cases hc : core < 1024
  · simp [(s.hasIssuer_iff core).1 (h hc)]
  · simp [Nat.not_lt.1 hc]

end Sys2Proof.Machine
end

section
/-! The trap of an illegal bundle: fetch, trap entry and the choice after it (R46, R63, R220, R223). -/

namespace Sys2Proof.Machine

/-! ### What a fetch leaves as it is (R86, R106) -/

/-- The same issue in focus, and an issuer on each core that had one. -/
def State.keepsIssue (s t : State) : Prop := t.iss = s.iss ∧ ∀ core, s.hasIssuer core → t.hasIssuer core

theorem Task.eventTo_stat_of_issuing {t : Task} (r : Report) (h : t.stat = .issuing) : (t.eventTo r).stat = .issuing := by
  simp [Task.eventTo, h]

theorem State.onTask_keepsIssue (s : State) (core slot kernel : Nat) {f : Task → Task} (hf : ∀ t, t.stat = .issuing → (f t).stat = .issuing) :
    s.keepsIssue (s.onTask core slot kernel f) := by
  unfold State.onTask
  dsimp only
  split
  · exact ⟨rfl, fun _ h => State.hasIssuer_setTaskAt h _ _ (hf _)⟩
  · exact ⟨rfl, fun _ => id⟩

theorem State.demote_keepsIssue (s : State) (u : UnitId) (ctx : Nat) (ls : List ByteLook) : s.keepsIssue (s.demote u ctx ls) := by
  have hid : s.keepsIssue s := ⟨rfl, fun _ => id⟩
  unfold State.demote
  split
  · dsimp only
    split
    · exact hid
    · split
      · exact hid
      next k b _ =>
        split
        · exact hid
        · exact State.onTask_keepsIssue { s with borrowers := _ } _ _ _ fun t ht => t.eventTo_stat_of_issuing _ ht
  · exact hid

theorem State.serveFetch_done {s s3 : State} {h : Held} {va : Word} {img : VReg} (hs : s.serveFetch h va = (s3, .done img)) : s.keepsIssue s3 := by
  unfold State.serveFetch at hs
  dsimp only at hs
  split at hs
  · cases hs
    exact s.demote_keepsIssue ..
  all_goals cases hs

theorem State.fetch_ok {s s3 : State} {core slot : Nat} {bs : List Byte} (h : s.fetch core slot = (s3, .ok bs)) : s.keepsIssue s3 := by
  unfold State.fetch at h
  dsimp only at h
  split at h
  · cases h
  · split at h
    next hs =>
      cases h
      obtain ⟨hiss, hissuer⟩ := State.serveFetch_done hs
      exact ⟨hiss, hissuer⟩
    all_goals cases h

/-! ### The trap -/

theorem State.trapped_tasks (s : State) (core : Nat) : (s.trapped core).tasks = s.tasks := by
  unfold State.trapped
  dsimp only
  split <;> rfl

theorem State.trapped_mem (s : State) (core : Nat) : (s.trapped core).mem = s.mem := by
  unfold State.trapped
  dsimp only
  split <;> rfl

theorem State.trapped_setTaskAt_taskAt (s : State) (core slot : Nat) (t : Task) : ((s.setTaskAt core slot t).trapped core).taskAt core slot = t := by
  rw [State.taskAt, State.trapped_tasks]
  exact State.setTaskAt_taskAt ..

/-- A precise cause of a bundle none of whose slots executed, where the task's handler takes it. -/
theorem State.raiseBundle_of_handler {s : State} {cause mask : Nat} (tval : Word) (ht : s.task.inTrap = false) (hh : s.task.hasHandler = true)
    (hc : cause < 0x040) : s.raiseBundle cause mask tval =
      (s.setTask (s.task.enterTrap 0 false cause s.task.pc mask 0 tval 0).afterTrap).trapped s.iss.core := by
  simp only [State.raiseBundle, ht, hh, if_pos hc]
  rfl

/-- A core whose bundle is illegal ends its step in the trap: the task that took it keeps issue, so nothing is chosen. -/
theorem State.chooseNext_raiseBundle {s : State} {core slot cause m : Nat} (hfocus : s.iss.core = core ∧ s.iss.slot = slot)
    (hissuer : core < 1024 → s.hasIssuer core) (ht : (s.taskAt core slot).inTrap = false) (hh : (s.taskAt core slot).hasHandler = true)
    (hd : ∀ f, (s.taskAt core slot).delay ≠ .taken f) (hc : cause < 0x040) :
    let t := s.taskAt core slot
    (s.raiseBundle cause m 0).chooseNext core = (s.setTaskAt core slot (t.enterTrap 0 false cause t.pc m 0 0 0).afterTrap).trapped core := by
  obtain ⟨rfl, rfl⟩ := hfocus
  intro t
  rw [State.raiseBundle_of_handler 0 ht hh hc]
  refine State.chooseNext_of_hasIssuer fun hcore => ?_
  have hkept : (s.setTaskAt s.iss.core s.iss.slot (t.enterTrap 0 false cause t.pc m 0 0 0).afterTrap).hasIssuer s.iss.core :=
    State.hasIssuer_setTaskAt (hissuer hcore) _ _ fun hi => (Task.afterTrap_stat _).trans <| by
      rw [t.enterTrap_precise _ _ _ _ _ hd]
      exact hi
  unfold State.hasIssuer
  rw [State.trapped_tasks]
  exact hkept

end Sys2Proof.Machine
end

section
/-! What else a step is: an input, a unit, the end of a clk, an illegal bundle (R46, R48, R60, R63). -/

namespace Sys2Proof.Machine

/-- The end of a clk leaves memory as it is, counts CYCLE, and ages the tasks on their cores (R48). -/
theorem State.endClk_spec (s : State) (k : Nat) :
    let old := s.tasks.get .empty k
    let calm : Prop := s.arrivals = [] ∧ s.barErrs = [] ∧ s.barsQuiet
    s.endClk.cycle = s.cycle + 1 ∧ s.endClk.turn = 0 ∧ s.endClk.acts = 0 ∧ (∀ l, s.endClk.mem.rd l = s.mem.rd l) ∧
      (calm → old.onCore = true → s.stopped (k / 16) = false → s.stalled.contains (k / 16) = false → k / 16 < 1024 →
        ∃ at_, s.endClk.tasks.get .empty k = { old.age with offAt := at_ }) ∧
      (calm → old.onCore = false → s.endClk.tasks.get .empty k = old) := by
  intro old calm
  refine ⟨rfl, rfl, rfl, fun l => by rw [s.endClk_mem], fun ⟨ha, he, hq⟩ hon hst hw hk => ?_, fun ⟨ha, he, hq⟩ hoff => ?_⟩
  · rw [State.endClk_get_tasks ha he hq]
    exact State.clkTask_of_onCore hon hst hw hk
  · rw [State.endClk_get_tasks ha he hq]
    exact s.clkTask_of_offCore _ hoff

/-- Settles O54: each kind of step by its own equation; the trap of an illegal bundle is the only thing its turn does. -/
theorem stepsTakeInputsAndEndClks : Obligations.StepsTakeInputsAndEndClks := by
  intro s s1 s3 i rest core slot k m reason bs t c focus old old3 calm
  refine ⟨fun j => exec_goes j s, fun hi he => ?_, fun hi he => ?_, fun u hi hu => ?_, fun hi hu hc => ?_, ?_⟩
  · simp only [step, hi, he, if_true]
  · simp only [step, hi, he, Bool.false_eq_true, if_false]
  · simp only [step, hi, hu]
  · exact ⟨s.endClk, by simp only [step, hi, hu, hc], s.endClk_spec k⟩
  · intro hi hu hc hp hpause hw hr hs ht hf hill hin hh hd hreason
    have hm : m < 16 := Bundle.illegal_lt hill
    obtain ⟨hiss, hissuer⟩ := State.fetch_ok hf
    have hfocus : s3.iss.core = core ∧ s3.iss.slot = slot := by
      rw [hiss]
      exact ⟨rfl, rfl⟩
    have hpicked (hcore : core < 1024) : s3.hasIssuer core :=
      hissuer core (show s1.hasIssuer core from State.hasIssuer_of_pick hcore hp)
    have hturn : s.turnOn core = .next (s3.raiseBundle (16 * reason + m) m 0) :=
      (State.turnOn_of_pick hp hpause hw hr hs ht).trans (State.issueBundle_of_illegal hf hill)
    refine ⟨_, step_of_turnOn hi hu hc hturn, ?_⟩
    rw [State.chooseNext_raiseBundle hfocus hpicked hin hh hd (by omega)]
    intro v
    have hv : v = (old3.enterTrap 0 false (16 * reason + m) old3.pc m 0 0 0).afterTrap := State.trapped_setTaskAt_taskAt ..
    rw [old3.enterTrap_precise _ _ _ _ _ hd] at hv
    refine ⟨?_, ?_, ?_, ?_, ?_, fun hdrain => ?_, fun l => congrArg (Mem.rd · l) (State.trapped_mem _ core)⟩
    · rw [hv, Task.afterTrap_trap, Nat.add_assoc _ (16 * reason) m]
    · rw [hv, Task.afterTrap_trap, Nat.zero_mul, Nat.zero_add]
    · rw [hv, Task.afterTrap_trap]
      rfl
    · rw [hv, Task.afterTrap_pc]
      rfl
    · rw [hv, Task.afterTrap_regs]
    · rw [hv]
      exact Task.afterTrap_tile hdrain

end Sys2Proof.Machine
end

section
/-! The DESTROY of a context says the reports that wait (R83, R86, R108). -/

namespace Sys2Proof.Machine

/-- Context 1 is STOPPED, no access is held or side-logged, no fault record waits, and one report does: of a write of the unit that
forwards the fault records of context 2, no part of which is out any more (R86, R108). -/
def ringReportState : State :=
  { State.reset with
    modstat := { State.reset.modstat with phase := 4 }
    ctxs := [(1, { Ctx.zero with stat := .stopped })]
    repWait := [(.ring 2, 0, ⟨0x083, 0⟩)] }

/-- The report drops the record of context 2 and sets OVF in its FRCTL (R89). -/
theorem ctxDestroy_ringReportState_ovf {t : State} (h : exec (.ctxDestroy 1) ringReportState = .next t) :
    (t.ctxAt 2).frctl.b 40 = true := by
  rw [← Host.Outcome.next.inj h]
  decide +kernel

/-- Refutes O31: a DESTROY ends by letting go on what waits, the reports that wait for a part of their access among it. Where one of
them is of a fault ring's unit, it sets OVF in the FRCTL of that ring's context, while the DESTROY clause keeps every other context as
it is: its premises empty the held accesses, the side logs and the records, and say nothing of the reports. -/
theorem not_contextEventsMoveContexts : ¬ Obligations.ContextEventsMoveContexts := by
  intro h
  obtain ⟨-, -, -, hmay, -⟩ := h ringReportState 1
  obtain ⟨-, -, -, -, -, -, -, -, hdestroy⟩ := hmay (by decide)
  have hrecs (m : Nat) : (ringReportState.ctxAt m).recs = [] := by
    obtain hm | hm := Tab.get_eq_default_or_mem Ctx.zero ringReportState.ctxs m
    · exact congrArg Ctx.recs hm
    · exact congrArg (·.2.recs) (List.mem_singleton.1 hm)
  obtain ⟨t, ht, ⟨hothers, -⟩, -⟩ := hdestroy (by decide) rfl (by decide) hrecs
  have hovf : (ringReportState.ctxAt 2).frctl.b 40 = true := hothers 2 (by decide) ▸ ctxDestroy_ringReportState_ovf ht
  exact absurd hovf (by decide)

end Sys2Proof.Machine
end

section
/-! Writes of the registers of BAR0, by the block a register lies in, and the events they name (R81, R84, R89, R93, R102, R149, R200,
R362, R363, R390, R394, R395, R453). -/

namespace Sys2Proof.Machine

/-! ### The configuration registers of a context (R84, R85, R88, R90, R234) -/

theorem configAt_page {k o : Nat} (hk : k < 16) (ho : o < 0x200) : configAt ((0x400000 + 0x1000 * k + 8 * o) / 8 * 8) = some (k, 8 * o) := by
  rw [configAt, if_pos (by omega)]
  exact congrArg some (Prod.ext (by omega) (by omega))

theorem configAt_savebase {k : Nat} (hk : k < 16) : configAt ((0x700000 + 8 * k) / 8 * 8) = some (k, 0x1000) := by
  rw [configAt, if_neg (by omega), if_pos (by omega)]
  exact congrArg some (Prod.ext (by omega) rfl)

theorem Ctx.configured_range (c : Ctx) (v : Word) {i : Nat} (hi : i < 32) :
    c.configured (8 * (32 + i)) v = some { c with range := c.range.set 0 i (v &&& BitVec.ofNat 64 (rangeMask i)) } := by
  rw [Ctx.configured, if_neg (by omega), if_neg (by omega), if_neg (by omega), if_pos (by omega)]
  simp only [show (8 * (32 + i) - 0x100) / 8 = i by omega, BitVec.ofNat_and, BitVec.ofNat_toNat, BitVec.setWidth_eq]

theorem Ctx.configured_leasebind (c : Ctx) (v : Word) {j : Nat} (hj : j < 64) :
    c.configured (8 * (64 + j)) v =
      some { c with leasebind := c.leasebind.set 0 j (v &&& BitVec.ofNat 64 (maskF 63 63 + maskF 19 0)) } := by
  rw [Ctx.configured, if_neg (by omega), if_neg (by omega), if_neg (by omega), if_neg (by omega), if_pos (by omega)]
  simp only [show (8 * (64 + j) - 0x200) / 8 = j by omega, BitVec.ofNat_and, BitVec.ofNat_toNat, BitVec.setWidth_eq]

/-- A write at an offset makes context k the context c' where its state admits it, and else sets BADWR (R84). -/
def State.TakesConfig (s : State) (k off : Nat) (v : Word) (c' : Ctx) : Prop :=
  let c := s.ctxAt k
  let cfg : Prop := c.stat = .building ∨ c.stat = .stopped
  (cfg → Completes (.configRegisterWrite off v) s (fun t => t = s.setCtxAt k c')) ∧
    (¬ cfg → Completes (.configRegisterWrite off v) s (fun t => t = s.setCtxAt k { c with badwr := true }))

theorem State.takesConfig_of_configAt {s : State} {k off o : Nat} {v : Word} {c' : Ctx} (ha : configAt (off / 8 * 8) = some (k, o))
    (hc : (if o = 0x1000 then some { s.ctxAt k with savebase := (s.ctxAt k).savebase.merge v (maskF 63 63 + maskF 51 33) }
      else (s.ctxAt k).configured o v) = some c') : s.TakesConfig k off v c' := by
  have he : exec (.configRegisterWrite off v) s = .next (if (s.ctxAt k).stat = .building ∨ (s.ctxAt k).stat = .stopped
      then s.setCtxAt k c' else s.setCtxAt k { s.ctxAt k with badwr := true }) := by
    change execConfigRegisterWrite off v s = _
    simp only [execConfigRegisterWrite, ha, hc]
  exact ⟨fun h => ⟨_, he, if_pos h⟩, fun h => ⟨_, he, if_neg h⟩⟩

/-- A register of the control page at word o of it (R81). -/
theorem State.takesConfig_page {s : State} {k o off : Nat} {v : Word} {c' : Ctx} (hk : k < 16) (ho : o < 0x200)
    (hoff : off = 0x400000 + 0x1000 * k + 8 * o) (hc : (s.ctxAt k).configured (8 * o) v = some c') : s.TakesConfig k off v c' :=
  State.takesConfig_of_configAt (hoff ▸ configAt_page hk ho) ((if_neg (by omega)).trans hc)

/-! ### FRCTL (R89) -/

/-- The fields of FRCTL: TAIL, OVF, HEAD, the reserved field, LOG2N. -/
def frctlFields (w : Word) : Nat × Bool × Nat × Nat × Nat := (w.f 19 0, w.b 40, w.f 39 20, w.f 58 41, w.f 63 59)

theorem frctlFields_eq_iff {w : Word} {tail head rsv log : Nat} {ovf : Bool} : frctlFields w = (tail, ovf, head, rsv, log) ↔
    (w.f 19 0 = tail ∧ w.b 40 = ovf ∧ w.f 39 20 = head ∧ w.f 58 41 = rsv) ∧ w.f 63 59 = log := by
  simp only [frctlFields, Prod.mk.injEq, and_assoc]

theorem frctlFields_setTail (w v : Word) :
    frctlFields (w.setF 19 0 (v.f 19 0)) = (v.f 19 0, w.b 40, w.f 39 20, w.f 58 41, w.f 63 59) := by
  have := w.isLt
  simp only [frctlFields_eq_iff, Word.setF, Word.f, Word.b, bits, bit, BitVec.toNat_ofNat]
  refine ⟨⟨?_, congrArg (· == 1) ?_, ?_, ?_⟩, ?_⟩ <;> omega

theorem frctlFields_setOvf (w : Word) (b : Bool) :
    frctlFields (w.setF 40 40 (b2n b)) = (w.f 19 0, b, w.f 39 20, w.f 58 41, w.f 63 59) := by
  have := w.isLt
  have := b2n_lt b
  refine frctlFields_eq_iff.2 ⟨⟨?_, bit_of_b2n ?_, ?_, ?_⟩, ?_⟩ <;> simp only [Word.setF, Word.f, bits, BitVec.toNat_ofNat] <;> omega

theorem frctlFields_setLog2n (w v : Word) :
    frctlFields (w.setF 63 59 (v.f 63 59)) = (w.f 19 0, w.b 40, w.f 39 20, w.f 58 41, v.f 63 59) := by
  have := w.isLt
  simp only [frctlFields_eq_iff, Word.setF, Word.f, Word.b, bits, bit, BitVec.toNat_ofNat]
  refine ⟨⟨?_, congrArg (· == 1) ?_, ?_, ?_⟩, ?_⟩ <;> omega

/-- FRCTL after a write of v that reaches TAIL and OVF alone (R84). -/
def frctlOpen (w v : Word) : Word := (w.setF 19 0 (v.f 19 0)).setF 40 40 (b2n (w.b 40 && !v.b 40))

theorem frctlFields_frctlOpen (w v : Word) :
    frctlFields (frctlOpen w v) = (v.f 19 0, w.b 40 && !v.b 40, w.f 39 20, w.f 58 41, w.f 63 59) := by
  obtain ⟨⟨htail, -, hhead, hrsv⟩, hlog⟩ := frctlFields_eq_iff.1 (frctlFields_setTail w v)
  rw [frctlOpen, frctlFields_setOvf, htail, hhead, hrsv, hlog]

/-- FRCTL after a write of v that reaches LOG2N too (R84). -/
def frctlConfig (w v : Word) : Word := (frctlOpen w v).setF 63 59 (v.f 63 59)

theorem frctlFields_frctlConfig (w v : Word) :
    frctlFields (frctlConfig w v) = (v.f 19 0, w.b 40 && !v.b 40, w.f 39 20, w.f 58 41, v.f 63 59) := by
  obtain ⟨⟨htail, hovf, hhead, hrsv⟩, -⟩ := frctlFields_eq_iff.1 (frctlFields_frctlOpen w v)
  rw [frctlConfig, frctlFields_setLog2n, htail, hovf, hhead, hrsv]

section
variable {s : State} {n : BitVec 4}

theorem exec_frctlWrite_of_cfg (v : Word) (h : (s.ctxAt n.toNat).stat = .building ∨ (s.ctxAt n.toNat).stat = .stopped) :
    exec (.frctlWrite n v) s = .next (s.setCtxAt n.toNat { s.ctxAt n.toNat with
      frctl := frctlConfig (s.ctxAt n.toNat).frctl v, badwr := (s.ctxAt n.toNat).badwr || false }) := by
  have hopen : (s.ctxAt n.toNat).stat ≠ .free ∧ (s.ctxAt n.toNat).stat ≠ .draining := by rcases h with h | h <;> simp [h]
  change execFrctlWrite n v s = _
  simp only [execFrctlWrite, if_pos hopen, h, if_true, not_true_eq_false, decide_false, Bool.false_and]
  rfl

theorem exec_frctlWrite_of_open (v : Word) (h : ¬ ((s.ctxAt n.toNat).stat = .building ∨ (s.ctxAt n.toNat).stat = .stopped))
    (hf : (s.ctxAt n.toNat).stat ≠ .free) (hd : (s.ctxAt n.toNat).stat ≠ .draining) :
    exec (.frctlWrite n v) s = .next (s.setCtxAt n.toNat { s.ctxAt n.toNat with
      frctl := frctlOpen (s.ctxAt n.toNat).frctl v
      badwr := (s.ctxAt n.toNat).badwr || v.f 63 59 != (s.ctxAt n.toNat).frctl.f 63 59 }) := by
  change execFrctlWrite n v s = _
  simp only [execFrctlWrite, if_pos (And.intro hf hd), h, if_false, not_false_eq_true, decide_true, Bool.true_and]
  rfl

theorem exec_frctlWrite_of_closed (v : Word) (h : (s.ctxAt n.toNat).stat = .free ∨ (s.ctxAt n.toNat).stat = .draining) :
    exec (.frctlWrite n v) s = .next (s.setCtxAt n.toNat { s.ctxAt n.toNat with
      badwr := (s.ctxAt n.toNat).badwr || v.f 63 59 != (s.ctxAt n.toNat).frctl.f 63 59 }) := by
  have hcfg : ¬ ((s.ctxAt n.toNat).stat = .building ∨ (s.ctxAt n.toNat).stat = .stopped) := by rcases h with h | h <;> simp [h]
  have hopen : ¬ ((s.ctxAt n.toNat).stat ≠ .free ∧ (s.ctxAt n.toNat).stat ≠ .draining) := by rcases h with h | h <;> simp [h]
  change execFrctlWrite n v s = _
  simp only [execFrctlWrite, if_neg hopen, hcfg, if_false, not_false_eq_true, decide_true, Bool.true_and]

end

/-! ### The other registers, block by block -/

section
variable (s : State) (v : Word) {off o : Nat}

theorem exec_write_ctxstat {k : Nat} (hk : k < 16) : exec (.registerWrite (0x400000 + 0x1000 * k + 8) v) s =
    .next (s.setCtxAt k { s.ctxAt k with badcmd := (s.ctxAt k).badcmd && !v.b 8, badwr := (s.ctxAt k).badwr && !v.b 10 }) := by
  change execRegisterWrite _ v s = _
  simp (disch := omega) only [execRegisterWrite, if_pos, show (0x400000 + 0x1000 * k + 8 - 0x400000) / 0x1000 = k by omega]

theorem exec_write_page (hoff : off = 0x500000 + o) (ho : o < 0x1000) :
    exec (.registerWrite off v) s = .next (s.writePageReg o v) := by
  change execRegisterWrite _ v s = _
  simp (disch := omega) only [execRegisterWrite, if_neg, if_pos, show off - 0x500000 = o by omega]

theorem exec_write_qstat {k j : Nat} (hk : k < 16) (hj : j < 64) :
    exec (.registerWrite (0x600018 + 0x1000 * k + 0x40 * j) v) s = .next (let q := s.queueAt k j
      s.setQueue k j { q with limit := q.limit && !v.b 3, baddb := q.baddb && !v.b 2, badcmd := q.badcmd && !v.b 1 }) := by
  change execRegisterWrite _ v s = _
  simp (disch := omega) only [execRegisterWrite, if_neg, if_pos, show (0x600018 + 0x1000 * k + 0x40 * j - 0x600000) / 0x1000 = k by omega,
    show (0x600018 + 0x1000 * k + 0x40 * j) % 0x1000 / 0x40 = j by omega]

theorem exec_write_link {j : Nat} (hj : j < 256) (ho : o < 0x100) :
    exec (.registerWrite (0x800000 + o + 0x100 * j) v) s = .next (s.writeLinkReg j o v) := by
  change execRegisterWrite _ v s = _
  simp (disch := omega) only [execRegisterWrite, if_neg, if_pos, show (0x800000 + o + 0x100 * j - 0x800000) / 0x100 = j by omega,
    show (0x800000 + o + 0x100 * j) % 0x100 = o by omega]

theorem exec_write_linkBlock (hoff : off = 0x810000 + o) (ho : o < 0x1000) :
    exec (.registerWrite off v) s = .next (s.writeLinkBlock o v) := by
  change execRegisterWrite _ v s = _
  simp (disch := omega) only [execRegisterWrite, if_neg, if_pos, show off - 0x810000 = o by omega]

theorem exec_write_lender {j : Nat} (hj : j < 256) (ho : o < 0x20) :
    exec (.registerWrite (0xA00000 + o + 0x20 * j) v) s = .next (s.setLender j ((s.lender j).write o v)) := by
  change execRegisterWrite _ v s = _
  simp (disch := omega) only [execRegisterWrite, if_neg, if_pos, show (0xA00000 + o + 0x20 * j - 0xA00000) / 0x20 = j by omega,
    show (0xA00000 + o + 0x20 * j) % 0x20 = o by omega]
  rfl

theorem exec_write_borrower {j : Nat} (hj : j < 1024) (ho : o < 0x20) :
    exec (.registerWrite (0xA10000 + o + 0x20 * j) v) s = .next (s.setBorrower j ((s.borrower j).write o v)) := by
  change execRegisterWrite _ v s = _
  simp (disch := omega) only [execRegisterWrite, if_neg, if_pos, show (0xA10000 + o + 0x20 * j - 0xA10000) / 0x20 = j by omega,
    show (0xA10000 + o + 0x20 * j) % 0x20 = o by omega]
  rfl

/-- The registers of retriever 0, which every part with a controller has. -/
theorem exec_write_retriever {s : State} (hm : 8 ≤ s.part.memch) (hoff : off = 0x900000 + o) (ho : o < 0x1000) :
    exec (.registerWrite off v) s = .next (s.writeRetrReg 0 o v) := by
  have hr : s.retrOf off = some 0 := by
    rw [State.retrOf, if_pos (by omega), show (off - 0x900000) / 0x1000 = 0 by omega]
  change execRegisterWrite _ v s = _
  simp (disch := omega) only [execRegisterWrite, if_neg, hr, show off % 0x1000 = o by omega]

end

theorem State.writePageReg_ringattr (s : State) {j : Nat} (hj : j < 60) (v : Word) : s.writePageReg (0x200 + 8 * j) v =
    { s with page := { s.page with ringattr := s.page.ringattr.set 0 j (v &&& 0x1F) } } := by
  simp (disch := omega) only [State.writePageReg, if_neg, if_pos, show (0x200 + 8 * j - 0x200) / 8 = j by omega]

theorem State.writeLinkReg_of_fitted {s : State} {j : Nat} (h : s.part.fitted j = true) (o : Nat) (v : Word) : s.writeLinkReg j o v =
    if o = 0x00 then s.setLinkAt j { s.linkAt j with auto := v.b 0 }
    else if o = 0x10 then s.setLinkAt j { s.linkAt j with replays := v.f 63 32, uncorr := v.f 31 0 }
    else s := by
  simp only [State.writeLinkReg, h, Bool.not_true, Bool.false_eq_true, if_false]

theorem State.writeLinkBlock_podmap (s : State) {j : Nat} (hj : j < 64) (v : Word) : s.writeLinkBlock (0x400 + 8 * j) v =
    { s with podmap := s.podmap.set 0 j v } := by
  simp (disch := omega) only [State.writeLinkBlock, if_neg, if_pos, show (0x400 + 8 * j - 0x400) / 8 = j by omega]

/-! ### The threads of retriever 0 and its migration block (R390, R394) -/

@[simp] theorem State.rtAt_setRt (s : State) (r t : Nat) (x : RetrThread) : (s.setRt r t x).rtAt r t = x := Tab.get_put_self ..

section
variable {s : State} (hm : 8 ≤ s.part.memch) {t : Nat} (h0 : 0 < t) (h8 : t < 8) (v : Word)
include hm h0 h8

/-- RTCTL.CTX is written at any time, and in the thread's task where there is one. -/
theorem exec_write_rtctl : exec (.registerWrite (0x900000 + 0x100 * t) v) s = .next
    (let x := s.rtAt 0 t
    let u := s.setRt 0 t { x with ctl := x.ctl.merge v 0xF }
    let k := s.taskAt 1024 t
    if x.stat = 0 then u else u.setTaskAt 1024 t { k with place := { k.place with ctx := v.f 3 0 } }) := by
  rw [exec_write_retriever v hm (o := 0x100 * t) rfl (by omega)]
  simp (disch := omega) only [State.writeRetrReg, if_pos, show 0x100 * t / 0x100 = t by omega, State.onThread, State.rtAt_setRt]
  rfl

/-- The other registers of a thread are written while it is not enabled. -/
theorem exec_write_thread {o : Nat} (ho : 0 < o ∧ o < 0x100) : exec (.registerWrite (0x900000 + 0x100 * t + o) v) s = .next
    (let x := s.rtAt 0 t
    if x.ctl.b 63 then s
    else if o = 0x08 then s.setRt 0 t { x with entry := x.entry.merge v (maskF 56 4) }
    else if o = 0x10 then s.setRt 0 t { x with win := x.win.merge v (maskF 51 6) }
    else if o = 0x18 then s.setRt 0 t { x with sram := x.sram.merge v (maskF 13 0) }
    else if o = 0x20 then s.setRt 0 t { x with kick := x.kick.merge v (maskF 63 63 + maskF 51 3) }
    else s) := by
  rw [exec_write_retriever v hm (o := 0x100 * t + o) (by omega) (by omega)]
  simp only [State.writeRetrReg, show (0x100 * t + o) / 0x100 = t by omega, show (0x100 * t + o) % 0x100 = o by omega]
  rw [if_pos (by omega), if_neg (by omega)]

end

theorem State.writeRetrReg_mig {s : State} {r : Nat} (h : (s.migAt r).busy = false) {o : Nat} (ho : o < 0x100) (v : Word) :
    s.writeRetrReg r (0x800 + o) v =
    let m := s.migAt r
    if o = 0x00 then s.setMig r { m with src := m.src.merge v (maskF 51 12) }
    else if o = 0x08 then s.setMig r { m with dst := m.dst.merge v (maskF 63 62 + maskF 51 12) }
    else if o = 0x10 then s.setMig r { m with tab := m.tab.merge v (maskF 51 0) }
    else s := by
  simp only [State.writeRetrReg, show (0x800 + o) / 0x100 = 8 by omega, show (0x800 + o) % 0x100 = o by omega, h]
  rfl

/-- An entry that is FREE takes both its registers (R395). -/
theorem Lender.write_of_free {l : Lender} (h : l.stat = .free) (o : Nat) (v : Word) : l.write o v =
    if o = 0x00 then { l with base := l.base.merge v (maskF 63 30 + maskF 15 0) }
    else if o = 0x08 then { l with cfg := l.cfg.merge v (maskF 63 32 + maskF 6 0) }
    else l := if_neg (not_not_intro h)

theorem Borrower.write_of_free {b : Borrower} (h : b.stat = .free) (o : Nat) (v : Word) : b.write o v =
    if o = 0x00 then { b with src := b.src.merge v (maskF 63 8) }
    else if o = 0x08 then { b with fall := b.fall.merge v (maskF 63 62 + maskF 51 30) }
    else b := by
  simp only [Borrower.write, h, true_or, if_true]

/-! ### A host's access and the event it names -/

theorem State.command_of_closed {s : State} (h : s.modstat.phase = 1 ∨ s.modstat.phase = 5) (o : Out) : s.command o = .next s := if_pos h

/-- The answer to a read has gone to the host. -/
def State.withRead (s : State) (w : Option Word) : State := { s with hostReads := s.hostReads ++ [w] }

theorem exec_hostRead (s : State) (bar off : Nat) (v : Word) : exec (.hostBarAccess false bar off v) s =
    .next (s.withRead (if s.modstat.phase = 1 then none else some (s.barRead bar (off / 8 * 8)))) := rfl

/-- An aligned write to a BAR that comes to an event's meaning leaves what the event leaves. -/
theorem same_of_barWrite {bar off : Nat} {v : Word} {s : State} {j : Instr} (ho : off % 8 = 0) (h : s.barWrite bar off v = s.after (exec j s)) :
    ∃ t, exec (.hostBarAccess true bar off v) s = .next t ∧ exec j s = .next t := by
  obtain ⟨u, hu⟩ := exec_goes j s
  have hw : exec (.hostBarAccess true bar off v) s = .next (s.barWrite bar (off / 8 * 8) v) := rfl
  refine ⟨u, ?_, hu⟩
  rw [hw, Nat.div_mul_cancel (Nat.dvd_of_mod_eq_zero ho), h, hu]
  rfl

section
variable {s : State} (hp : s.modstat.phase ≠ 1) (v : Word)
include hp

theorem State.barWrite_ctx (n : BitVec 4) {o : Nat} (ho : o < 0x1000) :
    s.barWrite 0 (0x400000 + 0x1000 * n.toNat + o) v =
    if o = 0x000 then s.after (ctxCommand n v s)
    else if o = 0x008 then s.after (execRegisterWrite (0x400000 + 0x1000 * n.toNat + o) v s)
    else if o = 0x020 then s.after (execFrctlWrite n v s)
    else s.after (execConfigRegisterWrite (0x400000 + 0x1000 * n.toNat + o) v s) := by
  have hn := n.isLt
  simp only [State.barWrite, show (0x400000 + 0x1000 * n.toNat + o - 0x400000) / 0x1000 = n.toNat by omega,
    show (0x400000 + 0x1000 * n.toNat + o) % 0x1000 = o by omega, BitVec.ofNat_toNat, BitVec.setWidth_eq]
  rw [if_neg hp, if_neg (not_not_intro rfl), if_pos (by omega)]

theorem State.barWrite_page {o : Nat} (ho : o < 0x1000) : s.barWrite 0 (0x500000 + o) v =
    if o = 0x008 then s.after (execPtinv v s)
    else if o = 0x018 then s.after (execPgabort v s)
    else if 0x100 ≤ o ∧ o < 0x180 then (if v.b 8 then s.after (execFgenFlush (BitVec.ofNat 4 ((o - 0x100) / 8)) s) else s)
    else s.after (execRegisterWrite (0x500000 + o) v s) := by
  simp only [State.barWrite, show (0x500000 + o) % 0x1000 = o by omega]
  rw [if_neg hp, if_neg (by omega), if_neg (by omega), if_pos (by omega)]

theorem State.barWrite_fgen (n : BitVec 4) (h : v.b 8 = true) : s.barWrite 0 (0x500100 + 8 * n.toNat) v = s.after (execFgenFlush n s) := by
  have hn := n.isLt
  rw [show 0x500100 + 8 * n.toNat = 0x500000 + (0x100 + 8 * n.toNat) by omega, State.barWrite_page hp v (by omega), if_neg (by omega),
    if_neg (by omega), if_pos (by omega), if_pos h, show (0x100 + 8 * n.toNat - 0x100) / 8 = n.toNat by omega, BitVec.ofNat_toNat,
    BitVec.setWidth_eq]

theorem State.barWrite_queue (n : BitVec 4) (q : BitVec 6) {o : Nat} (ho : o < 0x40) :
    s.barWrite 0 (0x600000 + 0x1000 * n.toNat + 0x40 * q.toNat + o) v =
    if o = 0x00 then s.after (execQueueConfigWrite n q false v s)
    else if o = 0x08 then s.after (execQueueConfigWrite n q true v s)
    else if o = 0x20 then s.after (queueCommand n q v s)
    else s.after (execRegisterWrite (0x600000 + 0x1000 * n.toNat + 0x40 * q.toNat + o) v s) := by
  have hn := n.isLt
  have hq := q.isLt
  simp only [State.barWrite, show (0x600000 + 0x1000 * n.toNat + 0x40 * q.toNat + o - 0x600000) / 0x1000 = n.toNat by omega,
    show (0x600000 + 0x1000 * n.toNat + 0x40 * q.toNat + o) % 0x1000 / 0x40 = q.toNat by omega,
    show (0x600000 + 0x1000 * n.toNat + 0x40 * q.toNat + o) % 0x1000 % 0x40 = o by omega, BitVec.ofNat_toNat, BitVec.setWidth_eq]
  rw [if_neg hp, if_neg (by omega), if_neg (by omega), if_neg (by omega), if_pos (by omega)]

theorem State.barWrite_preempt : s.barWrite 0 0x700100 v = s.after (execPreempt v s) := if_neg hp

theorem State.barWrite_rotctl (h : v.b 0 = true) : s.barWrite 0 0x810000 v = s.after (execRotorEnable s) := (if_neg hp).trans (if_pos h)

theorem State.barWrite_qstat (n : BitVec 4) :
    s.barWrite 0 (0x600018 + 0x1000 * n.toNat) v = s.after (execRegisterWrite (0x600018 + 0x1000 * n.toNat) v s) := by
  have := State.barWrite_queue hp v n 0 (o := 0x18) (by decide)
  rwa [show 0x600000 + 0x1000 * n.toNat + 0x40 * (0 : BitVec 6).toNat + 0x18 = 0x600018 + 0x1000 * n.toNat by
    rw [show (0 : BitVec 6).toNat = 0 from rfl]; omega] at this

theorem State.barWrite_doorbell (n : BitVec 4) (q : BitVec 6) :
    s.barWrite 2 (0x1000 * n.toNat + 8 * q.toNat) v = s.after (execDoorbell n q v s) := by
  have hn := n.isLt
  have hq := q.isLt
  simp only [State.barWrite, Nat.sub_zero, show (0x1000 * n.toNat + 8 * q.toNat) / 0x1000 = n.toNat by omega,
    show (0x1000 * n.toNat + 8 * q.toNat) % 0x1000 / 8 = q.toNat by omega, BitVec.ofNat_toNat, BitVec.setWidth_eq]
  rw [if_neg hp, if_pos (by omega), if_pos (by omega)]

end

theorem ctxCommand_undefined {v : Word} (h : v.f 7 0 = 0 ∨ 4 < v.f 7 0) (n : BitVec 4) (s : State) :
    ctxCommand n v s = execCtxcmdUndefined n s := by
  unfold ctxCommand
  split <;> [omega; omega; omega; omega; rfl]

theorem queueCommand_undefined {v : Word} (h : v.f 7 0 = 0 ∨ 4 < v.f 7 0) (n : BitVec 4) (q : BitVec 6) (s : State) :
    queueCommand n q v s = execQcmdUndefined n q s := by
  unfold queueCommand
  split <;> [omega; omega; omega; omega; rfl]

/-- Settles O32: a write comes to the meaning of its register's block, and an access through a BAR to the event its register names. -/
theorem registerWritesAndHostAccesses : Obligations.RegisterWritesAndHostAccesses := by
  refine ⟨fun s n v j => ?_, fun s n q bar off v l8 b10 t3 => ?_⟩
  · intro k c cfg page config fr frctl gives l x rt m ln b
    have hk : k < 16 := n.isLt
    have hj8 : j % 8 < 8 := Nat.mod_lt _ (by decide)
    exact ⟨State.takesConfig_page (o := 2) hk (by decide) rfl rfl, State.takesConfig_page (o := 3) hk (by decide) rfl rfl,
      State.takesConfig_page (o := 5) hk (by decide) rfl rfl,
      fun hj => ⟨State.takesConfig_page (o := 32 + 2 * j) hk (by omega) (by omega)
          ((c.configured_range v (by omega)).trans (by rw [rangeMask, if_pos (by omega)])),
        State.takesConfig_page (o := 32 + (2 * j + 1)) hk (by omega) (by omega)
          ((c.configured_range v (by omega)).trans (by rw [rangeMask, if_neg (by omega)]))⟩,
      fun hj => State.takesConfig_page (o := 64 + j) hk (by omega) (by omega) (c.configured_leasebind v hj),
      State.takesConfig_of_configAt (configAt_savebase hk) rfl,
      fun hc => ⟨_, exec_frctlWrite_of_cfg v hc, _, frctlFields_eq_iff.1 (frctlFields_frctlConfig _ v), rfl⟩,
      fun hc hf hd => ⟨_, exec_frctlWrite_of_open v hc hf hd, _, frctlFields_eq_iff.1 (frctlFields_frctlOpen _ v), rfl⟩,
      fun hc => ⟨_, exec_frctlWrite_of_closed v hc, _, rfl, rfl⟩,
      ⟨_, exec_write_ctxstat s v hk, rfl⟩,
      ⟨_, exec_write_page s v (o := 0x000) rfl (by decide), rfl⟩, ⟨_, exec_write_page s v (o := 0x010) rfl (by decide), rfl⟩,
      fun hj => ⟨_, exec_write_page s v (o := 0x200 + 8 * j) (by omega) (by omega), s.writePageReg_ringattr hj v⟩,
      fun hj => ⟨_, exec_write_qstat s v hk hj, rfl⟩,
      fun hj hfit => ⟨⟨_, exec_write_link s v (o := 0x00) hj (by decide), State.writeLinkReg_of_fitted hfit 0x00 v⟩,
        ⟨_, exec_write_link s v (o := 0x10) hj (by decide), State.writeLinkReg_of_fitted hfit 0x10 v⟩⟩,
      ⟨_, exec_write_linkBlock s v (o := 0x008) rfl (by decide), rfl⟩, ⟨_, exec_write_linkBlock s v (o := 0x010) rfl (by decide), rfl⟩,
      fun hj => ⟨_, exec_write_linkBlock s v (o := 0x400 + 8 * j) (by omega) (by omega), s.writeLinkBlock_podmap hj v⟩,
      fun hm h0 => ⟨⟨fun hst => ⟨_, exec_write_rtctl hm h0 hj8 v, if_pos hst⟩, fun hst => ⟨_, exec_write_rtctl hm h0 hj8 v, if_neg hst⟩⟩,
        fun hen o ho => ⟨_, exec_write_thread hm h0 hj8 v (by revert o; decide), if_pos hen⟩,
        fun hen =>
          have hen := Bool.eq_false_iff.1 hen
          ⟨⟨_, exec_write_thread hm h0 hj8 v (o := 0x08) (by decide), if_neg hen⟩,
            ⟨_, exec_write_thread hm h0 hj8 v (o := 0x10) (by decide), if_neg hen⟩,
            ⟨_, exec_write_thread hm h0 hj8 v (o := 0x18) (by decide), if_neg hen⟩,
            ⟨_, exec_write_thread hm h0 hj8 v (o := 0x20) (by decide), if_neg hen⟩⟩⟩,
      fun hm hb => ⟨⟨_, exec_write_retriever v hm (o := 0x800) rfl (by decide), State.writeRetrReg_mig hb (o := 0x00) (by decide) v⟩,
        ⟨_, exec_write_retriever v hm (o := 0x808) rfl (by decide), State.writeRetrReg_mig hb (o := 0x08) (by decide) v⟩,
        ⟨_, exec_write_retriever v hm (o := 0x810) rfl (by decide), State.writeRetrReg_mig hb (o := 0x10) (by decide) v⟩⟩,
      fun hj hf => ⟨⟨_, exec_write_lender s v (o := 0x00) hj (by decide), congrArg _ (Lender.write_of_free hf 0x00 v)⟩,
        ⟨_, exec_write_lender s v (o := 0x08) hj (by decide), congrArg _ (Lender.write_of_free hf 0x08 v)⟩⟩,
      fun hj hf => ⟨⟨_, exec_write_borrower s v (o := 0x00) hj (by decide), congrArg _ (Borrower.write_of_free hf 0x00 v)⟩,
        ⟨_, exec_write_borrower s v (o := 0x08) hj (by decide), congrArg _ (Borrower.write_of_free hf 0x08 v)⟩⟩,
      ⟨_, rfl, rfl⟩⟩
  · intro page queue wr same
    refine ⟨fun hp => ⟨⟨_, rfl, if_pos hp⟩, ⟨_, exec_hostRead .., congrArg s.withRead (if_pos hp)⟩⟩,
      fun hp => ⟨_, exec_hostRead .., congrArg s.withRead (if_neg hp)⟩, fun hp => ?_, fun hp => ?_⟩
    · simp only [List.forall_mem_cons, List.not_mem_nil, false_implies, implies_true, and_true]
      and_intros <;> exact ⟨s, State.command_of_closed hp _, rfl⟩
    · have hctx {j : Instr} (h : exec j s = ctxCommand n v s) : same (wr 0 page v) j :=
        same_of_barWrite (by omega) ((State.barWrite_ctx hp v n (o := 0) (by decide)).trans (h ▸ rfl))
      have hq {j : Instr} (h : exec j s = queueCommand n q v s) : same (wr 0 (queue + 0x20) v) j :=
        same_of_barWrite (by omega) ((State.barWrite_queue hp v n q (o := 0x20) (by decide)).trans (h ▸ rfl))
      refine ⟨fun h => hctx ?_, fun h => hctx ?_, fun h => hctx ?_, fun h => hctx ?_,
        fun h => ⟨hctx (ctxCommand_undefined h n s).symm, hq (queueCommand_undefined h n q s).symm⟩,
        same_of_barWrite (by omega) (State.barWrite_ctx hp v n (o := 0x10) (by decide)),
        same_of_barWrite (by omega) (State.barWrite_ctx hp v n (o := 0x20) (by decide)),
        same_of_barWrite rfl (State.barWrite_page hp v (o := 0x08) (by decide)),
        same_of_barWrite rfl (State.barWrite_page hp v (o := 0x18) (by decide)),
        fun h => same_of_barWrite (by omega) (State.barWrite_fgen hp v n h),
        same_of_barWrite (by omega) (State.barWrite_queue hp v n q (o := 0x00) (by decide)),
        same_of_barWrite (by omega) (State.barWrite_queue hp v n q (o := 0x08) (by decide)),
        fun h => hq ?_, fun h => hq ?_, fun h => hq ?_, fun h => hq ?_,
        same_of_barWrite (by omega) (State.barWrite_doorbell hp v n q), same_of_barWrite rfl (State.barWrite_preempt hp v),
        fun h => same_of_barWrite rfl (State.barWrite_rotctl hp v h),
        same_of_barWrite (by omega) (State.barWrite_qstat hp v n)⟩
      all_goals simp only [ctxCommand, queueCommand, h]; rfl

end Sys2Proof.Machine
end

section
/-! ### The reset state (R92, R95) -/

namespace Sys2Proof.Machine

/-- Settles O58: the reset memory lists no byte, and the reset task table is empty. -/
theorem resetTablesAreCanonical : Obligations.ResetTablesAreCanonical := ⟨State.reset_mem_wf, List.Pairwise.nil⟩

end Sys2Proof.Machine
end

section
/-! ## Canonical memory (R92, R95)

Every function of the model that answers a state either leaves the memory record as it was (`_mem`) or keeps its canonical
form (`_canon`): only `wrAll`, `setWord` and `atomic` write bytes, and those keep it. The lemmas follow the order of the
definitions, each from those of the functions it calls, up to `exec` and `step`. -/

namespace Sys2Proof.Machine

-- One theorem is checked after the other, so that their stacks do not add up.
set_option Elab.async false

/-- The canonical form of a memory (R92, R95) as one opaque statement, which `simp` carries and does not take apart. -/
def Mem.Canon (m : Mem) : Prop := m.wf

@[simp] theorem Mem.canon_wrAll {m : Mem} (h : m.Canon) (ls : List (Loc × Byte)) : (m.wrAll ls).Canon := Mem.wf_wrAll ls h

@[simp] theorem Mem.canon_setWord {m : Mem} (h : m.Canon) (ls : List Loc) (w : Word) : (m.setWord ls w).Canon := Mem.wf_setWord ls w h

@[simp] theorem Mem.canon_taint {m : Mem} {ls : List (Loc × Bool)} : (m.taint ls).Canon ↔ m.Canon := Iff.rfl

theorem Mem.canon_atomic {m m' : Mem} {op : Nat} {ls : List Loc} {ops : List Word} (h : m.Canon) (ha : (m.atomic op ls ops).2 = some m') :
    m'.Canon :=
  Mem.wf_atomic h ha

@[simp] theorem Mem.canon_ite {c : Prop} [Decidable c] {a b : Mem} : (if c then a else b).Canon ↔ if c then a.Canon else b.Canon := by
  split <;> rfl

@[simp] theorem Mem.canon_foldl {α : Type} {f : Mem → α → Mem} (hf : ∀ m x, m.Canon → (f m x).Canon) (l : List α) {m : Mem} (h : m.Canon) :
    (l.foldl f m).Canon := by
  induction l generalizing m with
  | nil => exact h
  | cons x l ih => exact ih (hf m x h)

@[simp] theorem State.foldl_mem {α : Type} {f : State → α → State} (hf : ∀ s x, (f s x).mem = s.mem) (l : List α) (s : State) :
    (l.foldl f s).mem = s.mem := by
  induction l generalizing s with
  | nil => rfl
  | cons x l ih => exact (ih _).trans (hf s x)

@[simp] theorem State.foldl_canon {α : Type} {f : State → α → State} (hf : ∀ s x, s.mem.Canon → (f s x).mem.Canon) (l : List α) {s : State}
    (h : s.mem.Canon) : (l.foldl f s).mem.Canon := by
  induction l generalizing s with
  | nil => exact h
  | cons x l ih => exact ih (hf s x h)

/-- An outcome keeps the canonical form: where it is a next state, that state's memory is canonical. -/
def Out.Canon (o : Out) : Prop := ∀ t, o = .next t → t.mem.Canon

theorem Out.canon_next {s : State} (h : s.mem.Canon) : Out.Canon (.next s) := fun _ e => Host.Outcome.next.inj e ▸ h

@[simp] theorem Out.canon_next_iff {s : State} : Out.Canon (.next s) ↔ s.mem.Canon := ⟨fun h => h s rfl, Out.canon_next⟩

@[simp] theorem Out.canon_ite_iff {c : Prop} [Decidable c] {a b : Out} : (if c then a else b).Canon ↔ if c then a.Canon else b.Canon := by
  split <;> rfl

theorem Out.canon_ite {c : Prop} [Decidable c] {a b : Out} (ha : a.Canon) (hb : b.Canon) : (if c then a else b).Canon := by
  split <;> assumption

/-- Every action of a list keeps the canonical form. -/
def Acts.Keep (l : List (State → State)) : Prop := ∀ g ∈ l, ∀ s : State, s.mem.Canon → (g s).mem.Canon

@[simp] theorem Acts.keep_nil : Acts.Keep [] := fun _ h => absurd h List.not_mem_nil

@[simp] theorem Acts.keep_cons {g : State → State} {l : List (State → State)} :
    Acts.Keep (g :: l) ↔ (∀ s : State, s.mem.Canon → (g s).mem.Canon) ∧ Acts.Keep l := List.forall_mem_cons

@[simp] theorem Acts.keep_append {l k : List (State → State)} : Acts.Keep (l ++ k) ↔ Acts.Keep l ∧ Acts.Keep k := List.forall_mem_append

@[simp] theorem Acts.keep_ite {c : Prop} [Decidable c] {l k : List (State → State)} :
    Acts.Keep (if c then l else k) ↔ if c then Acts.Keep l else Acts.Keep k := by split <;> rfl

@[simp] theorem Acts.keep_map {α : Type} {f : α → State → State} {l : List α} :
    Acts.Keep (l.map f) ↔ ∀ x ∈ l, ∀ s : State, s.mem.Canon → (f x s).mem.Canon := List.forall_mem_map

@[simp] theorem Acts.keep_flatMap {α : Type} {f : α → List (State → State)} {l : List α} :
    Acts.Keep (l.flatMap f) ↔ ∀ x ∈ l, Acts.Keep (f x) := List.forall_mem_flatMap

/-! ### The named operations of the state, operands and the page walk (R46 to R57, R97 to R101, R218 to R226) -/

@[simp] theorem State.retG_mem (s : State) (d : Dst) (lam : Nat) (w : Word) : (s.retG d lam w).mem = s.mem := by simp [State.retG, State.result_mem]

@[simp] theorem State.retQ_mem (s : State) (d : Dst) (b : Bool) : (s.retQ d b).mem = s.mem := by simp [State.retQ, State.result_mem]

@[simp] theorem State.retK_mem (s : State) (d : Dst) (w : Word) : (s.retK d w).mem = s.mem := by simp [State.retK, State.result_mem]

@[simp] theorem State.retV_mem (s : State) (d : Dst) (lam : Nat) (x : VReg) : (s.retV d lam x).mem = s.mem := by simp [State.retV, State.result_mem]

@[simp] theorem State.preemptCtx_mem (s : State) (n : Nat) : (s.preemptCtx n).mem = s.mem := by rfl

@[simp] theorem State.dropColls_mem (s : State) (n : Nat) : (s.dropColls n).mem = s.mem := by rfl

@[simp] theorem State.enterError_mem (s : State) (n cause : Nat) : (s.enterError n cause).mem = s.mem := by rfl

@[simp] theorem State.ctxError_mem (s : State) (n cause : Nat) : (s.ctxError n cause).mem = s.mem := by
  fun_cases State.ctxError <;> simp

@[simp] theorem State.moduleError_mem (s : State) (cause : Nat) : (s.moduleError cause).mem = s.mem :=
  State.foldl_mem (fun t n => t.ctxError_mem n cause) _ _

@[simp] theorem State.breakFor_mem (s : State) (core slot kernel : Nat) : (s.breakFor core slot kernel).mem = s.mem := by rfl

@[simp] theorem State.fatal_mem (s : State) (core slot cause : Nat) : (s.fatal core slot cause).mem = s.mem := by
  simp [State.fatal, apply_ite State.mem]

@[simp] theorem State.raise_mem (s : State) (cause : Nat) (tval : Word) : (s.raise cause tval).mem = s.mem := by
  simp [State.raise, apply_ite State.mem]

@[simp] theorem State.takeTrap_mem (s : State) (core slot kind : Nat) (isLate : Bool) (cause : Nat) (tval : Word) (mask : Nat) (ipc : Word) :
    (s.takeTrap core slot kind isLate cause tval mask ipc).mem = s.mem := by
  unfold State.takeTrap
  dsimp only
  split <;> simp [State.trapped_mem]

@[simp] theorem State.freshId_mem (s : State) : (s.freshId).2.mem = s.mem := by rfl

@[simp] theorem State.collDeliver_mem (s : State) (m : CollMsg) : (s.collDeliver m).mem = s.mem := by rfl

@[simp] theorem State.command_canon {s : State} (hs : s.mem.Canon) {o : Out} (ho : o.Canon) : (s.command o).Canon :=
  Out.canon_ite (Out.canon_next hs) ho

@[simp] theorem State.cacheLeaf_mem (s : State) (ia : Nat) : (s.cacheLeaf ia).mem = s.mem := by
  unfold State.cacheLeaf
  split <;> rfl

@[simp] theorem State.uncache_mem (s : State) (lo hi : Nat) : (s.uncache lo hi).mem = s.mem := by rfl

/-! ### Writes of virtual addresses, fault records, leaves and discards (R89, R98, R104, R110 to R116, R119) -/

@[simp] theorem State.sendOn_mem (s : State) (u : Unacked) : (s.sendOn u).mem = s.mem := by simp [State.sendOn, apply_ite State.mem]

@[simp] theorem State.sendPkt_mem (s : State) (x : Sender) (p : Packet) : (s.sendPkt x p).mem = s.mem := by simp [State.sendPkt]

@[simp] theorem State.sendTo_mem (s : State) (x : Sender) (m : Nat) (op : PktOp) (ia len : Nat) (data : List Byte) :
    (s.sendTo x m op ia len data).mem = s.mem := by
  simp [State.sendTo]

@[simp] theorem State.writeRec_canon {s : State} (hs : s.mem.Canon) (n gen : Nat) (bytes : List Byte) : (s.writeRec n gen bytes).1.mem.Canon := by
  fun_cases State.writeRec <;> grind [!. State.freshId_mem, !. State.setCtxAt_mem, !. State.sendTo_mem, Mem.canon_wrAll]

@[simp] theorem State.writeRecs_canon {s : State} (hs : s.mem.Canon) (n k : Nat) : (s.writeRecs n k).mem.Canon := by
  fun_induction State.writeRecs s n k <;> grind [!. State.writeRec_canon, !. State.setCtxAt_mem]

@[simp] theorem State.recAcked_canon {s : State} (hs : s.mem.Canon) (n : Nat) (ok : Bool) : (s.recAcked n ok).mem.Canon := by
  fun_cases State.recAcked
  grind [!. State.setCtxAt_mem, !. State.writeRecs_canon]

@[simp] theorem State.record_canon {s : State} (hs : s.mem.Canon) (n : Nat) (r : RecInfo) : (s.record n r).mem.Canon := by
  fun_cases State.record
  grind [!. State.setCtxAt_mem, !. State.writeRecs_canon]

@[simp] theorem State.demote_mem (s : State) (u : UnitId) (ctx : Nat) (ls : List ByteLook) : (s.demote u ctx ls).mem = s.mem := by
  fun_cases State.demote <;> simp [State.onTask_mem]

@[simp] theorem State.recordFaults_canon {s : State} (hs : s.mem.Canon) (ctx : Nat) (u : UnitId) (ls : List ByteLook) (va : Word) (a : Acc)
    (held : Bool) (slog n : Nat) (base : Nat) : (s.recordFaults ctx u ls va a held slog n base).mem.Canon := by
  simp +contextual [State.recordFaults, hs]

@[simp] theorem State.sendReads_mem (s : State) (h : Held) (va : Word) (ls : List ByteLook) (miss : List (Nat × Nat × Nat)) :
    (s.sendReads h va ls miss).mem = s.mem := by
  simp [State.sendReads]

@[simp] theorem State.logSide_mem (s : State) (u : UnitId) (e : SideEnt) : (s.logSide u e).mem = s.mem := by rfl

@[simp] theorem State.kick_mem (s : State) (before : State) (src : Nat) (u : Nat × Nat) (ias : List Nat) : (s.kick before src u ias).mem = s.mem := by
  simp [State.kick, apply_ite State.mem]

@[simp] theorem State.numbered_mem (s : State) (k : Nat) : (s.numbered k).mem = s.mem := by rfl

@[simp] theorem State.toBar_mem (s : State) (u : UnitId) (k o : Nat) (data : List Byte) : (s.toBar u k o data).mem = s.mem := by rfl

@[simp] theorem State.writeRun_canon {s : State} (hs : s.mem.Canon) (ctx : Nat) (u : UnitId) (va : Word) (bs : List Byte) (bad : List Nat)
    (rel : Bool)
    (k : Nat) (r : WRun) : (s.writeRun ctx u va bs bad rel k r).1.mem.Canon := by
  unfold State.writeRun
  dsimp only
  split <;> simp [hs]

@[simp] theorem State.writeLooks_canon {s : State} (hs : s.mem.Canon) (ctx : Nat) (u : UnitId) (va : Word) (bs : List Byte) (devOk rel : Bool)
    (k : Nat)
    (ls : List ByteLook) (bad : List Nat) : (s.writeLooks ctx u va bs devOk rel k ls bad).1.mem.Canon := by
  unfold State.writeLooks
  refine List.foldlRecOn (motive := fun acc : State × List Report × List Nat => acc.1.mem.Canon) _ _ (by simp [hs]) fun acc hacc r _ => ?_
  have hrun := State.writeRun_canon hacc ctx u va bs bad rel k r
  dsimp only
  split
  · split
    · exact hacc
    · split <;> exact hrun
  · exact hrun

@[simp] theorem State.writeVA_canon {s : State} (hs : s.mem.Canon) (ctx : Nat) (u : UnitId) (va : Word) (bs : List Byte) (devOk rel : Bool)
    (bad : List Nat) : (s.writeVA ctx u va bs devOk rel bad).1.mem.Canon := by
  simp [State.writeVA, hs]

@[simp] theorem State.reportTo_mem (s : State) (core slot : Nat) (rs : List Report) : (s.reportTo core slot rs).mem = s.mem := by
  unfold State.reportTo
  split <;> rfl

@[simp] theorem State.reportTask_mem (s : State) (core slot kernel : Nat) (r : Report) : (s.reportTask core slot kernel r).mem = s.mem := by
  simp [State.reportTask, State.onTask_mem]

@[simp] theorem State.atomicDone_canon {s : State} (hs : s.mem.Canon) {m : Mem} (hm : m.Canon) (op : Nat) (ls : List Loc) (ops : List Word)
    (src : Nat)
    (u : Nat × Nat) (ias : List Nat) : (s.atomicDone (m.atomic op ls ops).2 src u ias).mem.Canon := by
  unfold State.atomicDone
  split
  · next m' h => simpa using Mem.canon_atomic hm h
  · exact hs

@[simp] theorem State.swapLeaf_canon {s : State} (hs : s.mem.Canon) (e new : Word) (at_ ia : Nat) : (s.swapLeaf e new at_ ia).1.mem.Canon := by
  unfold State.swapLeaf
  dsimp only
  split
  · rw [State.uncache_mem]
    exact Mem.canon_foldl (fun m a hm => Mem.canon_wrAll hm _) _ hs
  · simp [hs]

@[simp] theorem State.discard_canon {s : State} (hs : s.mem.Canon) (p : WholePage) : (s.discard p).mem.Canon := by
  unfold State.discard
  split <;> simp [hs]

@[simp] theorem State.discardRange_canon {s : State} (hs : s.mem.Canon) (ia n : Nat) : (s.discardRange ia n).mem.Canon := by
  simp +contextual [State.discardRange, hs]

@[simp] theorem State.discardFor_canon {s : State} (hs : s.mem.Canon) (u : UnitId) (ctx : Nat) (va : Word) (id ia n : Nat) :
    (s.discardFor u ctx va id ia n).mem.Canon := by
  simp +contextual [State.discardFor, hs, apply_ite State.mem]

/-! ### Accesses with a result (R106, R111, R271, R277) -/

@[simp] theorem State.performRemop_canon {s : State} (hs : s.mem.Canon) (find : Finder) (got : Tab Byte) (b : RemopBlk) (t node : Nat) :
    (s.performRemop find got b t node).1.mem.Canon := by
  have hwords (ls : List Loc) (ws : List Word) (ks : List Nat) :
      (ks.foldl (fun m k => m.setWord ((ls.drop (8 * k)).take 8) (ws.getD k 0)) s.mem).Canon := Mem.canon_foldl (fun m k hm => by simp [hm]) ks hs
  have hset {m : Mem} (hm : m.Canon) (ls ks : List Loc) (w x : Word) : ((m.setWord ls w).setWord ks x).Canon := by simp [hm]
  fun_cases State.performRemop <;> simp +zetaDelta only [hs, hwords, hset, Mem.canon_setWord, Mem.canon_ite, ite_self]

@[simp] theorem State.remopDone_mem (s : State) (before : State) (u : UnitId) (ctx src : Nat) (from_ : Nat × Nat) (out : List
    (Nat × Nat × Word × Option Nat)) (ias : List Nat) : (s.remopDone before u ctx src from_ out ias).mem = s.mem := by
  simp [State.remopDone]

@[simp] theorem State.serveRead_canon {s : State} (hs : s.mem.Canon) (h : Held) (va : Word) (n : Nat) (a : Acc) (dev : Bool) (k : List Byte → VReg) :
    (s.serveRead h va n a dev k).1.mem.Canon := by
  fun_cases State.serveRead <;> simp +zetaDelta [*]

@[simp] theorem State.serveLanes_canon {s : State} (hs : s.mem.Canon) (h : Held) (n stride : Nat) (lanes : List Word) (k : List
    (List Byte) → Served) :
    (s.serveLanes h n stride lanes k).1.mem.Canon := by
  have hlane (t : State) (x : Word × List ByteLook × RdRes) (ht : t.mem.Canon) :
      (match x.2.2 with
        | .fault _ => (t.demote h.unit h.ctx x.2.1).recordFaults h.ctx h.unit x.2.1 x.1 .read true 0 n ((x.2.1.headD ⟨0, .wait 0, 0, 0⟩).off)
        | _ => t.demote h.unit h.ctx x.2.1).mem.Canon := by split <;> simp [ht]
  fun_cases State.serveLanes
  case case5 => exact State.foldl_canon (fun t x ht => by simp [ht]) _ (State.foldl_canon hlane _ hs)
  all_goals exact State.foldl_canon hlane _ hs

@[simp] theorem State.serveGather_canon {s : State} (hs : s.mem.Canon) (h : Held) (w : Nat) (zx : Bool) (lanes : List Word) :
    (s.serveGather h w zx lanes).1.mem.Canon := by
  simp [State.serveGather, hs]

@[simp] theorem State.serveAtomic_canon {s : State} (hs : s.mem.Canon) (h : Held) (op : Nat) (va : Word) (n : Nat) (ops : List Word) :
    (s.serveAtomic h op va n ops).1.mem.Canon := by
  fun_cases State.serveAtomic <;> simp +zetaDelta [*]

@[simp] theorem State.reportUnits_mem (s : State) (u : UnitId) (rs : List Report) : (s.reportUnits u rs).mem = s.mem := by
  unfold State.reportUnits
  split <;> simp

@[simp] theorem State.remopFaults_canon {s : State} (hs : s.mem.Canon) (h : Held) (b : RemopBlk) (va : Word) (ia nia c st fia : Nat) :
    (s.remopFaults h b va ia nia c st fia).mem.Canon := by
  simp [State.remopFaults, hs, apply_ite State.mem]

@[simp] theorem State.serveRemopBlk_canon {s : State} (hs : s.mem.Canon) (h : Held) (va gv : Word) (bs : List Byte) :
    (s.serveRemopBlk h va gv bs).1.mem.Canon := by
  fun_cases State.serveRemopBlk <;> grind [!. State.demote_mem, !. State.performRemop_canon, !. State.remopDone_mem, !. State.remopFaults_canon,
    !. State.reportUnits_mem, !. State.sendTo_mem, !. State.writeVA_canon]

@[simp] theorem State.serveRemop_canon {s : State} (hs : s.mem.Canon) (h : Held) (va gv : Word) : (s.serveRemop h va gv).1.mem.Canon := by
  fun_cases State.serveRemop <;> grind [!. State.serveRead_canon, !. State.serveRemopBlk_canon]

@[simp] theorem State.serveFetch_canon {s : State} (hs : s.mem.Canon) (h : Held) (va : Word) : (s.serveFetch h va).1.mem.Canon := by
  unfold State.serveFetch
  dsimp only
  split <;> simp [hs]

@[simp] theorem State.serveStore_canon {s : State} (hs : s.mem.Canon) (h : Held) (va : Word) (bs : List Byte) (dev rel : Bool) :
    (s.serveStore h va bs dev rel).1.mem.Canon := by
  unfold State.serveStore
  dsimp only
  split <;> simp [hs]

@[simp] theorem State.serveDisc_canon {s : State} (hs : s.mem.Canon) (h : Held) (va : Word) : (s.serveDisc h va).1.mem.Canon := by
  unfold State.serveDisc
  split
  · exact hs
  · exact State.foldl_canon (fun t p ht => by dsimp only; split <;> simp [ht]) _ hs

@[simp] theorem State.serveDoneAdd_canon {s : State} (hs : s.mem.Canon) (h : Held) (va : Word) : (s.serveDoneAdd h va).1.mem.Canon := by
  fun_cases State.serveDoneAdd <;> grind [!. State.atomicDone_canon, !. State.ctxError_mem, !. State.logSide_mem, !. State.recordFaults_canon,
    !. State.sendTo_mem]

@[simp] theorem State.serve_canon {s : State} (hs : s.mem.Canon) (h : Held) : (s.serve h).1.mem.Canon := by
  fun_cases State.serve <;> simp [hs]

@[simp] theorem State.newHeld_mem (s : State) (req : MemReq) : (s.newHeld req).2.mem = s.mem := by rfl

@[simp] theorem State.issue_canon {s : State} (hs : s.mem.Canon) (h : Held) : (s.issue h).1.mem.Canon := by
  unfold State.issue
  split <;> simp [hs]

@[simp] theorem State.hold_mem (s : State) (h : Held) : (s.hold h).mem = s.mem := by rfl

@[simp] theorem State.request_canon {s : State} (hs : s.mem.Canon) (dest : RDest) (lam cls : Nat) (req : MemReq) (acq rel : Bool) :
    (s.request dest lam cls req acq rel).mem.Canon := by
  fun_cases State.request <;> grind [!. State.deposit_mem, !. State.hold_mem, !. State.issueTo_mem, !. State.issue_canon, !. State.newHeld_mem,
    !. State.raise_mem]

@[simp] theorem State.storeVA_canon {s : State} (hs : s.mem.Canon) (va : Word) (bs : List Byte) (dev rel : Bool) :
    (s.storeVA va bs dev rel).mem.Canon := by
  unfold State.storeVA
  dsimp only
  split <;> simp [hs]

@[simp] theorem State.dropHoists_mem (s : State) : (s.dropHoists).mem = s.mem := by rfl

/-! ### Control flow, loads, stores, atomics and noise (R32 to R36, R250 to R279) -/

@[simp] theorem State.branch_mem (s : State) (taken : Bool) (tgt : Word) : (s.branch taken tgt).mem = s.mem := by rfl

@[simp] theorem State.link_mem (s : State) : (s.link).mem = s.mem := by rfl

@[simp] theorem State.jumpTable_canon {s : State} (hs : s.mem.Canon) (i t : BitVec 6) (c : BitVec 8) (call : Bool) :
    (s.jumpTable i t c call).mem.Canon := by
  fun_cases State.jumpTable <;> grind [!. State.deposit_mem, !. State.hold_mem, !. State.issueTo_mem, !. State.issue_canon, !. State.link_mem,
    !. State.newHeld_mem, !. State.note_mem, !. State.raise_mem, !. State.setAct_mem]

@[simp] theorem State.loop_mem (s : State) (n len : Nat) : (s.loop n len).mem = s.mem := by simp [State.loop, apply_ite State.mem]

@[simp] theorem execLbrk_canon {s : State} (hs : s.mem.Canon) (q : BitVec 4) (n : BitVec 3) : (execLbrk q n s).Canon := by
  unfold execLbrk
  dsimp only
  repeat' split
  all_goals simp [hs]

@[simp] theorem State.eventHere_mem (s : State) (r : Report) : (s.eventHere r).mem = s.mem := by rfl

@[simp] theorem State.retire_mem (s : State) (core e : Nat) : (s.retire core e).mem = s.mem := by
  unfold State.retire
  dsimp only
  repeat' split
  all_goals simp [State.onTask_mem]

@[simp] theorem execWaitc_canon {s : State} (hs : s.mem.Canon) (a : BitVec 6) : (execWaitc a s).Canon := by
  unfold execWaitc
  dsimp only
  repeat' split
  all_goals simp [hs]

@[simp] theorem execWaite_canon {s : State} (hs : s.mem.Canon) (t : BitVec 3) (sc : BitVec 3) (a b : BitVec 6) : (execWaite t sc a b s).Canon := by
  fun_cases execWaite <;> grind [Out.canon_next, !. State.dropHoists_mem, !. State.hold_mem, !. State.issueTo_mem, !. State.issue_canon,
    !. State.newHeld_mem, !. State.raise_mem, !. State.setAct_mem]

@[simp] theorem execEndTask_canon {s : State} (hs : s.mem.Canon) : (execEndTask s).Canon := by
  fun_cases execEndTask <;> simp [hs]

@[simp] theorem execTrapi_canon {s : State} (hs : s.mem.Canon) (i : BitVec 6) : (execTrapi i s).Canon := by simp [execTrapi, hs]

@[simp] theorem execEret_canon {s : State} (hs : s.mem.Canon) : (execEret s).Canon := by simp [execEret, hs]

@[simp] theorem execFence_canon {s : State} (hs : s.mem.Canon) (_sc : BitVec 3) : (execFence _sc s).Canon := by simp [execFence, hs]

@[simp] theorem State.acquired_mem (s : State) : (s.acquired).mem = s.mem := by
  unfold State.acquired
  split <;> rfl

@[simp] theorem State.sramWrite_mem (s : State) (a : Nat) (bs : List Byte) : (s.sramWrite a bs).mem = s.mem := by rfl

@[simp] theorem State.noteSram_mem (s : State) (a n : Nat) : (s.noteSram a n).mem = s.mem := by
  unfold State.noteSram
  dsimp only
  split <;> simp

@[simp] theorem State.load_canon {s : State} (hs : s.mem.Canon) (d : BitVec 6) (va : Word) (n cls : Nat) (zx : Bool) (lam : Nat) (acq : Bool) :
    (s.load d va n cls zx lam acq).mem.Canon := by
  simp [State.load, hs, State.note_mem, apply_ite State.mem]

@[simp] theorem State.store_canon {s : State} (hs : s.mem.Canon) (d : BitVec 6) (va : Word) (n cls : Nat) (rel : Bool) :
    (s.store d va n cls rel).mem.Canon := by
  simp [State.store, hs, State.note_mem, apply_ite State.mem]

@[simp] theorem State.loadM_canon {s : State} (hs : s.mem.Canon) (d b : BitVec 6) (k : BitVec 4) (off : BitVec 17) (n : Nat) :
    (s.loadM d b k off n).mem.Canon := by
  simp [State.loadM, hs]

@[simp] theorem State.storeM_canon {s : State} (hs : s.mem.Canon) (d b : BitVec 6) (k : BitVec 4) (off : BitVec 17) (n : Nat) :
    (s.storeM d b k off n).mem.Canon := by
  simp [State.storeM, hs]

@[simp] theorem execLdAcq_canon {s : State} (hs : s.mem.Canon) (d b : BitVec 6) (k : BitVec 4) (_sc : BitVec 3) (z : BitVec 2) (zx : Bool) :
    (execLdAcq d b k _sc z zx s).Canon := by
  simp [execLdAcq, hs]

@[simp] theorem execStRel_canon {s : State} (hs : s.mem.Canon) (d b : BitVec 6) (k : BitVec 4) (_sc : BitVec 3) (z : BitVec 2) :
    (execStRel d b k _sc z s).Canon := by
  simp [execStRel, hs]

@[simp] theorem execLdh_canon {s : State} (hs : s.mem.Canon) (d b : BitVec 6) (k : BitVec 4) (e : BitVec 5) (z : BitVec 2) (zx : Bool) :
    (execLdh d b k e z zx s).Canon := by
  unfold execLdh
  dsimp only
  repeat' split
  all_goals simp [hs, State.note_mem]

@[simp] theorem execChkh_canon {s : State} (hs : s.mem.Canon) (d b : BitVec 6) (k : BitVec 4) (e : BitVec 5) (z : BitVec 2) (zx : Bool) :
    (execChkh d b k e z zx s).Canon := by
  fun_cases execChkh <;> grind [Out.canon_next, !. State.deposit_mem, !. State.issueTo_mem, !. State.load_canon, !. State.setTask_mem]

@[simp] theorem State.atom_canon {s : State} (hs : s.mem.Canon) (dest : RDest) (va : Word) (n op : Nat) (ops : List Word) (o : BitVec 2) :
    (s.atom dest va n op ops o).mem.Canon := by
  simp [State.atom, hs, State.note_mem, apply_ite State.mem]

@[simp] theorem State.atom1_canon {s : State} (hs : s.mem.Canon) (op : Nat) (d b v : BitVec 6) (o : BitVec 2) (z : Bool) :
    (s.atom1 op d b v o z).mem.Canon := by
  simp [State.atom1, hs]

@[simp] theorem execAcas2_canon {s : State} (hs : s.mem.Canon) (d b v : BitVec 6) (o : BitVec 2) (_sc : BitVec 3) :
    (execAcas2 d b v o _sc s).Canon := by
  simp [execAcas2, hs]

@[simp] theorem State.noteRemop_mem (s : State) (va gv : Word) : (s.noteRemop va gv).mem = s.mem := by
  unfold State.noteRemop
  dsimp only
  repeat' split
  all_goals simp [State.note_mem]

@[simp] theorem execRemop_canon {s : State} (hs : s.mem.Canon) (d b v : BitVec 6) (o : BitVec 2) (_sc : BitVec 3) :
    (execRemop d b v o _sc s).Canon := by
  unfold execRemop
  split <;> simp [hs]

@[simp] theorem State.sendLaunch_mem (s : State) (core slot : Nat) (t : Task) (va : Word) (img : VReg) (park : Bool) (h : Held) :
    (s.sendLaunch core slot t va img park h).mem = s.mem := by rfl

@[simp] theorem State.noiseCame_mem (s : State) (core slot kernel seq : Nat) (bs : Option (List Byte)) :
    (s.noiseCame core slot kernel seq bs).mem = s.mem := by rfl

@[simp] theorem State.answerTask_mem (s : State) (core slot kernel : Nat) (h : Held) (r : Served) :
    (s.answerTask core slot kernel h r).mem = s.mem := by
  fun_cases State.answerTask <;> grind [!. State.hold_mem, !. State.noiseCame_mem, !. State.onTask_mem, !. State.sendLaunch_mem]

@[simp] theorem State.answer_mem (s : State) (h : Held) (r : Served) : (s.answer h r).mem = s.mem := by
  unfold State.answer
  split <;> simp

@[simp] theorem State.retryHeld_canon {s : State} (hs : s.mem.Canon) (h : Held) : (s.retryHeld h).mem.Canon := by
  fun_cases State.retryHeld <;> grind [!. State.answer_mem, !. State.serve_canon]

@[simp] theorem State.sourceWords_mem (s : State) (n : Nat) : (s.sourceWords n).2.mem = s.mem := by rfl

@[simp] theorem State.noiseAdvance_mem (s : State) (n : Nat) : (s.noiseAdvance n).mem = s.mem := by rfl

@[simp] theorem State.logNoise_canon {s : State} (hs : s.mem.Canon) (va : Word) (ws : List (BitVec 16)) : (s.logNoise va ws).mem.Canon := by
  simp +contextual [State.logNoise, hs]

@[simp] theorem State.draw_canon {s : State} (hs : s.mem.Canon) (n : Nat) (use : NoiseUse) : (s.draw n use).1.mem.Canon := by
  fun_cases State.draw <;> grind [!. State.issue_canon, !. State.logNoise_canon, !. State.newHeld_mem, !. State.noiseAdvance_mem, !. State.note_mem,
    !. State.raise_mem, !. State.sourceWords_mem]

@[simp] theorem State.drawn_canon {s : State} (hs : s.mem.Canon) (n : Nat) (use : NoiseUse) (d : RDest) (sup : Bool) (lam : Nat) :
    (s.drawn n use d sup lam).mem.Canon := by
  fun_cases State.drawn <;> grind [!. State.draw_canon, !. State.hold_mem, !. State.issueTo_mem, !. State.result_mem]

/-! ### The vector slots (R280 to R310) -/

@[simp] theorem State.withV_mem {s : State} {k : State → State} (hk : (k s).mem = s.mem) (ns : List Nat) : (s.withV ns k).mem = s.mem := by
  simp [State.withV, hk, apply_ite State.mem]
@[simp] theorem State.withV_canon {s : State} (hs : s.mem.Canon) {k : State → State} (hk : (k s).mem.Canon) (ns : List Nat) :
    (s.withV ns k).mem.Canon := by
  unfold State.withV
  split
  · exact hk
  · simp [hs]

@[simp] theorem State.retEls_mem (s : State) (d : Dst) (lam w : Nat) (xs : List Int) : (s.retEls d lam w xs).mem = s.mem := by simp [State.retEls]

@[simp] theorem State.retAll_mem (s : State) (d : Dst) (lam : Nat) (x : Int) : (s.retAll d lam x).mem = s.mem := by simp [State.retAll]

@[simp] theorem State.vMap3_mem (s : State) (t : BitVec 2) (d : Dst) (a b : Src) (lam : Nat) (f : Nat → Int → Int → Int → Int) :
    (s.vMap3 t d a b lam f).mem = s.mem := by
  simp [State.vMap3]

@[simp] theorem State.vMap2_mem (s : State) (t : BitVec 2) (d : Dst) (a b : Src) (lam : Nat) (f : Nat → Int → Int → Int) :
    (s.vMap2 t d a b lam f).mem = s.mem := by
  simp [State.vMap2]

@[simp] theorem State.vMap1_mem (s : State) (t : BitVec 2) (d : Dst) (a : Src) (lam : Nat) (f : Nat → Int → Int) :
    (s.vMap1 t d a lam f).mem = s.mem := by
  simp [State.vMap1]

@[simp] theorem State.vRed_mem (s : State) (t : BitVec 2) (d : Dst) (a : Src) (f : Nat → List Int → Int) : (s.vRed t d a f).mem = s.mem := by
  simp [State.vRed]

@[simp] theorem State.vBits_mem (s : State) (d : Dst) (a b : Src) (f : VReg → VReg → VReg) : (s.vBits d a b f).mem = s.mem := by simp [State.vBits]

@[simp] theorem State.kOp_mem (s : State) (d : Dst) (a b : Src) (f : Word → Word → Word) : (s.kOp d a b f).mem = s.mem := by simp [State.kOp]

@[simp] theorem State.vScan_mem (s : State) (t : BitVec 2) (d : Dst) (a : Src) (ex : Bool) : (s.vScan t d a ex).mem = s.mem := by simp [State.vScan]

@[simp] theorem execVbcastV_canon {s : State} (hs : s.mem.Canon) (t : BitVec 2) (d : Dst) (a b : Src) : (execVbcastV t d a b s).Canon := by
  fun_cases execVbcastV
  grind [Out.canon_next, !. State.raise_mem, !. State.retEls_mem, !. State.touch_mem, !. State.withV_mem]

@[simp] theorem execVextr_canon {s : State} (hs : s.mem.Canon) (t : BitVec 2) (d : Dst) (a b : Src) : (execVextr t d a b s).Canon := by
  fun_cases execVextr
  grind [Out.canon_next, !. State.raise_mem, !. State.retG_mem, !. State.touch_mem, !. State.withV_mem]

@[simp] theorem execVgath_canon {s : State} (hs : s.mem.Canon) (u : Bool) (t : BitVec 2) (d : Dst) (a b : Src) : (execVgath u t d a b s).Canon := by
  refine Out.canon_next (State.withV_canon hs ?_ _)
  dsimp only
  split
  · simp [hs]
  · exact State.foldl_canon (fun _ _ h => by simpa [State.note_mem] using h) _ (State.request_canon (by simpa using hs) ..)

@[simp] theorem execVscat_canon {s : State} (hs : s.mem.Canon) (t : BitVec 2) (d : Dst) (a b : Src) : (execVscat t d a b s).Canon := by
  refine Out.canon_next (State.withV_canon hs ?_ _)
  dsimp only
  have hstores {s : State} (hs : s.mem.Canon) (l : List (Word × List Byte)) :
      (l.foldl (fun s vx => (s.storeVA vx.1 vx.2 false false).note vx.1 (tyWidth t / 8) 0 true) s).mem.Canon :=
    State.foldl_canon (fun _ _ h => by simp [State.note_mem, h]) _ hs
  split
  · exact hstores (by simpa using hs) _
  · split <;> simp [hstores, hs]

@[simp] theorem State.flushRaw_mem (s : State) (core : Nat) : (s.flushRaw core).mem = s.mem := by rfl

@[simp] theorem execVtld_canon {s : State} (hs : s.mem.Canon) (d : BitVec 7) (b : BitVec 6) (off : BitVec 16) : (execVtld d b off s).Canon := by
  fun_cases execVtld
  grind [Out.canon_next, !. State.issueTo_mem, !. State.raise_mem, !. State.withV_mem]

@[simp] theorem execVtst_canon {s : State} (hs : s.mem.Canon) (d : BitVec 7) (b : BitVec 6) (off : BitVec 16) : (execVtst d b off s).Canon := by
  fun_cases execVtst
  grind [Out.canon_next, !. State.raise_mem, !. State.setCoreAt_mem, !. State.withV_mem]

@[simp] theorem State.overrule_mem (s : State) (i : Nat) : (s.overrule i).mem = s.mem := by rfl

@[simp] theorem State.setKcount_mem (s : State) (q n : Nat) : (s.setKcount q n).mem = s.mem := by rfl

@[simp] theorem execVdefer_canon {s : State} (hs : s.mem.Canon) (c : BitVec 3) (q : BitVec 2) (w : Bool) (a b : Src) :
    (execVdefer c q w a b s).Canon := by
  unfold execVdefer
  extract_lets t ns cnt k p s1 vs lanes s2
  refine Out.canon_ite (Out.canon_next (by simp [hs])) (Out.canon_ite (Out.canon_next (by simp [hs])) (Out.canon_next ?_))
  rw [State.setKcount_mem]
  exact State.foldl_canon (fun t x ht => by simp [State.note_mem, ht]) _ (by simpa [s1] using hs)

@[simp] theorem execVdrain_canon {s : State} (hs : s.mem.Canon) (c : BitVec 3) (q : BitVec 2) (d : Dst) (k : BitVec 3) :
    (execVdrain c q d k s).Canon := by
  unfold execVdrain
  extract_lets t ns cnt m lanes dests results
  refine Out.canon_ite (Out.canon_next (by simp [hs])) ?_
  have hresults (s : State) (v : RVal) (hs : s.mem.Canon) : (results s v).mem.Canon := by
    rw [State.foldl_mem fun t x => t.issueTo_mem x 32 v]
    simpa [State.note_mem] using hs
  have hi := State.issue_canon (s := (s.newHeld (.drain lanes)).2) (by simpa using hs) (s.newHeld (.drain lanes)).1
  dsimp only
  split <;> rename_i heq <;> rw [heq] at hi
  · exact Out.canon_next (by simpa using hresults _ _ hi)
  · exact Out.canon_next (by simpa using hi)
  · exact Out.canon_next (by simpa using hresults _ _ hi)
  · exact Out.canon_next (by simpa using hresults _ _ hi)
  · exact Out.canon_next hi

@[simp] theorem State.vRoutine_mem (s : State) (d : Dst) (a b : Src) (lam : Nat) (f : Int → Nat → Int) : (s.vRoutine d a b lam f).mem = s.mem := by
  simp [State.vRoutine]

/-! ### Tile instructions and tile tasks (R180, R311 to R340) -/

@[simp] theorem State.whenFree_canon {s : State} (hs : s.mem.Canon) {k : State → State} (hk : (k s).mem.Canon) (rw : List Nat × List Nat) :
    (s.whenFree rw k).mem.Canon := by
  unfold State.whenFree
  dsimp only
  split
  · exact hs
  · exact hk

@[simp] theorem State.post_canon {s : State} (hs : s.mem.Canon) {k : State → Nat → Nat → State} (hk : ∀ t e tag, t.mem.Canon → (k t e tag).mem.Canon)
    (ins : Instr) (ops desc : List Word) (words total : Nat) (promise : Word) : (s.post ins ops desc words total promise k).mem.Canon := by
  unfold State.post
  extract_lets c
  split
  · exact hs
  · extract_lets go
    have hgo (t : State) (ws : List (BitVec 16)) (hold : Option Nat) (ht : t.mem.Canon) : (go t ws hold).mem.Canon := hk _ _ _ (by simpa using ht)
    have hd : (if words = 0 then (s, Drawn.words []) else s.draw words (.post c.depSeq)).1.mem.Canon := by split <;> simp [hs]
    split <;> rename_i hp <;> rw [hp] at hd
    · exact hd
    · simpa using hd
    · exact hgo _ _ _ hd
    · exact hgo _ _ _ (by simpa using hd)

@[simp] theorem State.postTile_canon {s : State} (hs : s.mem.Canon) (checks : List (Bool × Nat × Word)) (ins : Instr) (ops : List Word)
    (words : Nat) : (s.postTile checks ins ops words).mem.Canon := by
  unfold State.postTile
  split <;> simp [hs]

@[simp] theorem execTdset_canon {s : State} (hs : s.mem.Canon) (x y : BitVec 6) : (execTdset x y s).Canon := by
  refine Out.canon_next (State.whenFree_canon hs ?_ _)
  dsimp only
  repeat' split
  all_goals simp [hs]

@[simp] theorem execTscl_canon {s : State} (hs : s.mem.Canon) (x y : BitVec 6) : (execTscl x y s).Canon :=
  Out.canon_next (State.whenFree_canon hs (by simp [hs]) _)

@[simp] theorem execTsclZ_canon {s : State} (hs : s.mem.Canon) (x : BitVec 5) (y : BitVec 6) : (execTsclZ x y s).Canon := by
  refine Out.canon_next ?_
  dsimp only
  split
  · simp [hs]
  · exact State.whenFree_canon hs (by simp [hs]) _

@[simp] theorem execDset_canon {s : State} (hs : s.mem.Canon) (x y : BitVec 6) (k : BitVec 3) : (execDset x y k s).Canon :=
  Out.canon_next (State.whenFree_canon hs (by simp [hs]) _)

@[simp] theorem State.twait_mem (s : State) (zs all : Bool) (reg : Nat) (y : BitVec 6) : (s.twait zs all reg y).mem = s.mem := by
  fun_cases State.twait <;> simp +zetaDelta [*]

@[simp] theorem State.laneOpt_canon {s : State} (hs : s.mem.Canon) (form : Nat) (a : Nat) (vs : List Nat) (d : Dst) (b : Src) (k : Nat) :
    (s.laneOpt form a vs d b k).mem.Canon := by
  unfold State.laneOpt
  split <;> simp [hs]

@[simp] theorem State.setDep_mem (s : State) (core e : Nat) (d : Dep) : (s.setDep core e d).mem = s.mem := by rfl

@[simp] theorem State.settleWaits_mem (s : State) (core : Nat) : (s.settleWaits core).mem = s.mem := by
  refine State.foldl_mem (fun t slot => ?_) _ _
  extract_lets x c go settle
  have hsettle (w : List (Nat × Dep)) : (settle w).mem = t.mem := by
    dsimp only [settle]
    split
    · simp
    · split <;> rfl
  split
  · exact hsettle _
  · exact hsettle _
  · rfl

@[simp] theorem State.retireDep_mem (s : State) (core e : Nat) : (s.retireDep core e).mem = s.mem := by
  simp [State.retireDep]

@[simp] theorem State.eventTask_mem (s : State) (core slot : Nat) (r : Report) : (s.eventTask core slot r).mem = s.mem := by rfl

@[simp] theorem execTileTaskStart_canon {s : State} (hs : s.mem.Canon) (core e : Nat) : (execTileTaskStart core e s).Canon := by
  fun_cases execTileTaskStart <;> simp +zetaDelta [*]

@[simp] theorem execTileTaskComplete_canon {s : State} (hs : s.mem.Canon) (core e : Nat) : (execTileTaskComplete core e s).Canon := by
  unfold execTileTaskComplete
  dsimp only
  repeat' split
  all_goals simp [hs]

/-! ### The copy engine (R137 to R140, R259, R341 to R347) -/

@[simp] theorem State.postCopy_canon {s : State} (hs : s.mem.Canon) (checks : List (Bool × Nat × Word)) (ins : Instr) (ops desc : List Word)
    (n z : Nat) (first : Option (Word × Nat)) : (s.postCopy checks ins ops desc n z first).mem.Canon := by
  fun_cases State.postCopy <;> grind [!. State.deposit_mem, !. State.issueTo_mem, !. State.post_canon, !. State.raise_mem]

@[simp] theorem State.tcpy_canon {s : State} (hs : s.mem.Canon) (ins : Instr) (x y z : BitVec 6) (st dt : Bool) :
    (s.tcpy ins x y z st dt).mem.Canon := by
  simp [State.tcpy, hs]

@[simp] theorem State.holdCopy_mem (s : State) (core e : Nat) (d : Dep) (va : Word) (n : Nat) (why : HoldWhy) (ia : Nat) :
    (s.holdCopy core e d va n why ia).2.mem = s.mem := by rfl

@[simp] theorem State.burstRead_canon {s : State} (hs : s.mem.Canon) (core e : Nat) (d : Dep) (va : Word) (n : Nat) (dec : Bool) :
    (s.burstRead core e d va n dec).1.mem.Canon := by
  fun_cases State.burstRead <;> grind [!. State.holdCopy_mem, !. State.recordFaults_canon, !. State.sendReads_mem]

@[simp] theorem State.burstWrite_canon {s : State} (hs : s.mem.Canon) (core e : Nat) (d : Dep) (dst : CEnd) (bs : List (Byte × Bool)) :
    (s.burstWrite core e d dst bs).1.mem.Canon := by
  unfold State.burstWrite
  split <;> simp [hs]

@[simp] theorem State.dropCensus_mem (s : State) (core : Nat) (d : Dep) (decoded : Bool) : (s.dropCensus core d decoded).mem = s.mem := by
  unfold State.dropCensus
  dsimp only
  repeat' split
  all_goals simp

@[simp] theorem State.failCopy_mem (s : State) (core e cause : Nat) (tv : Word) : (s.failCopy core e cause tv).mem = s.mem := by
  unfold State.failCopy
  split
  · rfl
  · simp

@[simp] theorem State.stopCopy_mem (s : State) (core e : Nat) (d : Dep) (cause : Nat) (tv : Word) : (s.stopCopy core e d cause tv).mem = s.mem := by
  unfold State.stopCopy
  split <;> simp

@[simp] theorem State.endCopy_mem (s : State) (core e : Nat) (d : Dep) : (s.endCopy core e d).mem = s.mem := by
  unfold State.endCopy
  dsimp only
  rw [State.retireDep_mem]
  split <;> simp

@[simp] theorem State.runTxps_mem (s : State) (core e : Nat) (d : Dep) (x y : Nat) : (s.runTxps core e d x y).mem = s.mem := by
  unfold State.runTxps
  dsimp only
  split <;> simp

@[simp] theorem State.partTile_mem (s : State) (core : Nat) (td : TDesc) (syms : List Byte) : (s.partTile core td syms).mem = s.mem := by rfl

@[simp] theorem State.runTcpyd_mem (s : State) (core e : Nat) (d : Dep) (x : Nat) : (s.runTcpyd core e d x).mem = s.mem := by
  fun_cases State.runTcpyd <;> simp

@[simp] theorem State.burstGot_canon {p : State × BurstRes} (hp : p.1.mem.Canon) (core e : Nat) (d : Dep) : (State.burstGot core e d p).mem.Canon :=
  by
  unfold State.burstGot
  split <;> simpa using hp

@[simp] theorem State.moveCopy_canon {s : State} (hs : s.mem.Canon) (core e : Nat) (d : Dep) : (s.moveCopy core e d).mem.Canon := by
  unfold State.moveCopy
  extract_lets t c have_ n p toMem q k
  split
  · split
    · exact hs
    · have hw := State.burstWrite_canon hs core e d p.dst (d.buf.take n)
      split <;> rename_i heq <;> rw [heq] at hw
      · dsimp only
        split <;> simpa using hw
      · simpa using hw
  · exact State.burstGot_canon (by split <;> simp [hs]) ..

@[simp] theorem execCopyBurstReply_canon {s : State} (hs : s.mem.Canon) (core e : Nat) : (execCopyBurstReply core e s).Canon := by
  unfold execCopyBurstReply
  dsimp only
  repeat' split
  all_goals simp [hs]

@[simp] theorem State.releaseCopy_mem (s : State) (h : Held) : (s.releaseCopy h).mem = s.mem := by
  fun_cases State.releaseCopy <;> simp +zetaDelta [*]

@[simp] theorem execMissedPromise_canon {s : State} (hs : s.mem.Canon) (core slot : Nat) : (execMissedPromise core slot s).Canon := by
  fun_cases execMissedPromise
  grind [Out.canon_next, !. State.setTaskAt_mem]

/-! ### Launches, kernels and barriers (R151 to R169, R189 to R199) -/

@[simp] theorem State.postKernel_mem (s : State) (ctx : Nat) (r : LaunchRec) (node : Option (Nat × Nat)) :
    (s.postKernel ctx r node).mem = s.mem := by rfl

@[simp] theorem State.replyLaunch_mem (s : State) (l : LaunchReq) (posted : Bool) : (s.replyLaunch l posted).mem = s.mem := by
  simp [State.replyLaunch, State.onTask_mem]

@[simp] theorem State.refuseLaunch_mem (s : State) (l : LaunchReq) (cause : Nat) : (s.refuseLaunch l cause).mem = s.mem := by
  simp [State.refuseLaunch, State.onTask_mem]

@[simp] theorem State.postLaunch_mem (s : State) (l : LaunchReq) : (s.postLaunch l).mem = s.mem := by
  unfold State.postLaunch
  split <;> simp

@[simp] theorem State.unparkOne_mem (s : State) (level : Nat) : (s.unparkOne level).mem = s.mem := by
  unfold State.unparkOne
  split <;> simp

@[simp] theorem State.unpark_mem (s : State) (level n : Nat) : (s.unpark level n).mem = s.mem := by
  fun_induction State.unpark s level n with
  | case1 => rfl
  | case2 s n ih => simpa using ih

@[simp] theorem State.unparkAll_mem (s : State) : s.unparkAll.mem = s.mem := State.foldl_mem (fun t n => t.unpark_mem n 256) _ _

@[simp] theorem execLaunchRecordArrival_canon {s : State} (hs : s.mem.Canon) : (execLaunchRecordArrival s).Canon := by
  unfold execLaunchRecordArrival
  dsimp only
  repeat' split
  all_goals simp [hs]

@[simp] theorem State.launch_canon {s : State} (hs : s.mem.Canon) (a : BitVec 6) (d : BitVec 4) (w : Bool) : (s.launch a d w).mem.Canon := by
  fun_cases State.launch <;> grind [!. State.hold_mem, !. State.issueTo_mem, !. State.issue_canon, !. State.newHeld_mem, !. State.note_mem,
    !. State.raise_mem, !. State.sendLaunch_mem, !. State.setAct_mem]

@[simp] theorem execKernelPlacement_canon {s : State} (hs : s.mem.Canon) (k : Nat) : (execKernelPlacement k s).Canon := by
  unfold execKernelPlacement
  refine Out.canon_ite (Out.canon_next hs) ?_
  split
  · exact Out.canon_next hs
  · refine Out.canon_next ?_
    rw [State.unpark_mem]
    exact State.foldl_canon (fun t c ht => by split <;> simpa using ht) _ hs

@[simp] theorem State.doneAdd_canon {s : State} (hs : s.mem.Canon) (core slot kernel ctx : Nat) (va : Word) :
    (s.doneAdd core slot kernel ctx va).mem.Canon := by
  fun_cases State.doneAdd <;> grind [!. State.freshId_mem, !. State.hold_mem, !. State.serve_canon]

@[simp] theorem State.freeBars_mem (s : State) (k : Nat) : (s.freeBars k).mem = s.mem := by rfl

@[simp] theorem State.taskEnded_canon {s : State} (hs : s.mem.Canon) (core slot k : Nat) : (s.taskEnded core slot k).mem.Canon := by
  unfold State.taskEnded
  dsimp only
  repeat' split
  all_goals simp [hs]

@[simp] theorem execTaskEndComplete_canon {s : State} (hs : s.mem.Canon) (core slot : Nat) : (execTaskEndComplete core slot s).Canon := by
  fun_cases execTaskEndComplete <;> simp +zetaDelta [*]

@[simp] theorem State.setBarAt_mem (s : State) (home n : Nat) (b : Barrier) : (s.setBarAt home n b).mem = s.mem := by rfl

@[simp] theorem State.wakeBar_mem (s : State) (home n gen : Nat) : (s.wakeBar home n gen).mem = s.mem := by rfl

@[simp] theorem State.barFail_mem (s : State) (home cause lam : Nat) (tv : Word) : (s.barFail home cause lam tv).mem = s.mem := by
  unfold State.barFail
  split <;> simp

@[simp] theorem execBarinit_canon {s : State} (hs : s.mem.Canon) (a b : BitVec 6) (n : BitVec 9) : (execBarinit a b n s).Canon := by
  simp [execBarinit, hs]

@[simp] theorem State.arrive_mem (s : State) (home n g : Nat) (id : Option Nat) (wait : Bool) (seq : Nat) :
    (s.arrive home n g id wait seq).mem = s.mem := by rfl

@[simp] theorem execBararr_canon {s : State} (hs : s.mem.Canon) (a d : BitVec 6) (n : BitVec 9) : (execBararr a d n s).Canon := by
  simp [execBararr, hs]

@[simp] theorem execBarwait_canon {s : State} (hs : s.mem.Canon) (a b : BitVec 6) (n : BitVec 9) : (execBarwait a b n s).Canon := by
  simp [execBarwait, hs]

@[simp] theorem execBarwaitA_canon {s : State} (hs : s.mem.Canon) (a : BitVec 6) (n : BitVec 9) : (execBarwaitA a n s).Canon := by
  simp [execBarwaitA, hs]

@[simp] theorem execBarq_canon {s : State} (hs : s.mem.Canon) (a d : BitVec 6) (n : BitVec 9) : (execBarq a d n s).Canon := by simp [execBarq, hs]

@[simp] theorem State.arrivalsReach_mem (s : State) : (s.arrivalsReach).mem = s.mem := by rfl

@[simp] theorem execBarrierArrival_canon {s : State} (hs : s.mem.Canon) : (execBarrierArrival s).Canon := by
  fun_cases execBarrierArrival <;> grind [Out.canon_next, !. State.arrivalsReach_mem, !. State.onTask_mem, !. State.setBarAt_mem,
    !. State.updArriver_mem, !. State.wakeBar_mem]

@[simp] theorem execBarrierBreak_canon {s : State} (hs : s.mem.Canon) (home n : Nat) (reason : BitVec 2) :
    (execBarrierBreak home n reason s).Canon := by
  unfold execBarrierBreak
  split <;> simp [hs, State.breakBar_mem]

/-! ### The home controllers (R103, R106, R110 to R120, R129) -/

@[simp] theorem State.unitRead_canon {s : State} (hs : s.mem.Canon) (h : Held) (va : Word) (n : Nat) : (s.unitRead h va n).1.mem.Canon := by
  fun_cases State.unitRead <;> simp [hs]

@[simp] theorem State.unitServe_canon {s : State} (hs : s.mem.Canon) (h : Held) : (s.unitServe h).1.mem.Canon := by
  fun_cases State.unitServe <;> grind [!. State.serve_canon, !. State.unitRead_canon]

@[simp] theorem State.unitAccess_canon {s : State} (hs : s.mem.Canon) (u : UnitId) (ctx : Nat) (req : MemReq) (hold : Option Nat) :
    (s.unitAccess u ctx req hold).1.mem.Canon := by
  fun_cases State.unitAccess <;> grind [!. State.freshId_mem, !. State.hold_mem, !. State.unitServe_canon]

@[simp] theorem State.unhold_mem (s : State) (id : Nat) : (s.unhold id).mem = s.mem := by rfl

@[simp] theorem State.failHeld_mem (s : State) (h : Held) (cause : Nat) (tv : Word) : (s.failHeld h cause tv).mem = s.mem := by
  fun_cases State.failHeld <;> simp +zetaDelta [*]

@[simp] theorem State.retry_canon {s : State} (hs : s.mem.Canon) (h : Held) : (s.retry h).mem.Canon := by
  fun_cases State.retry <;> grind [!. State.failHeld_mem, !. State.releaseCopy_mem, !. State.retryHeld_canon, !. State.unhold_mem,
    !. State.unitServe_canon]

@[simp] theorem State.replyHeld_canon {s : State} (hs : s.mem.Canon) (id off : Nat) (data : List Byte) (ill : List Nat) (cause pstate : Nat) :
    (s.replyHeld id off data ill cause pstate).mem.Canon := by
  unfold State.replyHeld
  dsimp only
  repeat' split
  all_goals simp [hs]

@[simp] theorem execMemoryReplyArrival_canon {s : State} (hs : s.mem.Canon) (id : Nat) (data : List Byte) (cause : BitVec 9) (pstate : BitVec 3) :
    (execMemoryReplyArrival id data cause pstate s).Canon := by
  unfold execMemoryReplyArrival
  split <;> simp [hs]

@[simp] theorem State.reportUnit_canon {s : State} (hs : s.mem.Canon) (u : UnitId) (r : Report) : (s.reportUnit u r).mem.Canon := by
  fun_cases State.reportUnit <;> simp [hs]

@[simp] theorem State.dropSide_mem (s : State) (key idx : Nat) : (s.dropSide key idx).mem = s.mem := by rfl

@[simp] theorem State.failSide_canon {s : State} (hs : s.mem.Canon) (key : Nat) (e : SideEnt) (cause : Nat) (tv : Word) :
    (s.failSide key e cause tv).mem.Canon := by
  simp [State.failSide, hs, apply_ite State.mem]

@[simp] theorem State.performSide_canon {s : State} (hs : s.mem.Canon) (key : Nat) (e : SideEnt) (ls : List ByteLook) :
    (s.performSide key e ls).mem.Canon := by
  unfold State.performSide
  dsimp only
  split
  · simp [hs]
  · simp [hs]
  · split <;> simp [hs]

@[simp] theorem State.replayEnt_canon {s : State} (hs : s.mem.Canon) (key : Nat) (e : SideEnt) : (s.replayEnt key e).mem.Canon := by
  fun_cases State.replayEnt <;> simp +zetaDelta [*]

@[simp] theorem State.goesOn_canon {s : State} (hs : s.mem.Canon) (a0 : Waiting) : (s.goesOn a0).mem.Canon := by
  fun_cases State.goesOn <;> simp [hs]

@[simp] theorem State.endFences_mem (s : State) : (s.endFences).mem = s.mem := by
  unfold State.endFences
  split <;> rfl

@[simp] theorem State.writeAllRecs_canon {s : State} (hs : s.mem.Canon) : s.writeAllRecs.mem.Canon :=
  State.foldl_canon (fun t x ht => by split <;> simp [ht]) _ hs

@[simp] theorem State.sayReports_canon {s : State} (hs : s.mem.Canon) : s.sayReports.mem.Canon := by
  unfold State.sayReports
  split
  · exact hs
  · exact State.foldl_canon (fun _ _ h => State.reportUnit_canon h _ _) _ hs

@[simp] theorem State.settle_canon {s : State} (hs : s.mem.Canon) : s.settle.mem.Canon := by
  have h := State.foldl_canon (f := State.goesOn) (fun _ _ h => State.goesOn_canon h _)
    (s.waiting (fun h => h.why == .side || h.why == .migration) (·.quiet)) hs
  simp [State.settle, h]

@[simp] theorem execAccessAtHomeController_canon {s : State} (hs : s.mem.Canon) (id : Nat) : (execAccessAtHomeController id s).Canon := by
  refine Out.canon_ite (Out.canon_next ?_) (Out.canon_next ?_)
  · rw [State.endFences_mem]
    exact State.foldl_canon (fun _ _ h => State.goesOn_canon h _) _ hs
  · exact State.foldl_canon (fun _ _ h => State.goesOn_canon h _) _ hs

@[simp] theorem State.doFlush_canon {s : State} (hs : s.mem.Canon) (n : Nat) : (s.doFlush n).mem.Canon :=
  State.settle_canon (State.foldl_canon (fun _ _ h => State.goesOn_canon h _) _ hs)

@[simp] theorem execFgenFlush_canon {s : State} (hs : s.mem.Canon) (n : BitVec 4) : (execFgenFlush n s).Canon := by simp [execFgenFlush, hs]

@[simp] theorem execPtinv_canon {s : State} (hs : s.mem.Canon) (v : Word) : (execPtinv v s).Canon := by simp [execPtinv, hs]

@[simp] theorem State.afterPtinv_canon {s : State} (hs : s.mem.Canon) (n : Nat) : (s.afterPtinv n).mem.Canon := by
  unfold State.afterPtinv
  dsimp only
  split
  · exact hs
  · exact State.foldl_canon (fun _ _ h => State.doFlush_canon h _) _ hs

@[simp] theorem execPtinvComplete_canon {s : State} (hs : s.mem.Canon) : (execPtinvComplete s).Canon := by
  unfold execPtinvComplete
  split
  · exact Out.canon_next hs
  · dsimp only
    refine Out.canon_ite (Out.canon_next hs) (Out.canon_next (State.settle_canon ?_))
    exact State.foldl_canon (fun _ _ h => State.afterPtinv_canon h _) _ (by simp [hs])

@[simp] theorem execPgabort_canon {s : State} (hs : s.mem.Canon) (v : Word) : (execPgabort v s).Canon := by
  refine State.command_canon hs (Out.canon_next (State.settle_canon ?_))
  refine State.foldl_canon (fun t x ht => State.failSide_canon ht _ _ _ _) _ ?_
  refine State.foldl_canon (fun t x ht => ?_) _ hs
  dsimp only
  split <;> simp [ht]

@[simp] theorem execPgdisc_canon {s : State} (hs : s.mem.Canon) (a b : Src) : (execPgdisc a b s).Canon := by
  unfold execPgdisc
  extract_lets t base len s1
  have h1 : s1.mem.Canon := by simpa [s1] using hs
  refine Out.canon_ite (Out.canon_next h1) (Out.canon_ite (Out.canon_next (by simp [h1])) ?_)
  extract_lets
  split
  · exact Out.canon_next (by simp [h1])
  · dsimp only
    refine Out.canon_next (State.foldl_canon (fun t p ht => by simpa [State.note_mem] using ht) _ ?_)
    split <;> rename_i heq
    all_goals
      have hserve := (congrArg (fun p : State × Served => p.1.mem.Canon) heq).mp (State.serve_canon (by simpa using h1) _)
      simpa using hserve

@[simp] theorem State.prefRange_canon {s : State} (hs : s.mem.Canon) (ctx va ia0 hi : Nat) (w : Option Bool) (k ia : Nat) :
    (s.prefRange ctx va ia0 hi w k ia).mem.Canon := by
  induction k generalizing s ia with
  | zero => exact hs
  | succ k ih =>
    have hrec (t : State) (ht : t.mem.Canon) (c st : Nat) : (match w with
        | none => t
        | some write => t.record ctx ⟨t.unit, c, st, if write then .write else .read, false, true, 0, BitVec.ofNat 64 (va + (ia - ia0)),
            t.part.module, ia, 256⟩).mem.Canon := by split <;> simp [ht]
    unfold State.prefRange
    split
    · exact hs
    · split
      · exact ih hs _
      · dsimp only
        split
        · refine ih ?_ _
          have hc : (if (s.cachedAt ia).isNone then s.cacheLeaf ia else s).mem.Canon := by split <;> simp [hs]
          split
          · exact hrec _ hc _ _
          · split
            · exact hrec _ hc _ _
            · exact hc
          · exact hrec _ hc _ _
          · exact hc
        · exact ih (hrec _ hs _ _) _
        · exact ih hs _

@[simp] theorem State.prefWalk_canon {s : State} (hs : s.mem.Canon) (a b : Src) (w : Option Bool) : (s.prefWalk a b w).mem.Canon :=
  State.foldl_canon (fun t r ht => by dsimp only; split <;> simp [ht]) _ hs

/-! ### Pending traps, the save area and resumption (R169 to R179, R220 to R237) -/

@[simp] theorem State.fetch_canon {s : State} (hs : s.mem.Canon) (core slot : Nat) : (s.fetch core slot).1.mem.Canon := by
  fun_cases State.fetch <;> grind [!. State.freshId_mem, !. State.hold_mem, !. State.serveFetch_canon, !. State.setTaskAt_mem]

@[simp] theorem State.preempted_mem (s : State) (core slot : Nat) (calm : Bool) (ok : Task → Bool) : (s.preempted core slot calm ok).mem = s.mem := by
  unfold State.preempted
  split <;> rfl

@[simp] theorem execPreemptionLanding_canon {s : State} (hs : s.mem.Canon) (core slot : Nat) : (execPreemptionLanding core slot s).Canon :=
  Out.canon_next (by simp [hs])

@[simp] theorem execPreemptionForced_canon {s : State} (hs : s.mem.Canon) (core slot : Nat) : (execPreemptionForced core slot s).Canon :=
  Out.canon_next (by simp [hs])

@[simp] theorem State.raiseJump_mem (s : State) (core slot : Nat) (e : Word × Nat × Nat × Word) : (s.raiseJump core slot e).mem = s.mem := by
  unfold State.raiseJump
  dsimp only
  split <;> simp [State.trapped_mem]

@[simp] theorem execTakePendingTrap_canon {s : State} (hs : s.mem.Canon) (core slot : Nat) : (execTakePendingTrap core slot s).Canon := by
  unfold execTakePendingTrap
  dsimp only
  repeat' split
  all_goals simp [hs, State.trapped_mem]

@[simp] theorem execPreempt_canon {s : State} (hs : s.mem.Canon) (v : Word) : (execPreempt v s).Canon := by simp [execPreempt, hs]

@[simp] theorem State.writePieces_canon {s : State} (hs : s.mem.Canon) (u : UnitId) (ctx base : Nat) (ps : List (Nat × List Byte)) (n : Nat) :
    (s.writePieces u ctx base ps n).1.mem.Canon := by
  fun_induction State.writePieces s u ctx base ps n <;> grind [!. State.writeVA_canon]

@[simp] theorem State.endSave_mem (s : State) (core slot : Nat) (used : List (Nat × Nat)) : (s.endSave core slot used).mem = s.mem := by
  unfold State.endSave
  dsimp only
  split <;> simp

@[simp] theorem State.offFatal_mem (s : State) (o : OffTask) : (s.offFatal o).mem = s.mem := by simp [State.offFatal]

@[simp] theorem State.saveLate_canon {s : State} (hs : s.mem.Canon) (o : OffTask) : (s.saveLate o).mem.Canon := by
  unfold State.saveLate
  dsimp only
  split <;> simp [hs]

@[simp] theorem execSaveComplete_canon {s : State} (hs : s.mem.Canon) (core slot : Nat) : (execSaveComplete core slot s).Canon := by
  fun_cases execSaveComplete <;> grind [Out.canon_next, !. State.endSave_mem, !. State.fatal_mem, !. State.saveLate_canon, !. State.setTaskAt_mem,
    !. State.writePieces_canon]

@[simp] theorem State.goOn_mem (s : State) (core slot : Nat) (t : Task) : (s.goOn core slot t).mem = s.mem := by rfl

@[simp] theorem State.putBack_mem (s : State) (o : OffTask) : (s.putBack o).mem = s.mem := by rfl

@[simp] theorem State.readPieces_canon {s : State} (hs : s.mem.Canon) (u : UnitId) (ctx base : Nat) (hold : Option Nat) (ps : List (Nat × Nat))
    (acc : List Byte) : (s.readPieces u ctx base hold ps acc).1.mem.Canon := by
  fun_induction State.readPieces s u ctx base hold ps acc <;> grind [!. State.unitAccess_canon]

@[simp] theorem execTaskResume_canon {s : State} (hs : s.mem.Canon) (core slot : Nat) : (execTaskResume core slot s).Canon := by
  fun_cases execTaskResume <;> grind [Out.canon_next, !. State.goOn_mem, !. State.offFatal_mem, !. State.putBack_mem, !. State.readPieces_canon]

@[simp] theorem execMonopolyWatchdogExpiry_canon {s : State} (hs : s.mem.Canon) (core : Nat) : (execMonopolyWatchdogExpiry core s).Canon := by
  unfold execMonopolyWatchdogExpiry
  split <;> simp [hs]

@[simp] theorem State.convert_mem (s : State) (core slot : Nat) : (s.convert core slot).mem = s.mem := by rfl

@[simp] theorem execFreezeConversion_canon {s : State} (hs : s.mem.Canon) (core : Nat) : (execFreezeConversion core s).Canon := by
  unfold execFreezeConversion
  split <;> simp [hs]

@[simp] theorem execWaiteReread_canon {s : State} (hs : s.mem.Canon) (core slot : Nat) : (execWaiteReread core slot s).Canon := by
  fun_cases execWaiteReread <;> grind [Out.canon_next, !. State.hold_mem, !. State.serve_canon, !. State.setTaskAt_mem, !. State.unhold_mem]

@[simp] theorem State.rereadFor_canon {s : State} (hs : s.mem.Canon) (u : UnitId) : (s.rereadFor u).mem.Canon := by
  unfold State.rereadFor
  split
  · refine State.foldl_canon (fun t k ht => ?_) _ hs
    split
    · split
      · next s' h => exact execWaiteReread_canon ht _ _ _ h
      · exact ht
    · exact ht
  · exact hs

/-! ### Links and the rotor (R351 to R383) -/

@[simp] theorem State.setLinkAt_mem (s : State) (n : Nat) (l : Link) : (s.setLinkAt n l).mem = s.mem := by rfl

@[simp] theorem State.leftAt_mem (s : State) (p : Packet) (now : Nat) : (s.leftAt p now).mem = s.mem := by
  unfold State.leftAt
  split <;> rfl

@[simp] theorem State.sendCw_mem (s : State) (n seq : Nat) (flits : List (List Byte)) : (s.sendCw n seq flits).mem = s.mem := by rfl

@[simp] theorem State.leave_mem (s : State) (n : Nat) (p : Packet) (rest : List Packet) : (s.leave n p rest).mem = s.mem := by simp [State.leave]

@[simp] theorem State.pump_mem (s : State) (n : Nat) : (s.pump n).mem = s.mem := by
  fun_cases State.pump <;> grind [!. State.leave_mem, !. State.sendCw_mem, !. State.setLinkAt_mem]

@[simp] theorem State.enqueue_mem (s : State) (n : Nat) (p : Packet) : (s.enqueue n p).mem = s.mem := by rfl

@[simp] theorem State.toTorus_mem (s : State) (p : Packet) : (s.toTorus p).mem = s.mem := by
  unfold State.toTorus
  dsimp only
  split <;> simp

@[simp] theorem State.routeOwn_mem (s : State) (p : Packet) : (s.routeOwn p).mem = s.mem := by
  fun_cases State.routeOwn <;> simp +zetaDelta [*]

@[simp] theorem State.pumpAll_mem (s : State) : (s.pumpAll).mem = s.mem := by simp [State.pumpAll, apply_ite State.mem]

@[simp] theorem execPacketRoute_canon {s : State} (hs : s.mem.Canon) : (execPacketRoute s).Canon := by
  fun_cases execPacketRoute <;> grind [Out.canon_next, !. State.pumpAll_mem, !. State.routeOwn_mem, !. State.toTorus_mem]

@[simp] theorem State.losePacket_canon {s : State} (hs : s.mem.Canon) (u : Unacked) : (s.losePacket u).mem.Canon := by
  fun_cases State.losePacket <;> simp [hs]

@[simp] theorem State.unqueue_mem (s : State) (p : Packet → Bool) : (s.unqueue p).mem = s.mem := by rfl

@[simp] theorem State.resend_canon {s : State} (hs : s.mem.Canon) (tgt seq : Nat) : (s.resend tgt seq).mem.Canon := by
  unfold State.resend
  dsimp only
  split
  · exact hs
  · split
    · simpa using hs
    · exact State.foldl_canon (fun _ _ h => State.losePacket_canon h _) _ (by simpa using hs)

@[simp] theorem State.requeue_mem (s : State) (n : Nat) (ps : List Packet) : (s.requeue n ps).mem = s.mem :=
  State.foldl_mem (fun t p => by split <;> [skip; split] <;> simp) _ _

@[simp] theorem State.dropLink_canon {s : State} (hs : s.mem.Canon) (n : Nat) (st : LStat) (cause : Nat) : (s.dropLink n st cause).mem.Canon := by
  simp +contextual [State.dropLink, hs]

@[simp] theorem execLnkctlTrain_canon {s : State} (hs : s.mem.Canon) (n : BitVec 8) : (execLnkctlTrain n s).Canon := by simp [execLnkctlTrain, hs]

@[simp] theorem execLnkctlDown_canon {s : State} (hs : s.mem.Canon) (n : BitVec 8) : (execLnkctlDown n s).Canon :=
  State.command_canon hs (Out.canon_next (by simp [hs, apply_ite State.mem]))

@[simp] theorem execLinkTrainingComplete_canon {s : State} (hs : s.mem.Canon) (n : BitVec 8) (healthy : BitVec 16) :
    (execLinkTrainingComplete n healthy s).Canon := by
  fun_cases execLinkTrainingComplete <;> simp [hs]

@[simp] theorem execLinkTrainingTimeout_canon {s : State} (hs : s.mem.Canon) (n : BitVec 8) : (execLinkTrainingTimeout n s).Canon :=
  Out.canon_next (by simp [hs, apply_ite State.mem])

@[simp] theorem State.loseLane_canon {s : State} (hs : s.mem.Canon) (n k : Nat) : (s.loseLane n k).mem.Canon := by
  unfold State.loseLane
  dsimp only
  repeat' split
  all_goals simp [hs]

@[simp] theorem State.replayLink_canon {s : State} (hs : s.mem.Canon) (n : Nat) : (s.replayLink n).mem.Canon := by
  simp [State.replayLink, hs, apply_ite State.mem]

@[simp] theorem execLinkWidthAgreed_canon {s : State} (hs : s.mem.Canon) (n : BitVec 8) : (execLinkWidthAgreed n s).Canon := by
  fun_cases execLinkWidthAgreed <;> simp +zetaDelta [*]

@[simp] theorem execLaneThresholdCrossed_canon {s : State} (hs : s.mem.Canon) (n : BitVec 8) (lane : BitVec 4) (syms : BitVec 32) :
    (execLaneThresholdCrossed n lane syms s).Canon := by
  simp [execLaneThresholdCrossed, hs]

@[simp] theorem execLaneRetrainTimeout_canon {s : State} (hs : s.mem.Canon) (n : BitVec 8) : (execLaneRetrainTimeout n s).Canon :=
  Out.canon_next (by simp [hs, apply_ite State.mem])

@[simp] theorem execLinkWiden_canon {s : State} (hs : s.mem.Canon) (n : BitVec 8) : (execLinkWiden n s).Canon := by
  unfold execLinkWiden
  dsimp only
  repeat' split
  all_goals simp [hs]

@[simp] theorem State.ackFlits_mem (s : State) (n ack : Nat) : (s.ackFlits n ack).mem = s.mem := by
  unfold State.ackFlits
  dsimp only
  split <;> simp

@[simp] theorem State.countLanes_canon {s : State} (hs : s.mem.Canon) (n : Nat) (errs : List Nat) : (s.countLanes n errs).mem.Canon := by
  simp +contextual [State.countLanes, hs]

@[simp] theorem execCodewordReceived_canon {s : State} (hs : s.mem.Canon) (n : BitVec 8) (errs : List Nat) (seq ack : Nat) (cw : CwLoad) :
    (execCodewordReceived n errs seq ack cw s).Canon := by
  simp +contextual [execCodewordReceived, hs, apply_ite State.mem]

@[simp] theorem execReplayRequestReceived_canon {s : State} (hs : s.mem.Canon) (n : BitVec 8) (seq : BitVec 12) :
    (execReplayRequestReceived n seq s).Canon := by
  simp +contextual [execReplayRequestReceived, hs, apply_ite State.mem]

@[simp] theorem execReplayAckTimeout_canon {s : State} (hs : s.mem.Canon) (n : BitVec 8) : (execReplayAckTimeout n s).Canon :=
  Out.canon_next (by simp [hs, apply_ite State.mem])

@[simp] theorem execFarDepthTimeout_canon {s : State} (hs : s.mem.Canon) (n : BitVec 8) : (execFarDepthTimeout n s).Canon :=
  Out.canon_next (by simp [hs, apply_ite State.mem])

@[simp] theorem execRotorEnable_canon {s : State} (hs : s.mem.Canon) : (execRotorEnable s).Canon := by simp [execRotorEnable, hs]

@[simp] theorem State.offRotor_mem (s : State) (p : Nat → Packet → Bool) (held : Packet → Bool) : (s.offRotor p held).mem = s.mem := by
  simp [State.offRotor]

@[simp] theorem State.unlock_mem (s : State) : (s.unlock).mem = s.mem := by simp [State.unlock]

@[simp] theorem State.relayIn_mem (s : State) (p : Packet) : (s.relayIn p).mem = s.mem := by
  fun_cases State.relayIn <;> simp

@[simp] theorem execRotorDwellStart_canon {s : State} (hs : s.mem.Canon) (idx : List Nat) (credits : List (Nat × Nat × Nat)) :
    (execRotorDwellStart idx credits s).Canon := by
  unfold execRotorDwellStart
  refine Out.canon_ite (Out.canon_next hs) (Out.canon_next ?_)
  dsimp only
  refine State.foldl_canon (fun t q ht => by split <;> simpa using ht) _ ?_
  dsimp only
  split <;> simpa using hs

@[simp] theorem execRotorGuardStart_canon {s : State} (hs : s.mem.Canon) : (execRotorGuardStart s).Canon := by
  unfold execRotorGuardStart
  refine Out.canon_ite (Out.canon_next hs) (Out.canon_next ?_)
  exact State.foldl_canon (fun _ _ h => State.resend_canon h _ _) _ (by simp [apply_ite State.mem, hs])

@[simp] theorem execRotorLockTimeout_canon {s : State} (hs : s.mem.Canon) : (execRotorLockTimeout s).Canon :=
  Out.canon_next (by simp [hs, apply_ite State.mem])

/-! ### Packets to and from other modules (R96, R116, R145 to R149) -/

@[simp] theorem State.refill_mem (s : State) (tgt : Nat) : (s.refill tgt).mem = s.mem := by simp [State.refill]

@[simp] theorem execE2eAckArrival_canon {s : State} (hs : s.mem.Canon) (tgt : BitVec 12) (seq : BitVec 32) (data : List Byte) (cause : BitVec 9)
    (pstate : BitVec 3) : (execE2eAckArrival tgt seq data cause pstate s).Canon := by
  fun_cases execE2eAckArrival <;> grind [Out.canon_next, !. State.ctxError_mem, !. State.recAcked_canon, !. State.refill_mem,
    !. State.replyHeld_canon, !. State.reportUnit_canon, !. State.rereadFor_canon, !. State.settle_canon, !. State.unqueue_mem]

@[simp] theorem execE2eResendTimeout_canon {s : State} (hs : s.mem.Canon) (tgt : BitVec 12) (seq : BitVec 32) :
    (execE2eResendTimeout tgt seq s).Canon := by
  unfold execE2eResendTimeout
  dsimp only
  split
  · refine Out.canon_next ?_
    split
    · split <;> simp [hs]
    · exact hs
  · exact Out.canon_next hs

@[simp] theorem execResetNoticeArrival_canon {s : State} (hs : s.mem.Canon) (tgt : BitVec 12) : (execResetNoticeArrival tgt s).Canon := by
  refine Out.canon_next (State.settle_canon ?_)
  rw [State.foldl_mem State.sendOn_mem]
  exact State.foldl_canon (fun _ _ h => State.losePacket_canon h _) _ (by simpa using hs)

@[simp] theorem State.tgtWrite_canon {s : State} (hs : s.mem.Canon) (p : Packet) (bs : List Byte) (ill : List Nat) :
    (s.tgtWrite p bs ill).1.mem.Canon := by
  unfold State.tgtWrite
  dsimp only
  split <;> simp [hs]

@[simp] theorem State.tgtAtomic_canon {s : State} (hs : s.mem.Canon) (p : Packet) (op : Nat) (ops : List Word) :
    (s.tgtAtomic p op ops).1.mem.Canon := by
  unfold State.tgtAtomic
  split <;> simp [hs]

@[simp] theorem State.tgtRemop_canon {s : State} (hs : s.mem.Canon) (p : Packet) (block : List Byte) : (s.tgtRemop p block).1.mem.Canon := by
  fun_cases State.tgtRemop <;> grind [!. State.performRemop_canon, !. State.remopDone_mem]

@[simp] theorem State.appendTo_canon {s : State} (hs : s.mem.Canon) (find : Finder) (q src row : Nat) (u : Nat × Nat) (data : List Byte) :
    (s.appendTo find q src row u data).1.mem.Canon := by
  fun_cases State.appendTo
  case case2 =>
    rw [State.kick_mem]
    exact Mem.canon_setWord (Mem.canon_wrAll (Mem.canon_setWord hs _ _) _) _ _
  all_goals exact hs

@[simp] theorem State.appendRow_canon {s : State} (hs : s.mem.Canon) (find : Finder) (q src row : Nat) (u : Nat × Nat) (data : List Byte) :
    (s.appendRow find q src row u data).1.mem.Canon := by
  fun_cases State.appendRow <;> grind [!. State.appendTo_canon]

@[simp] theorem State.performPkt_canon {s : State} (hs : s.mem.Canon) (p : Packet) : (s.performPkt p).1.mem.Canon := by
  fun_cases State.performPkt <;> simp [hs]

@[simp] theorem State.ackTo_mem (s : State) (src : Nat) (r : Reply) : (s.ackTo src r).mem = s.mem := by rfl

@[simp] theorem State.accept_canon {s : State} (hs : s.mem.Canon) (p : Packet) : (s.accept p).mem.Canon := by
  fun_cases State.accept <;> grind [!. State.ackTo_mem, !. State.performPkt_canon]

@[simp] theorem State.openPair_mem (s : State) (p : Packet) : (s.openPair p).mem = s.mem := by simp [State.openPair, apply_ite State.mem]

@[simp] theorem execPacketArrivalAtTarget_canon {s : State} (hs : s.mem.Canon) (p : Packet) : (execPacketArrivalAtTarget p s).Canon := by
  fun_cases execPacketArrivalAtTarget <;> simp +zetaDelta [*]

@[simp] theorem State.retryPkts_canon {s : State} (hs : s.mem.Canon) : s.retryPkts.mem.Canon :=
  State.foldl_canon (fun t p ht => by split <;> simp [ht]) _ hs

/-! ### Leases (R395 to R402) -/

@[simp] theorem State.setLender_mem (s : State) (m : Nat) (l : Lender) : (s.setLender m l).mem = s.mem := by rfl

@[simp] theorem State.setBorrower_mem (s : State) (n : Nat) (b : Borrower) : (s.setBorrower n b).mem = s.mem := by rfl

@[simp] theorem State.say_mem (s : State) (m : OutMsg) : (s.say m).mem = s.mem := by rfl

@[simp] theorem State.swapAll_canon {s : State} (hs : s.mem.Canon) (new : Word → Word) (ls : List (Word × Nat × Nat)) :
    (s.swapAll new ls).1.mem.Canon := by
  fun_induction State.swapAll s new ls <;> grind [!. State.swapLeaf_canon]

/-- A fold that equals the next state keeps the canonical form: the form in which `unlend`'s long body is taken apart. -/
theorem State.canon_of_foldl {s t : State} {f : State → Nat → State} {ks : List Nat} (he : t = ks.foldl f s) (hs : s.mem.Canon)
    (hf : ∀ s k, s.mem.Canon → (f s k).mem.Canon) : t.mem.Canon := he ▸ State.foldl_canon hf ks hs

theorem State.unlendPage_canon {s : State} (hs : s.mem.Canon) (r : Nat × Nat) (k : Nat) :
    (let ia := r.1 + k * 2 ^ 30
      if r.2 ≤ ia then s
      else match s.walk ia with
        | .leaf e a => if e.f 61 59 = 4 then (s.swapLeaf e (e.setF 61 59 0) a ia).1 else s
        | _ => s).mem.Canon := by
  dsimp only
  split
  · exact hs
  · split
    · split <;> simp [hs]
    · exact hs

@[simp] theorem State.unlend_canon {s : State} (hs : s.mem.Canon) (m : Nat) : (s.unlend m).mem.Canon :=
  State.canon_of_foldl (State.unlend.eq_1 s m) hs fun _ k ht => State.unlendPage_canon ht (s.lender m).region k

@[simp] theorem execLlcmdGrant_canon {s : State} (hs : s.mem.Canon) (m : BitVec 8) : (execLlcmdGrant m s).Canon := by
  fun_cases execLlcmdGrant
  grind [Out.canon_next, !. State.command_canon, !. State.say_mem, !. State.setLender_mem, !. State.swapAll_canon]

@[simp] theorem execLlcmdReclaim_canon {s : State} (hs : s.mem.Canon) (m : BitVec 8) : (execLlcmdReclaim m s).Canon := by simp [execLlcmdReclaim, hs]

@[simp] theorem execLeaseAcceptArrival_canon {s : State} (hs : s.mem.Canon) (m : BitVec 8) : (execLeaseAcceptArrival m s).Canon := by
  simp [execLeaseAcceptArrival, hs]

@[simp] theorem State.endLease_canon {s : State} (hs : s.mem.Canon) (m result : Nat) : (s.endLease m result).mem.Canon := by simp [State.endLease, hs]

@[simp] theorem execLeaseGrantTimeout_canon {s : State} (hs : s.mem.Canon) (m : BitVec 8) : (execLeaseGrantTimeout m s).Canon :=
  Out.canon_next (by simp [hs, apply_ite State.mem])

@[simp] theorem execLeaseTermExpiry_canon {s : State} (hs : s.mem.Canon) (m : BitVec 8) : (execLeaseTermExpiry m s).Canon := by
  simp [execLeaseTermExpiry, hs]

@[simp] theorem execReclaimForceTimeout_canon {s : State} (hs : s.mem.Canon) (m : BitVec 8) : (execReclaimForceTimeout m s).Canon :=
  Out.canon_next (by simp [hs, apply_ite State.mem])

@[simp] theorem execBlcmdExpect_canon {s : State} (hs : s.mem.Canon) (n : BitVec 10) : (execBlcmdExpect n s).Canon :=
  State.command_canon hs (Out.canon_next (by simp [hs, apply_ite State.mem]))

@[simp] theorem execBlcmdRelease_canon {s : State} (hs : s.mem.Canon) (n : BitVec 10) : (execBlcmdRelease n s).Canon :=
  State.command_canon hs (Out.canon_next (by simp [hs, apply_ite State.mem]))

@[simp] theorem execBlcmdClear_canon {s : State} (hs : s.mem.Canon) (n : BitVec 10) : (execBlcmdClear n s).Canon :=
  State.command_canon hs (Out.canon_next (by simp [hs, apply_ite State.mem]))

@[simp] theorem execLeaseGrantArrival_canon {s : State} (hs : s.mem.Canon) (n : BitVec 10) (lender : BitVec 12) (lia : BitVec 22) (term : BitVec 32)
    (pages : BitVec 7) : (execLeaseGrantArrival n lender lia term pages s).Canon := by
  simp [execLeaseGrantArrival, hs]

@[simp] theorem execLeaseRenewalSend_canon {s : State} (hs : s.mem.Canon) (n : BitVec 10) : (execLeaseRenewalSend n s).Canon := by
  simp [execLeaseRenewalSend, hs]

@[simp] theorem execLeaseLapse_canon {s : State} (hs : s.mem.Canon) (n : BitVec 10) : (execLeaseLapse n s).Canon :=
  Out.canon_next (by simp [hs, apply_ite State.mem])

@[simp] theorem State.unmapLease_canon {s : State} (hs : s.mem.Canon) (n : Nat) : (s.unmapLease n).mem.Canon := by
  unfold State.unmapLease
  refine State.foldl_canon (fun t k ht => ?_) _ hs
  dsimp only
  split
  · split <;> simp [ht]
  · exact ht

@[simp] theorem execEvictionComplete_canon {s : State} (hs : s.mem.Canon) (n : BitVec 10) : (execEvictionComplete n s).Canon := by
  simp +contextual [execEvictionComplete, hs, apply_ite State.mem]

@[simp] theorem State.releaseLeases_mem (s : State) (c : Nat) : (s.releaseLeases c).mem = s.mem := by simp [State.releaseLeases, apply_ite State.mem]

/-! ### Retriever threads and migration (R105, R106, R384 to R394) -/

@[simp] theorem State.setRt_mem (s : State) (r t : Nat) (x : RetrThread) : (s.setRt r t x).mem = s.mem := by rfl

@[simp] theorem execRtThreadStart_canon {s : State} (hs : s.mem.Canon) (r : BitVec 4) (t : BitVec 3) : (execRtThreadStart r t s).Canon := by
  simp [execRtThreadStart, hs]

@[simp] theorem State.onThread_mem (s : State) (r t : Nat) (f : Task → Task) : (s.onThread r t f).mem = s.mem := by
  unfold State.onThread
  split <;> rfl

@[simp] theorem State.stopThread_mem (s : State) (r t : Nat) : (s.stopThread r t).mem = s.mem := by rfl

@[simp] theorem execRtThreadStop_canon {s : State} (hs : s.mem.Canon) (r : BitVec 4) (t : BitVec 3) : (execRtThreadStop r t s).Canon :=
  State.command_canon hs (Out.canon_next (by simp [hs, apply_ite State.mem]))

@[simp] theorem execPkget_canon {s : State} (hs : s.mem.Canon) (d : Dst) (a : Src) : (execPkget d a s).Canon := by
  unfold execPkget
  dsimp only
  split <;> simp [hs]

@[simp] theorem State.dropPacket_mem (s : State) (p : RPkt) : (s.dropPacket p).mem = s.mem := by rfl

@[simp] theorem State.replyRemop_canon {s : State} (hs : s.mem.Canon) (p : RPkt) (bs : List Byte) : (s.replyRemop p bs).mem.Canon := by
  fun_cases State.replyRemop <;> simp +zetaDelta [*]

@[simp] theorem execPkreply_canon {s : State} (hs : s.mem.Canon) (a b : Src) : (execPkreply a b s).Canon := by
  unfold execPkreply
  dsimp only
  split <;> simp [hs]

@[simp] theorem execPkfwd_canon {s : State} (hs : s.mem.Canon) (a b : Src) : (execPkfwd a b s).Canon := by
  unfold execPkfwd
  dsimp only
  split <;> simp [hs]

@[simp] theorem execPkdone_canon {s : State} (hs : s.mem.Canon) (a b : Src) : (execPkdone a b s).Canon := by
  fun_cases execPkdone <;> grind [Out.canon_next, !. State.ackTo_mem, !. State.answer_mem, !. State.dropPacket_mem, !. State.raise_mem,
    !. State.touch_mem]

@[simp] theorem State.setMig_mem (s : State) (r : Nat) (m : Migration) : (s.setMig r m).mem = s.mem := by rfl

@[simp] theorem execMiggo_canon {s : State} (hs : s.mem.Canon) (r : BitVec 4) : (execMiggo r s).Canon := by
  fun_cases execMiggo
  grind [Out.canon_next, !. State.command_canon, !. State.setMig_mem, !. State.swapLeaf_canon]

@[simp] theorem execMigrationComplete_canon {s : State} (hs : s.mem.Canon) (r : BitVec 4) : (execMigrationComplete r s).Canon := by
  unfold execMigrationComplete
  extract_lets m ia e cmp here back img done
  refine Out.canon_ite (Out.canon_next hs) ?_
  have hdone (t : State) (x : Nat) (ht : t.mem.Canon) : (done t x).Canon := Out.canon_next (by simp [ht])
  clear_value img done
  cases img with
  | error x => exact hdone _ _ (State.swapLeaf_canon hs _ _ _ _)
  | ok bs =>
    dsimp only
    split <;> rename_i heq
    all_goals
      refine hdone _ _ ?_
      have hsw := congrArg (fun p : State × Bool => p.1.mem.Canon) heq
      exact hsw.mp (State.swapLeaf_canon (Mem.canon_wrAll hs _) ..)

/-! ### Collectives (R403 to R426) -/

@[simp] theorem State.setColl_mem (s : State) (c : Nat) (k : Coll) : (s.setColl c k).mem = s.mem := by rfl

@[simp] theorem State.creditColls_canon {s : State} (hs : s.mem.Canon) : (s.creditColls).mem.Canon := by
  unfold State.creditColls
  split <;> simp [hs]

@[simp] theorem State.startRound_canon {s : State} (hs : s.mem.Canon) (c : Nat) (k : Coll) (prog : List (List Word)) :
    (s.startRound c k prog).mem.Canon := by
  simp [State.startRound, hs]

@[simp] theorem State.collPost_mem (s : State) (d a : BitVec 6) (op : Nat) : (s.collPost d a op).mem = s.mem := by
  unfold State.collPost
  dsimp only
  repeat' split
  all_goals simp

@[simp] theorem State.dropCmd_mem (s : State) (q : CollCmd) : (s.dropCmd q).mem = s.mem := by rfl

@[simp] theorem State.cmdEnd_mem (s : State) (q : CollCmd) (v : RVal) : (s.cmdEnd q v).mem = s.mem := by simp [State.cmdEnd, State.onTask_mem]

@[simp] theorem State.cmdReply_mem (s : State) (q : CollCmd) (w : Nat) : (s.cmdReply q w).mem = s.mem := by simp [State.cmdReply]

@[simp] theorem State.cmdFail_mem (s : State) (q : CollCmd) (cause : Nat) : (s.cmdFail q cause).mem = s.mem := by simp [State.cmdFail]

@[simp] theorem State.cmdRead_canon {s : State} (hs : s.mem.Canon) (q : CollCmd) (u : UnitId) (va : Word) (n : Nat) :
    (s.cmdRead q u va n).1.mem.Canon := by
  fun_cases State.cmdRead <;> grind [!. State.cmdEnd_mem, !. State.hold_mem, !. State.unitServe_canon]

@[simp] theorem State.openColl_mem (s : State) (q : CollCmd) : (s.openColl q).mem = s.mem := by
  fun_cases State.openColl <;> simp

@[simp] theorem State.cmdRun_canon {s : State} (hs : s.mem.Canon) (q : CollCmd) : (s.cmdRun q).mem.Canon := by
  simp [State.cmdRun, hs, apply_ite State.mem]

@[simp] theorem State.cmdChange_mem (s : State) (q : CollCmd) (remove : Bool) : (s.cmdChange q remove).mem = s.mem := by
  unfold State.cmdChange
  dsimp only
  split <;> simp

@[simp] theorem State.cmdCatch_mem (s : State) (q : CollCmd) : (s.cmdCatch q).mem = s.mem := by
  unfold State.cmdCatch
  dsimp only
  split <;> simp

@[simp] theorem State.cmdClose_mem (s : State) (q : CollCmd) : (s.cmdClose q).mem = s.mem := by
  unfold State.cmdClose
  dsimp only
  split <;> simp

@[simp] theorem State.cmdDo_canon {s : State} (hs : s.mem.Canon) (q : CollCmd) : (s.cmdDo q).mem.Canon := by
  unfold State.cmdDo
  split <;> simp [hs]

@[simp] theorem State.putCmd_mem (s : State) (q : CollCmd) : (s.putCmd q).mem = s.mem := by rfl

@[simp] theorem State.cmdGo_canon {s : State} (hs : s.mem.Canon) (q : CollCmd) : (s.cmdGo q).mem.Canon := by
  fun_cases State.cmdGo <;> grind [!. State.cmdDo_canon, !. State.cmdFail_mem, !. State.cmdRead_canon, !. State.dropCmd_mem, !. State.putCmd_mem]

@[simp] theorem State.collFail_mem (s : State) (c : Nat) (reason cause : Nat) : (s.collFail c reason cause).mem = s.mem := by rfl

@[simp] theorem State.collWrite_canon {s : State} (hs : s.mem.Canon) (c : Nat) (k : Coll) (w : Word × List (Byte × Bool) × Bool) (rest : List
    (Word × List (Byte × Bool) × Bool)) : (s.collWrite c k w rest).mem.Canon := by
  fun_cases State.collWrite <;> grind [!. State.collFail_mem, !. State.setColl_mem, !. State.writeVA_canon]

@[simp] theorem State.takeErr_mem (s : State) (u : UnitId) : (s.takeErr u).1.mem = s.mem := by
  unfold State.takeErr
  split <;> rfl

@[simp] theorem State.collDone_canon {s : State} (hs : s.mem.Canon) (c : Nat) (k : Coll) (st : CollStat) : (s.collDone c k st).mem.Canon := by
  unfold State.collDone
  dsimp only
  split <;> simp [hs]

@[simp] theorem State.collTend_canon {s : State} (hs : s.mem.Canon) (c : Nat) : (s.collTend c).mem.Canon := by
  fun_cases State.collTend <;> grind [!. State.collDone_canon, !. State.collFail_mem, !. State.collWrite_canon, !. State.setColl_mem,
    !. State.takeErr_mem]

@[simp] theorem State.collGo_canon {s : State} (hs : s.mem.Canon) {body : State → Coll → CStep → State}
    (hb : ∀ t k x, t.mem.Canon → (body t k x).mem.Canon) (c kind : Nat) : (s.collGo c kind body).mem.Canon := by
  unfold State.collGo
  split
  · exact hs
  · split
    · exact hs
    · split
      · simp [hs]
      · exact hb _ _ _ hs

@[simp] theorem State.collNext_canon {s : State} (hs : s.mem.Canon) (c : Nat) (k : Coll) (pc : Nat) : (s.collNext c k pc).mem.Canon := by
  simp [State.collNext, hs]

@[simp] theorem State.collEnd_canon {s : State} (hs : s.mem.Canon) (c : Nat) (k : Coll) (x : CStep) (va : Word) : (s.collEnd c k x va).mem.Canon := by
  simp [State.collEnd, hs, apply_ite State.mem]

@[simp] theorem State.collRead_canon {s : State} (hs : s.mem.Canon) (c : Nat) (k : Coll) (va : Word) (n : Nat) :
    (s.collRead c k va n).1.mem.Canon := by
  fun_cases State.collRead <;> grind [!. State.collFail_mem, !. State.setColl_mem, !. State.unitAccess_canon]

@[simp] theorem State.collReadOk_canon {s : State} (hs : s.mem.Canon) (c : Nat) (k : Coll) (va : Word) (n : Nat) :
    (s.collReadOk c k va n).1.mem.Canon := by
  fun_cases State.collReadOk <;> grind [!. State.collFail_mem, !. State.collRead_canon]

@[simp] theorem State.collSend_mem (s : State) (c : Nat) (k : Coll) (dst : Option Nat) (m : CollMsg) : (s.collSend c k dst m).mem = s.mem := by
  unfold State.collSend
  split
  · rfl
  · dsimp only
    split <;> simp

@[simp] theorem State.bucketBytes_mem (s : State) (x : CStep) (b : Bucket) : (s.bucketBytes x b).1.mem = s.mem := by
  unfold State.bucketBytes
  dsimp only
  repeat' split
  all_goals simp

@[simp] theorem execCollStepEnd_canon {s : State} (hs : s.mem.Canon) (c : BitVec 6) : (execCollStepEnd c s).Canon := by
  fun_cases execCollStepEnd <;> grind [Out.canon_next, !. State.collGo_canon, !. State.collTend_canon, !. State.setColl_mem]

@[simp] theorem execCollStepSend_canon {s : State} (hs : s.mem.Canon) (c : BitVec 6) : (execCollStepSend c s).Canon := by
  fun_cases execCollStepSend
  grind [Out.canon_next, !. State.collEnd_canon, !. State.collGo_canon, !. State.collRead_canon,
    !. State.collSend_mem, !. State.setColl_mem]

@[simp] theorem execCollStepRecv_canon {s : State} (hs : s.mem.Canon) (c : BitVec 6) : (execCollStepRecv c s).Canon := by
  fun_cases execCollStepRecv
  grind [Out.canon_next, !. State.collEnd_canon, !. State.collFail_mem, !. State.collGo_canon, !. State.setColl_mem]

@[simp] theorem execCollStepPsend_canon {s : State} (hs : s.mem.Canon) (c : BitVec 6) : (execCollStepPsend c s).Canon := by
  fun_cases execCollStepPsend
  grind [Out.canon_next, !. State.collEnd_canon, !. State.collGo_canon, !. State.collRead_canon,
    !. State.collSend_mem, !. State.setColl_mem]

@[simp] theorem execCollStepRrs_canon {s : State} (hs : s.mem.Canon) (c : BitVec 6) : (execCollStepRrs c s).Canon := by
  fun_cases execCollStepRrs
  grind [Out.canon_next, !. State.collEnd_canon, !. State.collFail_mem, !. State.collGo_canon,
    !. State.collRead_canon, !. State.collSend_mem, !. State.setColl_mem]

@[simp] theorem execCollStepRed_canon {s : State} (hs : s.mem.Canon) (c : BitVec 6) : (execCollStepRed c s).Canon := by
  fun_cases execCollStepRed
  grind [Out.canon_next, !. State.bucketBytes_mem, !. State.collEnd_canon, !. State.collFail_mem,
    !. State.collGo_canon, !. State.collRead_canon, !. State.setColl_mem]

@[simp] theorem execCollStepCopy_canon {s : State} (hs : s.mem.Canon) (c : BitVec 6) : (execCollStepCopy c s).Canon := by
  fun_cases execCollStepCopy
  grind [Out.canon_next, !. State.collEnd_canon, !. State.collGo_canon, !. State.collRead_canon, !. State.setColl_mem]

@[simp] theorem execCollStepWait_canon {s : State} (hs : s.mem.Canon) (c : BitVec 6) : (execCollStepWait c s).Canon := by
  fun_cases execCollStepWait
  grind [Out.canon_next, !. State.collFail_mem, !. State.collGo_canon, !. State.collNext_canon,
    !. State.collReadOk_canon, !. State.setColl_mem]

@[simp] theorem execCollStepLoop_canon {s : State} (hs : s.mem.Canon) (c : BitVec 6) : (execCollStepLoop c s).Canon := by
  simp +contextual [execCollStepLoop, hs]

@[simp] theorem execCollStepEndl_canon {s : State} (hs : s.mem.Canon) (c : BitVec 6) : (execCollStepEndl c s).Canon := by
  simp +contextual [execCollStepEndl, hs]

@[simp] theorem execCollStepAppend_canon {s : State} (hs : s.mem.Canon) (c : BitVec 6) : (execCollStepAppend c s).Canon := by
  refine Out.canon_next (State.collGo_canon hs (fun t k x ht => ?_) _ _)
  grind [!. State.collEnd_canon, !. State.collReadOk_canon, !. State.setColl_mem, !. State.collFail_mem, !. State.appendTo_canon,
    !. State.record_canon, !. State.freshId_mem, !. State.hold_mem, !. State.sendPkt_mem, !. State.unitAccess_canon]

@[simp] theorem State.collAll_mem (s : State) (c : Nat) (k : Coll) (m : CollMsg) (vals : List Int) : (s.collAll c k m vals).mem = s.mem := by
  simp [State.collAll]

@[simp] theorem execCollStepA2a_canon {s : State} (hs : s.mem.Canon) (c : BitVec 6) : (execCollStepA2a c s).Canon := by
  refine Out.canon_next (State.collGo_canon hs (fun t k x ht => ?_) _ _)
  grind [!. State.collReadOk_canon, !. State.setColl_mem, !. State.collAll_mem, !. State.collFail_mem, !. State.collRead_canon,
    !. State.writeLooks_canon, !. State.collEnd_canon]

@[simp] theorem execCollStepSignal_canon {s : State} (hs : s.mem.Canon) (c : BitVec 6) : (execCollStepSignal c s).Canon := by
  fun_cases execCollStepSignal
  grind [Out.canon_next, !. State.collFail_mem, !. State.collGo_canon, !. State.collNext_canon,
    !. State.setColl_mem, !. State.unitAccess_canon]

@[simp] theorem State.sarOut_mem (s : State) (dst : Nat) (m : CollMsg) : (s.sarOut dst m).mem = s.mem := by rfl

@[simp] theorem State.setSarKey_mem (s : State) (k : SarKey) : (s.setSarKey k).mem = s.mem := by rfl

@[simp] theorem State.sarRoot_mem (s : State) (m : CollMsg) : (s.sarRoot m).mem = s.mem := by
  fun_cases State.sarRoot <;> simp

@[simp] theorem State.sarForward_mem (s : State) (dst : Nat) (m : CollMsg) : (s.sarForward dst m).mem = s.mem := by
  unfold State.sarForward
  dsimp only
  split <;> simp

@[simp] theorem State.sarArrive_mem (s : State) (src dst : Nat) (m : CollMsg) : (s.sarArrive src dst m).mem = s.mem := by
  fun_cases State.sarArrive <;> simp +zetaDelta [*]

@[simp] theorem State.sarResult_mem (s : State) (m : CollMsg) : (s.sarResult m).mem = s.mem := by simp [State.sarResult]

@[simp] theorem State.sarRelease_mem (s : State) : (s.sarRelease).mem = s.mem := by simp [State.sarRelease]

@[simp] theorem execSarRouterCombine_canon {s : State} (hs : s.mem.Canon) (p : Packet) : (execSarRouterCombine p s).Canon := by
  fun_cases execSarRouterCombine
  grind [Out.canon_next, !. State.sarArrive_mem, !. State.sarOut_mem, !. State.sarResult_mem]

@[simp] theorem execCollStepSar_canon {s : State} (hs : s.mem.Canon) (c : BitVec 6) : (execCollStepSar c s).Canon := by
  refine Out.canon_next (State.collGo_canon hs (fun t k x ht => ?_) _ _)
  grind [!. State.collRead_canon, !. State.setColl_mem, !. State.sarArrive_mem, !. State.bucketBytes_mem, !. State.sarOut_mem,
    !. State.collFail_mem, !. State.collEnd_canon, !. State.foldl_mem]

@[simp] theorem execSarPartialResend_canon {s : State} (hs : s.mem.Canon) (c : BitVec 6) : (execSarPartialResend c s).Canon :=
  Out.canon_next (by simp [hs, apply_ite State.mem])

@[simp] theorem execCollMessageArrival_canon {s : State} (hs : s.mem.Canon) (m : CollMsg) : (execCollMessageArrival m s).Canon := by
  unfold execCollMessageArrival
  split <;> simp [hs]

@[simp] theorem execCollStepTimeout_canon {s : State} (hs : s.mem.Canon) (c : BitVec 6) : (execCollStepTimeout c s).Canon := by
  fun_cases execCollStepTimeout
  grind [Out.canon_next, !. State.collFail_mem, !. State.setColl_mem]

@[simp] theorem execCollCatchComplete_canon {s : State} (hs : s.mem.Canon) (c : BitVec 6) (entries : List CatchEntry) (log : CatchLog) :
    (execCollCatchComplete c entries log s).Canon := by
  fun_cases execCollCatchComplete
  grind [Out.canon_next, !. State.setColl_mem]

/-! ### Host queues and graphs (R200 to R216) -/

@[simp] theorem State.setQueue_mem (s : State) (c q : Nat) (x : HostQueue) : (s.setQueue c q x).mem = s.mem := by
  unfold State.setQueue
  split <;> rfl

@[simp] theorem State.dropSched_mem (s : State) (u : UnitId) : (s.dropSched u).mem = s.mem := by rfl

@[simp] theorem State.badCmd_mem (s : State) (c q : Nat) : (s.badCmd c q).mem = s.mem := by
  unfold State.badCmd
  split <;> simp

@[simp] theorem State.queueCmd_mem (s : State) (c q : Nat) (ok : HostQueue → Bool) (f : HostQueue → HostQueue) :
    (s.queueCmd c q ok f).mem = s.mem := by
  unfold State.queueCmd
  dsimp only
  split <;> simp

@[simp] theorem execQueueEnable_canon {s : State} (hs : s.mem.Canon) (c : BitVec 4) (q : BitVec 6) : (execQueueEnable c q s).Canon :=
  Out.canon_next (by simp [hs])

@[simp] theorem execQueueDisable_canon {s : State} (hs : s.mem.Canon) (c : BitVec 4) (q : BitVec 6) : (execQueueDisable c q s).Canon := by
  unfold execQueueDisable
  dsimp only
  repeat' split
  all_goals simp [hs]

@[simp] theorem execQueueRetry_canon {s : State} (hs : s.mem.Canon) (c : BitVec 4) (q : BitVec 6) : (execQueueRetry c q s).Canon :=
  Out.canon_next (by simp [hs])

@[simp] theorem execQueueSkip_canon {s : State} (hs : s.mem.Canon) (c : BitVec 4) (q : BitVec 6) : (execQueueSkip c q s).Canon :=
  Out.canon_next (by simp [hs])

@[simp] theorem execQcmdUndefined_canon {s : State} (hs : s.mem.Canon) (c : BitVec 4) (q : BitVec 6) : (execQcmdUndefined c q s).Canon :=
  Out.canon_next (by simp [hs])

@[simp] theorem execQueueConfigWrite_canon {s : State} (hs : s.mem.Canon) (c : BitVec 4) (q : BitVec 6) (cfg : Bool) (v : Word) :
    (execQueueConfigWrite c q cfg v s).Canon :=
  Out.canon_next (by simp [hs, apply_ite State.mem])

@[simp] theorem execDoorbell_canon {s : State} (hs : s.mem.Canon) (c : BitVec 4) (q : BitVec 6) (v : Word) : (execDoorbell c q v s).Canon :=
  Out.canon_next (by simp [hs, apply_ite State.mem])

@[simp] theorem State.failNode_mem (s : State) (c q i cause : Nat) : (s.failNode c q i cause).mem = s.mem := by simp [State.failNode]

@[simp] theorem execGraphHaltComplete_canon {s : State} (hs : s.mem.Canon) (c : BitVec 4) (q : BitVec 6) : (execGraphHaltComplete c q s).Canon :=
  Out.canon_next (by simp [hs, apply_ite State.mem])

@[simp] theorem execGraphStart_canon {s : State} (hs : s.mem.Canon) (c : BitVec 4) (q : BitVec 6) : (execGraphStart c q s).Canon := by
  fun_cases execGraphStart
  grind [Out.canon_next, !. State.failNode_mem, !. State.freshId_mem, !. State.setQueue_mem, !. State.unitAccess_canon]

@[simp] theorem State.setNode_mem (s : State) (c q i : Nat) (n : GNode) : (s.setNode c q i n).mem = s.mem := by simp [State.setNode]

@[simp] theorem State.startNode_mem (s : State) (c q i : Nat) : (s.startNode c q i).mem = s.mem := by
  unfold State.startNode
  dsimp only
  split <;> simp

@[simp] theorem State.nodeGo_canon {s : State} (hs : s.mem.Canon) {body : State → Graph → GNode → State}
    (hb : ∀ t g n, t.mem.Canon → (body t g n).mem.Canon) (c q i kind : Nat) : (s.nodeGo c q i kind body).mem.Canon := by
  fun_cases State.nodeGo s c q i kind body <;> grind [!. State.setNode_mem, !. State.startNode_mem, !. State.takeErr_mem, !. State.failNode_mem]

@[simp] theorem State.nodeDone_mem (s : State) (c q i : Nat) (n : GNode) : (s.nodeDone c q i n).mem = s.mem := by simp [State.nodeDone]

@[simp] theorem State.nodeRead_canon {s : State} (hs : s.mem.Canon) {k : State → GNode → List Word → State}
    (hk : ∀ t n ws, t.mem.Canon → (k t n ws).mem.Canon) (c q i : Nat) (n : GNode) (va : Word) (len : Nat) :
    (s.nodeRead c q i n va len k).mem.Canon := by
  fun_cases State.nodeRead <;> grind [!. State.setNode_mem, !. State.unitAccess_canon, !. State.failNode_mem]

@[simp] theorem execKernelNode_canon {s : State} (hs : s.mem.Canon) (c : BitVec 4) (q : BitVec 6) (i : Nat) : (execKernelNode c q i s).Canon := by
  refine Out.canon_next (State.nodeGo_canon hs (fun t g n ht => ?_) _ _ _ _)
  split
  · exact State.nodeRead_canon ht (fun t n r ht => by split <;> simpa using ht) ..
  · split
    · split
      · split <;> simpa using ht
      · exact ht
    · exact ht
  · exact ht

@[simp] theorem execKernelNodeAdmit_canon {s : State} (hs : s.mem.Canon) (c : BitVec 4) (q : BitVec 6) (i : Nat) :
    (execKernelNodeAdmit c q i s).Canon :=
  Out.canon_next (by simp [hs, apply_ite State.mem])

@[simp] theorem execCopyNode_canon {s : State} (hs : s.mem.Canon) (c : BitVec 4) (q : BitVec 6) (i : Nat) : (execCopyNode c q i s).Canon := by
  refine Out.canon_next (State.nodeGo_canon hs (fun t g n ht => ?_) _ _ _ _)
  grind [!. State.setNode_mem, !. State.failNode_mem, !. State.unitAccess_canon, !. State.writeVA_canon, Mem.canon_taint]

@[simp] theorem execSignalNode_canon {s : State} (hs : s.mem.Canon) (c : BitVec 4) (q : BitVec 6) (i : Nat) : (execSignalNode c q i s).Canon := by
  refine Out.canon_next (State.nodeGo_canon hs (fun t g n ht => ?_) _ _ _ _)
  dsimp only
  split
  · exact ht
  · split
    · have h := State.unitAccess_canon ht (t.schedUnit c.toNat q.toNat i) c.toNat (.atomic 0 n.opa 8 [n.opb]) n.hold
      split <;> rename_i heq <;> rw [heq] at h <;> simpa using h
    · have h := State.writeVA_canon ht c.toNat (t.schedUnit c.toNat q.toNat i) n.opa (toBytes 8 n.opb.toNat) false true []
      split <;> simpa using h

@[simp] theorem execCopyNodeComplete_canon {s : State} (hs : s.mem.Canon) (c : BitVec 4) (q : BitVec 6) (i : Nat) :
    (execCopyNodeComplete c q i s).Canon := by
  refine Out.canon_next ?_
  split
  · split
    · exact State.nodeGo_canon hs (fun t g n ht => by split <;> simpa using ht) _ _ _ _
    · exact hs
  · exact hs

@[simp] theorem execWaitNodeRead_canon {s : State} (hs : s.mem.Canon) (c : BitVec 4) (q : BitVec 6) (i : Nat) : (execWaitNodeRead c q i s).Canon := by
  simp +contextual [execWaitNodeRead, hs, apply_ite State.mem]

@[simp] theorem execWaitNodeTimeout_canon {s : State} (hs : s.mem.Canon) (c : BitVec 4) (q : BitVec 6) (i : Nat) :
    (execWaitNodeTimeout c q i s).Canon := by
  fun_cases execWaitNodeTimeout
  grind [Out.canon_next, !. State.failNode_mem]

@[simp] theorem State.markRange_mem (s : State) (c q i : Nat) (n : GNode) (done : Bool) : (s.markRange c q i n done).mem = s.mem :=
  State.foldl_mem (fun t j => by split <;> simp) _ _

@[simp] theorem execConditionalNode_canon {s : State} (hs : s.mem.Canon) (c : BitVec 4) (q : BitVec 6) (i : Nat) :
    (execConditionalNode c q i s).Canon := by
  refine Out.canon_next (State.nodeGo_canon hs (fun t g n ht => ?_) _ _ _ _)
  split
  · exact State.nodeRead_canon ht (fun t n w ht => by split <;> simpa using ht) ..
  · split <;> simpa using ht

@[simp] theorem execLoopNodeEvaluate_canon {s : State} (hs : s.mem.Canon) (c : BitVec 4) (q : BitVec 6) (i : Nat) :
    (execLoopNodeEvaluate c q i s).Canon := by
  refine Out.canon_next (State.nodeGo_canon hs (fun t g n ht => ?_) _ _ _ _)
  extract_lets mode finish pass after
  have hfinish (t : State) (n : GNode) : (finish t n).mem = t.mem := by simp [finish]
  have hpass (t : State) (n : GNode) : (pass t n).mem = t.mem := by simp [pass]
  have hafter (t : State) (n : GNode) : (after t n).mem = t.mem := by simp [after, hfinish, apply_ite State.mem]
  have hread {f g : State → GNode → State} (hf : ∀ t n, (f t n).mem = t.mem) (hg : ∀ t n, (g t n).mem = t.mem) :
      (t.nodeRead c.toNat q.toNat i n n.opa 8 fun s n w => if n.test (wAt w 0) then f s n else g s n).mem.Canon :=
    State.nodeRead_canon ht (fun t n w ht => by split <;> simpa [hf, hg] using ht) ..
  split
  · split
    · simpa [hpass] using ht
    · exact hread hpass hfinish
  · split
    · exact ht
    · split <;> simpa [hafter] using ht
  · exact hread hafter hfinish
  · exact ht

@[simp] theorem execEndNode_canon {s : State} (hs : s.mem.Canon) (c : BitVec 4) (q : BitVec 6) : (execEndNode c q s).Canon := by
  refine Out.canon_next (State.nodeGo_canon hs (fun t g n ht => ?_) _ _ _ _)
  extract_lets u fin
  have hfin {t : State} (ht : t.mem.Canon) : (fin t).mem.Canon := by simpa [fin] using ht
  split
  · exact hfin ht
  · split
    · exact ht
    · have h := State.unitAccess_canon ht u c.toNat (.atomic 0 g.doneAddr 8 [1]) n.hold
      split <;> rename_i heq <;> rw [heq] at h <;> simpa [fin] using h

/-! ### Contexts, power, registers and the host interface (R81 to R83, R93, R102, R149, R265 to R267, R447 to R459) -/

@[simp] theorem State.ctxBadCmd_mem (s : State) (n : Nat) : (s.ctxBadCmd n).mem = s.mem := by
  unfold State.ctxBadCmd
  split <;> rfl

@[simp] theorem State.resetQueues_mem (s : State) (n : Nat) : (s.resetQueues n).mem = s.mem := by rfl

@[simp] theorem execCtxCreate_canon {s : State} (hs : s.mem.Canon) (n : BitVec 4) : (execCtxCreate n s).Canon :=
  Out.canon_next (by simp [hs, apply_ite State.mem])

@[simp] theorem State.skipStopped_mem (s : State) (n : Nat) : (s.skipStopped n).mem = s.mem := by rfl

@[simp] theorem execCtxStart_canon {s : State} (hs : s.mem.Canon) (n : BitVec 4) : (execCtxStart n s).Canon := by
  unfold execCtxStart
  dsimp only
  repeat' split
  all_goals simp [hs]

@[simp] theorem execCtxStop_canon {s : State} (hs : s.mem.Canon) (n : BitVec 4) : (execCtxStop n s).Canon :=
  Out.canon_next (by simp [hs, apply_ite State.mem])

@[simp] theorem State.discardCtx_mem (s : State) (n : Nat) : (s.discardCtx n).mem = s.mem := by
  simp [State.discardCtx]

@[simp] theorem execCtxDestroy_canon {s : State} (hs : s.mem.Canon) (n : BitVec 4) : (execCtxDestroy n s).Canon :=
  Out.canon_next (by simp [hs, apply_ite State.mem])

@[simp] theorem execCtxcmdUndefined_canon {s : State} (hs : s.mem.Canon) (n : BitVec 4) : (execCtxcmdUndefined n s).Canon :=
  Out.canon_next (by simp [hs])

@[simp] theorem execCtxQuiesceComplete_canon {s : State} (hs : s.mem.Canon) (n : BitVec 4) : (execCtxQuiesceComplete n s).Canon :=
  Out.canon_next (by simp [hs, apply_ite State.mem])

@[simp] theorem execCtxDrainComplete_canon {s : State} (hs : s.mem.Canon) (n : BitVec 4) : (execCtxDrainComplete n s).Canon :=
  Out.canon_next (by simp [hs, apply_ite State.mem])

@[simp] theorem execConfigRegisterWrite_canon {s : State} (hs : s.mem.Canon) (off : Nat) (v : Word) : (execConfigRegisterWrite off v s).Canon := by
  fun_cases execConfigRegisterWrite
  grind [Out.canon_next, !. State.setCtxAt_mem]

@[simp] theorem execFrctlWrite_canon {s : State} (hs : s.mem.Canon) (n : BitVec 4) (v : Word) : (execFrctlWrite n v s).Canon :=
  Out.canon_next (by simp [hs])

@[simp] theorem State.setIslands_mem (s : State) (f : Nat → Island → Island) : (s.setIslands f).mem = s.mem := by rfl

@[simp] theorem execPowerRegrant_canon {s : State} (hs : s.mem.Canon) (grants duties : List Nat) : (execPowerRegrant grants duties s).Canon := by
  simp [execPowerRegrant, hs]

@[simp] theorem execPatrolScrub_canon {s : State} (hs : s.mem.Canon) (sp : BitVec 2) (line : Nat) (err : BitVec 2) :
    (execPatrolScrub sp line err s).Canon := by
  refine Out.canon_next ?_
  split
  · exact hs
  · split
    · exact hs
    · split
      · exact hs
      · exact hs
      · dsimp only
        split <;> exact hs

@[simp] theorem execModuleReset_canon {s : State} (hs : s.mem.Canon) (verified : Bool) : (execModuleReset verified s).Canon :=
  Out.canon_next ⟨Tab.wf_nil 0, Tab.wf_nil 0, hs.2.2⟩

@[simp] theorem State.bringUp_mem (s : State) : (s.bringUp).mem = s.mem := by simp [State.bringUp, apply_ite State.mem]

@[simp] theorem execCsrr_canon {s : State} (hs : s.mem.Canon) (d : BitVec 6) (c : BitVec 12) : (execCsrr d c s).Canon := by
  unfold execCsrr
  split <;> simp [hs, State.result_mem]

@[simp] theorem execCsrw_canon {s : State} (hs : s.mem.Canon) (a : BitVec 6) (c : BitVec 12) : (execCsrw a c s).Canon := by
  fun_cases execCsrw
  grind [Out.canon_next, !. State.issueTo_mem, !. State.raise_mem, !. State.setTask_mem]

@[simp] theorem State.after_canon {s : State} (hs : s.mem.Canon) {o : Out} (ho : o.Canon) : (s.after o).mem.Canon := by
  unfold State.after
  split
  · exact ho _ rfl
  · exact hs

@[simp] theorem State.writePageReg_mem (s : State) (off : Nat) (v : Word) : (s.writePageReg off v).mem = s.mem := by
  simp [State.writePageReg, apply_ite State.mem]

@[simp] theorem State.writeLinkBlock_mem (s : State) (off : Nat) (v : Word) : (s.writeLinkBlock off v).mem = s.mem := by
  simp [State.writeLinkBlock, apply_ite State.mem]

@[simp] theorem State.writeLinkReg_mem (s : State) (n off : Nat) (v : Word) : (s.writeLinkReg n off v).mem = s.mem := by
  simp [State.writeLinkReg, apply_ite State.mem]

@[simp] theorem State.writeRetrReg_mem (s : State) (r off : Nat) (v : Word) : (s.writeRetrReg r off v).mem = s.mem := by
  simp [State.writeRetrReg, apply_ite State.mem]

@[simp] theorem execRegisterWrite_canon {s : State} (hs : s.mem.Canon) (off : Nat) (v : Word) : (execRegisterWrite off v s).Canon := by
  refine Out.canon_next ?_
  dsimp only
  repeat' split
  all_goals simpa using hs

@[simp] theorem ctxCommand_canon {s : State} (hs : s.mem.Canon) (n : BitVec 4) (v : Word) : (ctxCommand n v s).Canon := by
  unfold ctxCommand
  split <;> simp [hs]

@[simp] theorem queueCommand_canon {s : State} (hs : s.mem.Canon) (c : BitVec 4) (q : BitVec 6) (v : Word) : (queueCommand c q v s).Canon := by
  unfold queueCommand
  split <;> simp [hs]

@[simp] theorem linkCommand_canon {s : State} (hs : s.mem.Canon) (n : Nat) (v : Word) : (linkCommand n v s).mem.Canon := by
  unfold linkCommand
  extract_lets l s1 s2
  have h1 : s1.mem.Canon := by simpa [s1] using hs
  have h2 : s2.mem.Canon := by
    dsimp only [s2]
    split <;> simp [h1]
  split <;> simp [h2]

@[simp] theorem threadCommand_canon {s : State} (hs : s.mem.Canon) (r t : Nat) (v : Word) : (threadCommand r t v s).mem.Canon := by
  unfold threadCommand
  extract_lets on s1
  have h1 : s1.mem.Canon := by simpa [s1] using hs
  split
  · simp [h1]
  · split <;> simp [h1]

@[simp] theorem State.barWrite_canon {s : State} (hs : s.mem.Canon) (bar off : Nat) (v : Word) : (s.barWrite bar off v).mem.Canon := by
  fun_cases State.barWrite <;> simp +zetaDelta [hs]

@[simp] theorem State.drainBar_canon {s : State} (hs : s.mem.Canon) : (s.drainBar).mem.Canon := by
  fun_cases State.drainBar <;> grind [!. State.barWrite_canon, !. State.rereadFor_canon, !. State.settle_canon]

@[simp] theorem State.alu2_mem (s : State) (w : Bool) (d : Dst) (a b : Src) (lam : Nat) (f : Nat → Nat → Nat → Int) :
    (s.alu2 w d a b lam f).mem = s.mem := by
  simp [State.alu2]

@[simp] theorem State.aluDiv_mem (s : State) (w : Bool) (d : Dst) (a b : Src) (f : Nat → Nat → Nat → Int) : (s.aluDiv w d a b f).mem = s.mem := by
  unfold State.aluDiv
  split <;> simp

@[simp] theorem State.alu1_mem (s : State) (w : Bool) (d : Dst) (a : Src) (f : Nat → Nat → Int) : (s.alu1 w d a f).mem = s.mem := by simp [State.alu1]

@[simp] theorem State.aluI_mem (s : State) (d : Dst) (a : Src) (c : Int) (f : Nat → Nat → Nat → Int) : (s.aluI d a c f).mem = s.mem := by
  simp [State.aluI]

/-! ### Bundles, actions and the step (R48 to R68, R170 to R172) -/

@[simp] theorem State.choose_mem (s : State) (core slot : Nat) : (s.choose core slot).mem = s.mem := by
  simp only [State.choose, State.setCoreAt_mem]
  exact State.foldl_mem (fun t x => t.setTaskAt_mem ..) _ s

theorem State.pick_mem {s : State} {core : Nat} {r : State × Nat} (h : s.pick core = some r) : r.1.mem = s.mem := by
  unfold State.pick at h
  split at h
  · obtain ⟨x, -, rfl⟩ := Option.map_eq_some_iff.1 h
    simp [apply_ite State.mem]
  · split at h
    · cases h
      rfl
    · obtain ⟨x, -, rfl⟩ := Option.map_eq_some_iff.1 h
      simp

@[simp] theorem State.raiseBundle_mem (s : State) (cause mask : Nat) (tval : Word) : (s.raiseBundle cause mask tval).mem = s.mem := by
  unfold State.raiseBundle
  dsimp only
  split <;> simp [State.trapped_mem]

/-- Every instruction and event keeps the canonical form: by what its function does to memory, listed in the sections above. -/
theorem exec_canon (i : Instr) {s : State} (hs : s.mem.Canon) : Out.Canon (exec i s) := by
  cases i with
  | nop | add | addi | sub | sadd | ssub | mul | mulh | mulhu | div | divu | rem | remu | and | andi | or | ori | xor | xori | shl | shli
    | shr | shri | sra | srai | min | max | minu | maxu | clz | cls | popc | sext | lui | cmp | cmpi | qop | qmovQFromG | qmovGFromQ
    | qmovAllg | qmovAllq | sel | br | brt | brf | call | callt | ret | jmpt | lpad | loop | loopi | yield | twaitAll | twait | launch
    | launchW | ldb | lds | ldw | ldd | stb | sts | stw | std | aadd | asadd | amin | amax | aand | aor | axchg | acas | pgpref | pgprefRec
    | pgprefRecw | vadd | vsub | vsadd | vssub | vmul | vmulh | vmulhQ | vmac | vmin | vmax | vabs | vneg | vand | vor | vxor | vshl
    | vshlS | vshr | vsra | vnshr | vcmp | vsel | vkopAnd | vkopOr | vkopXor | vkopAndn | vkopFromv | vkopTov | vkopFromg | vkopTog
    | vkopPopc | vcvt | vwiden | vpack | vunpk | vreds | vredsSq | vredmMax | vredmMin | vredmAmax | vscan | vscanEx | vbcast | vmovi
    | vcls | vclsMin | vrnds | vrndsNar | vexp2 | vexp2Q | vlog2 | vrcp | vrsq | vdivq | voptm | voptv | vopts | voptmL | voptvL | voptsL
    | tmma | tmmas | tmmao | algld | tmmaa | tmmaaSw | tconj | tnorm | tacc | taccZ | tzero | tdrain | tdrainZ | tresc | trescZ | txps
    | tld | tst | tstx | tcpyMm | tcpyTm | tcpyMt | tcpyTt | tcpyd | tmskld | noise | collOpen | collRun | collShrink | collJoin
    | collCatch | collClose | appendRowArrival | i3cPowerLimitWrite | coolantLimit | hostLinkDown | lpddr6Refresh | hostLinkUp =>
    exact Out.canon_next (by simp [hs])
  | twaitZ | vshuf | vpld | vld | vst | vldr | vstr | tcens | hostBarAccess | laneLost | laneRetrainComplete | laneBackgroundCheck
    | leaseRefusalArrival | leaseRenewalArrival | reclaimNoticeArrival | evictionReportArrival | attestationRequest | islandGrantExceeded =>
    exact Out.canon_next (by simp [hs, apply_ite State.mem])
  | vpsw | vpswAll => exact Out.canon_next (by simp only [apply_ite State.mem, State.issueTo_mem, ite_self, hs])
  | lbrk | waitc | waite | endTask | trapi | eret | csrr | csrw | fence | barinit | bararr | barwait | barwaitA | barq | ldAcq | stRel
    | ldh | chkh | acas2 | remop | pgdisc | pkget | pkreply | pkfwd | pkdone | vbcastV | vextr | vgath | vscat | vtld | vtst | vdefer
    | vdrain | tdset | tscl | tsclZ | dset | takePendingTrap | ctxCreate | ctxStart | ctxStop | ctxDestroy | ctxcmdUndefined
    | ctxQuiesceComplete | ctxDrainComplete | configRegisterWrite | frctlWrite | registerWrite | accessAtHomeController
    | memoryReplyArrival | ptinv | ptinvComplete | pgabort | fgenFlush | miggo | migrationComplete | launchRecordArrival | kernelPlacement
    | taskEndComplete | monopolyWatchdogExpiry | freezeConversion | tileTaskStart | tileTaskComplete | copyBurstReply | missedPromise
    | waiteReread | barrierArrival | barrierBreak | queueEnable | queueDisable | queueRetry | queueSkip | qcmdUndefined | queueConfigWrite
    | doorbell | graphStart | kernelNode | kernelNodeAdmit | copyNode | copyNodeComplete | signalNode | waitNodeRead | waitNodeTimeout
    | conditionalNode | loopNodeEvaluate | endNode | graphHaltComplete | preempt | preemptionLanding | preemptionForced | saveComplete
    | taskResume | lnkctlTrain | lnkctlDown | linkTrainingComplete | linkTrainingTimeout | linkWidthAgreed | laneThresholdCrossed
    | laneRetrainTimeout | linkWiden | codewordReceived | replayRequestReceived | replayAckTimeout | packetRoute | farDepthTimeout
    | rotorEnable | rotorDwellStart | rotorGuardStart | rotorLockTimeout | packetArrivalAtTarget | e2eAckArrival | e2eResendTimeout
    | resetNoticeArrival | rtThreadStart | rtThreadStop | llcmdGrant | llcmdReclaim | blcmdExpect | blcmdRelease | blcmdClear
    | leaseGrantArrival | leaseAcceptArrival | leaseGrantTimeout | leaseTermExpiry | leaseRenewalSend | leaseLapse | evictionComplete
    | reclaimForceTimeout | collStepEnd | collStepSend | collStepRecv | collStepPsend | collStepRrs | collStepRed | collStepCopy
    | collStepWait | collStepLoop | collStepEndl | collStepAppend | collStepA2a | collStepSignal | collStepSar | collMessageArrival
    | collStepTimeout | collCatchComplete | sarRouterCombine | sarPartialResend | powerRegrant | moduleReset | patrolScrub =>
    simp [exec, hs]

theorem execSlot_canon {s : State} (hs : s.mem.Canon) (n : Nat) (i : Instr) : (execSlot n i s).Canon := by
  unfold execSlot
  split
  · next r h =>
    have hr : r.mem.Canon := exec_canon i (s := { s with iss := { s.iss with pos := n, slotRaised := false } }) hs r h
    exact Out.canon_next (by simp [apply_ite State.mem, hr])
  · next h => exact fun t e => absurd e (h t)

theorem execSlots_canon {s : State} (hs : s.mem.Canon) (is : List (Nat × Instr)) : (execSlots is s).Canon := by
  induction is generalizing s with
  | nil => exact Out.canon_next hs
  | cons x is ih =>
    unfold execSlots
    split
    · next t h => exact ih (execSlot_canon hs _ _ t h)
    · next h => exact fun t e => absurd e (h t)

@[simp] theorem State.flow_mem (s : State) (act : Act) (pc : Word) (kept : Bool) : (s.flow act pc kept).mem = s.mem := by
  fun_cases State.flow <;> simp +zetaDelta [*]

@[simp] theorem State.issuedBy_mem (s : State) (core slot : Nat) (t : Task) : (s.issuedBy core slot t).mem = s.mem := by
  unfold State.issuedBy
  dsimp only
  repeat' split
  all_goals simp

@[simp] theorem State.endTrapped_mem (s : State) (pc : Word) : (s.endTrapped pc).mem = s.mem := by simp [State.endTrapped, State.trapped_mem]

@[simp] theorem State.endBundle_mem (s : State) (old : Task) (kept : Bool) : (s.endBundle old kept).mem = s.mem := by
  fun_cases State.endBundle <;> simp +zetaDelta [*]

@[simp] theorem State.stall_mem (s : State) (core : Nat) : (s.stall core).mem = s.mem := by rfl

theorem State.runBundle_canon {s : State} (hs : s.mem.Canon) (core slot : Nat) (b : Bundle) : (s.runBundle core slot b).Canon := by
  unfold State.runBundle
  dsimp only
  split
  · exact Out.canon_next (by simpa using hs)
  · split
    · next r h =>
      have hr : r.mem.Canon := execSlots_canon (by exact hs) _ r h
      exact Out.canon_next (by split <;> simp [hs, hr])
    · next h => exact fun t e => absurd e (h t)

@[simp] theorem State.issueBundle_canon {s : State} (hs : s.mem.Canon) (core slot : Nat) : (s.issueBundle core slot).Canon := by
  fun_cases State.issueBundle <;> grind [Out.canon_next, !. State.fetch_canon, !. State.raiseBundle_mem, !. State.runBundle_canon, !. State.stall_mem]

@[simp] theorem State.sleepAgain_mem (s : State) (core slot : Nat) : (s.sleepAgain core slot).mem = s.mem := by
  simp [State.sleepAgain, apply_ite State.mem]

@[simp] theorem State.chooseNext_mem (s : State) (core : Nat) : (s.chooseNext core).mem = s.mem := by
  fun_cases State.chooseNext <;> simp

@[simp] theorem State.convertOn_canon {s : State} (hs : s.mem.Canon) (core : Nat) : (s.convertOn core).mem.Canon := by
  unfold State.convertOn
  dsimp only
  split <;> simp [hs]

theorem State.turnOn_canon {s : State} (hs : s.mem.Canon) (core : Nat) : (s.turnOn core).Canon := by
  unfold State.turnOn
  extract_lets s1
  split
  · exact Out.canon_next hs
  · next s2 slot hp =>
    have h2 : s2.mem.Canon := (State.pick_mem hp).symm ▸ hs
    exact Out.canon_ite (Out.canon_next h2) <| Out.canon_ite (Out.canon_next (by simpa using h2)) <| Out.canon_ite (Out.canon_next h2) <|
      Out.canon_ite (Out.canon_next (by simpa using h2)) <| Out.canon_ite (execTakePendingTrap_canon h2 _ _) (State.issueBundle_canon h2 _ _)

theorem State.issueOn_canon {s : State} (hs : s.mem.Canon) (core : Nat) : (s.issueOn core).Canon := by
  unfold State.issueOn
  split
  · next t h => exact Out.canon_next (by simpa using State.turnOn_canon hs core t h)
  · next h => exact fun t e => absurd e (h t)

@[simp] theorem State.taskActs_keep (s : State) (core slot : Nat) (t : Task) : Acts.Keep (s.taskActs core slot t) := by
  simp +contextual [State.taskActs]

@[simp] theorem State.offActs_keep (s : State) (o : OffTask) : Acts.Keep (s.offActs o) := by
  simp +contextual [State.offActs]

@[simp] theorem State.coreActs_keep (s : State) (core : Nat) (c : CoreSt) : Acts.Keep (s.coreActs core c) := by
  have hstart (en : EngineId) (g : State → State)
      (h : (s.nextDep core en).map (fun ed => fun s : State => s.after (execTileTaskStart core ed.1 s)) = some g) (t : State) (ht : t.mem.Canon) : (g t).mem.Canon := by
    obtain ⟨ed, -, rfl⟩ := Option.map_eq_some_iff.1 h
    simp [ht]
  unfold State.coreActs
  refine Acts.keep_append.2 ⟨Acts.keep_append.2 ⟨Acts.keep_append.2 ⟨Acts.keep_append.2 ⟨?_, ?_⟩, ?_⟩, ?_⟩, ?_⟩
  · split
    · exact Acts.keep_nil
    · intro g hg t ht
      obtain ⟨en, -, h⟩ := List.mem_filterMap.1 hg
      exact hstart en g h t ht
  all_goals simp +contextual

@[simp] theorem State.queueActs_keep (s : State) (k : Nat) (x : HostQueue) : Acts.Keep (s.queueActs k x) := by
  unfold State.queueActs
  extract_lets c q next node nodes start
  have hnode (g : Graph) (i : Nat) : Acts.Keep (node g i) := by
    dsimp only [node]
    split
    · exact Acts.keep_nil
    · split <;> simp +contextual
  have hnodes : Acts.Keep nodes := by
    dsimp only [nodes]
    split
    · simp [hnode]
    · exact Acts.keep_nil
  simp +contextual [hnodes]

@[simp] theorem State.collActs_keep (s : State) (c : Nat) (k : Coll) : Acts.Keep (s.collActs c k) := by
  unfold State.collActs
  extract_lets n go steps
  have hsteps : Acts.Keep steps := by
    dsimp only [steps]
    split
    · exact Acts.keep_nil
    · split <;> simp +contextual [go]
  simp +contextual [hsteps, go]

@[simp] theorem State.timedActs_keep (s : State) : Acts.Keep s.timedActs := by
  unfold State.timedActs
  extract_lets now link lender borrower resends
  have hlink (nl : Nat × Link) : Acts.Keep (link nl) := by simp +contextual [link]
  have hlender (ml : Nat × Lender) : Acts.Keep (lender ml) := by
    dsimp only [lender]
    split <;> simp +contextual
  have hborrower (nb : Nat × Borrower) : Acts.Keep (borrower nb) := by
    dsimp only [borrower]
    split <;> simp +contextual
  simp +contextual [hlink, hlender, hborrower, resends]

@[simp] theorem State.allActs_keep (s : State) : Acts.Keep s.allActs := by
  unfold State.allActs
  extract_lets sched go waits
  have hgo (b : Bool) {f : State → Out} (hf : ∀ s : State, s.mem.Canon → (f s).Canon) : Acts.Keep (go b f) := by
    dsimp only [go]
    split <;> simp +contextual [hf]
  simp +contextual [hgo]
  split
  · exact hgo _ fun _ h => execKernelPlacement_canon h _
  · exact Acts.keep_nil

theorem State.firstAct_canon {s t : State} (hs : s.mem.Canon) {l : List (State → State)} (hl : Acts.Keep l)
    (h : s.firstAct l = some t) : t.mem.Canon := by
  induction l with
  | nil => cases h
  | cons f l ih =>
    obtain ⟨hf, hl⟩ := List.forall_mem_cons.1 hl
    unfold State.firstAct at h
    dsimp only at h
    split at h
    · exact ih hl h
    · cases h
      exact hf s hs

theorem State.unitAct_canon {s t : State} (hs : s.mem.Canon) (h : s.unitAct = some t) : t.mem.Canon := by
  unfold State.unitAct at h
  split at h
  · cases h
  · exact State.firstAct_canon hs s.allActs_keep h

theorem step_canon {s t : State} (hs : s.mem.Canon) (h : step s = .next t) : t.mem.Canon := by
  unfold step at h
  split at h
  · split at h
    · exact exec_canon _ (by exact hs) t h
    · cases h
  · split at h
    · next hu =>
      cases h
      exact State.unitAct_canon hs hu
    · split at h
      · split at h
        · next hi =>
          cases h
          have hi := State.issueOn_canon hs _ _ hi
          exact hi
        · exact State.issueOn_canon hs _ _ h
      · cases h
        exact s.endClk_mem.symm ▸ hs

/-- Settles O59: canonical form is kept by each action of a step, through `exec_canon` for instructions and events. -/
theorem stepsKeepMemoryCanonical : Obligations.StepsKeepMemoryCanonical :=
  fun _ _ hs h => step_canon hs h

end Sys2Proof.Machine
end

section
/-! ### PGDISC in the device aperture (R93, R119)

R93 puts the device aperture at the IAs from 0xFFFF000000000 on, whatever the page table says there, so PGDISC discards nothing in it. The
walk alone still reaches a leaf there, and the statement asks no more of a page than that. -/

namespace Sys2Proof.Machine

/-- A RESIDENT leaf of a page of 2^30 bytes at address 0, of kind U, with every permission. -/
def apertureLeaf : Word := BitVec.ofNat 64 (2 ^ 63 + 9 * 2 ^ 55 + 2 * 2 ^ 53 + 0xE00)

/-- A page table in LPDDR6 that maps IA 0xFFFF000000000, the first of the device aperture, to `apertureLeaf`: an entry of each level. -/
def apertureTable : Tab Byte :=
  [(0x10078, 2 ^ 63 + 2 ^ 62 + 0x11000), (0x11FF8, 2 ^ 63 + 2 ^ 62 + 0x12000), (0x12E00, apertureLeaf.toNat)].foldl
    (fun t w => Tab.setMany 0 t w.1 (toBytes 8 w.2)) []

/-- A task whose G4 is VA 2^40, which its context maps to the first IA of the device aperture, and whose G5 is 2^30, the page size there. -/
def apertureState : State := { State.reset with
  page := ⟨BitVec.ofNat 64 (2 ^ 63 + 0x10000), [], false, [], []⟩
  ctxs := [(1, { Ctx.zero with range := [(0, BitVec.ofNat 64 (2 ^ 63 + 2 ^ 40 + 36 * 64)), (1, BitVec.ofNat 64 (0xFFFF000000000 + 0x807))] })]
  tasks := [(0, { Task.empty with place := { Place.zero with ctx := 1 }, regs := { Task.empty.regs with g := [(4, 2 ^ 40), (5, 2 ^ 30)] } })]
  mem := { State.reset.mem with dram := apertureTable } }

/-- The leaf's word after an outcome. -/
def leafAfter : Out → Option Word
  | .next t => some (t.mem.dramWord 0x12E00)
  | _ => none

/-- PGDISC over the page leaves its leaf as it was. -/
theorem leafAfter_pgdisc_aperture : leafAfter (exec (.pgdisc ⟨4, false⟩ ⟨5, false⟩) apertureState) = some apertureLeaf := by
  decide +kernel

theorem apertureState_clearPort : apertureState.clearPort := by
  refine ⟨rfl, ?_, rfl, rfl, ?_, ?_, rfl⟩ <;> exact fun _ h => absurd h List.not_mem_nil

theorem apertureState_pieces :
    apertureState.pieces apertureState.task.place.ctx (2 ^ 40) (2 ^ 40 + 2 ^ 30) permW = [(2 ^ 40, 2 ^ 30, .ok (0, 0xFFFF000000000))] := by
  decide +kernel

theorem apertureState_walk : apertureState.walk 0xFFFF000000000 = .leaf apertureLeaf 0x12E00 := by decide +kernel

theorem leafCopies_aperture : leafCopies apertureLeaf 0x12E00 0xFFFF000000000 = [0x12E00] := by decide +kernel

/-- Refutes O16: a RESIDENT leaf that the page table holds for IAs of the device aperture is not discarded; the statement does not keep
its page below 0xFFFF000000000. -/
theorem not_pageDiscardAndPrefetchResults : ¬ Obligations.PageDiscardAndPrefetchResults := by
  intro h
  obtain ⟨-, -, -, hdisc⟩ := h.1 apertureState ⟨4, false⟩ ⟨5, false⟩ 0xFFFF000000000 0x12E00 apertureLeaf 0
  obtain ⟨t, ht, hleaf, -⟩ := hdisc (by decide) (by decide) apertureState_pieces apertureState_clearPort (by decide) (by decide)
    apertureState_walk (by decide) (by decide) (leafCopies_aperture ▸ by decide +kernel) (leafCopies_aperture ▸ List.pairwise_singleton _ _)
  have hkept := leafAfter_pgdisc_aperture
  rw [ht] at hkept
  have hzero := hleaf 0x12E00 (leafCopies_aperture ▸ List.mem_singleton_self _)
  rw [Option.some.inj hkept] at hzero
  exact absurd hzero (by decide)

end Sys2Proof.Machine
end

section
/-! ### A late cause of an access with two results (R115, R221)

An access of several results raises one cause: the first result that awaits it takes the cause and the others are gone (R221). The statement
gives the cause to every result that awaits the access, and does not say that a load has one. -/

namespace Sys2Proof.Machine

/-- A result of access 7 for a G register. -/
def awaitsSeven (g : Nat) : Pend := ⟨.g g, .await 7, 2, 0, 0x1000, false⟩

/-- A load of eight bytes at IA 0x1000, access 7 of the task on core 0 in slot 0, which a fault holds. -/
def faultedLoad : Held := { Held.new 7 (.core 0 0 0) 0 (.load 0x1000 8 false) 0 0x1000 with why := .flush, ia := 0x1000, parts := [(0, 0, 0x1000, 8)] }

/-- A task of which two results await that load. -/
def twoResultsState : State := { State.reset with
  held := [faultedLoad], tasks := [(0, { Task.empty with stat := .ready, inflight := [awaitsSeven 3, awaitsSeven 4] })] }

/-- A PGABORT of context 0 over the 4 KiB from IA 0x1000. -/
def abortWord : Word := BitVec.ofNat 64 (0x1000 + 12 * 64)

/-- The values in flight of the task on core 0 in slot 0 after an outcome. -/
def valuesAfter : Out → Option (List RVal)
  | .next t => some ((t.taskAt 0 0).inflight.map (·.val))
  | _ => none

/-- The abort gives its cause to the first result alone. -/
theorem valuesAfter_pgabort_twoResults : valuesAfter (exec (.pgabort abortWord) twoResultsState) = some [.late 0x08A 0x1000, .gone] := by
  decide +kernel

/-- Refutes O33: a PGABORT over a load with two results gives the second no cause. -/
theorem not_heldAccessesGoOn : ¬ Obligations.HeldAccessesGoOn := by
  intro h
  obtain ⟨-, -, -, -, habort, -⟩ := h twoResultsState faultedLoad 0 0 8 0 0 0x1000 abortWord false [] ⟨0, 0, 0, .core 0 0 0, 0, 0, 0, [], 0, false,
    false, false, 0, []⟩ [] 0 0
  have hquiet : (∀ cx ∈ twoResultsState.cores, cx.2.side = [] ∧ cx.2.fences = []) ∧ ∀ m, (twoResultsState.ctxAt m).recs = [] :=
    ⟨fun _ hc => absurd hc List.not_mem_nil, fun _ => rfl⟩
  have hload := (habort (by decide) ⟨rfl, by decide, rfl, rfl, rfl, rfl, hquiet, rfl, by decide, rfl, rfl, fun _ ha => absurd ha List.not_mem_nil, rfl,
    by decide⟩ rfl (by decide) rfl (by decide)).1 (by decide)
  obtain ⟨t, ht, -, htask, -⟩ := hload
  have hvals := valuesAfter_pgabort_twoResults
  rw [ht] at hvals
  have hgone := Option.some.inj hvals
  rw [htask] at hgone
  exact absurd hgone (by decide)

end Sys2Proof.Machine
end

section
/-! ### A read of the slot in focus that nothing delays (R86, R91, R106, R111)

An access keeps the translation it got at its issue in its parts, and what it reads follows them. With the port clear and its bytes in
this module's memory the read is over at once. -/

namespace Sys2Proof.Machine

/-! #### The parts of an access -/

/-- Every byte that the runs cover is one of the list, at the module and IA that its run gives it. -/
def RunsFrom (to_ : ByteLook → Nat × Nat) (bs : List ByteLook) (acc : List (Nat × Nat × Nat × Nat × ByteLook)) : Prop :=
  ∀ r ∈ acc, ∀ k < r.2.2.2.1, ∃ b ∈ bs, b.off = r.1 + k ∧ to_ b = (r.2.1, r.2.2.1 + k)

theorem runsFrom_addRun {same : ByteLook → ByteLook → Bool} {to_ : ByteLook → Nat × Nat} {bs : List ByteLook}
    {acc : List (Nat × Nat × Nat × Nat × ByteLook)} {b : ByteLook} (hb : b ∈ bs) (h : RunsFrom to_ bs acc) :
    RunsFrom to_ bs (addRun same to_ acc b) := by
  have hnew : RunsFrom to_ bs ((b.off, (to_ b).1, (to_ b).2, 1, b) :: acc) := by
    intro r hr k hk
    rcases List.mem_cons.1 hr with rfl | hr
    · obtain rfl : k = 0 := Nat.lt_one_iff.1 hk
      exact ⟨b, hb, rfl, rfl⟩
    · exact h r hr k hk
  cases acc with
  | nil => exact hnew
  | cons x rest =>
    obtain ⟨o, m, ia, n, l⟩ := x
    rw [addRun]
    split
    · next hj =>
      obtain ⟨ho, hm, hia, -⟩ := hj
      intro r hr k hk
      rcases List.mem_cons.1 hr with rfl | hr
      · rcases Nat.lt_succ_iff_lt_or_eq.1 hk with hk | rfl
        · exact h _ List.mem_cons_self k hk
        · exact ⟨b, hb, ho.symm, Prod.ext hm.symm hia.symm⟩
      · exact h r (List.mem_cons_of_mem _ hr) k hk
    · exact hnew

theorem exists_mem_of_mem_runs {same : ByteLook → ByteLook → Bool} {to_ : ByteLook → Nat × Nat} {bs : List ByteLook}
    {r : Nat × Nat × Nat × Nat} (hr : r ∈ runs same to_ bs) {k : Nat} (hk : k < r.2.2.2) :
    ∃ b ∈ bs, b.off = r.1 + k ∧ to_ b = (r.2.1, r.2.2.1 + k) := by
  obtain ⟨x, hx, rfl⟩ := List.mem_map.1 hr
  have hall : RunsFrom to_ bs (bs.foldl (addRun same to_) []) :=
    List.foldlRecOn (motive := RunsFrom to_ bs) bs _ (fun _ hn => absurd hn List.not_mem_nil) fun _ h _ hb => runsFrom_addRun hb h
  exact hall x (List.mem_reverse.1 hx) k hk

theorem Held.partAt_eq_some {h : Held} {off m ia : Nat} (hp : h.partAt off = some (m, ia)) :
    ∃ r ∈ h.parts, ∃ k < r.2.2.2, off = r.1 + k ∧ m = r.2.1 ∧ ia = r.2.2.1 + k := by
  obtain ⟨r, hr, he⟩ := Option.map_eq_some_iff.1 hp
  have hc := List.find?_some hr
  simp only [Bool.and_eq_true, decide_eq_true_eq] at hc
  injection he with hm hia
  exact ⟨r, List.mem_of_find?_eq_some hr, off - r.1, by omega, by omega, hm.symm, hia.symm⟩

/-- A byte of an access at va stands at its offset, with the translation of its address or an error as its look (R86). -/
theorem State.mem_placed {s : State} {h : Held} {va : Word} {n : Nat} (hs : h.req.spans = [(0, va, n)]) {b : ByteLook}
    (hb : b ∈ s.placed h) : b.off < n ∧ match s.xlate h.unit h.ctx (va + .ofNat 64 b.off) h.req.acc.need with
      | .error c => b.look = .xlat c
      | .ok (m, ia) => b.module = m ∧ b.ia = ia ∧ b.look = if s.lookOut h.unit m ia h.req.acc then .xlat 0x089 else .wait 0 := by
  simp only [State.placed, hs, List.flatMap_cons, List.flatMap_nil, List.append_nil, List.mem_map, upFrom_eq, List.mem_range,
    exists_exists_and_eq_and, Nat.zero_add] at hb
  obtain ⟨i, hi, rfl⟩ := hb
  cases hx : s.xlate h.unit h.ctx (va + .ofNat 64 i) h.req.acc.need <;> simp [hi, hx]

theorem State.parts_withParts {s : State} {h : Held} {va : Word} {n : Nat} (hs : h.req.spans = [(0, va, n)])
    (hr : ∀ v g, h.req ≠ .remop v g) :
    (s.withParts h).parts = runs (s.samePart h.unit h.ctx (va - .ofNat 64 0)) (fun b => (b.module, b.ia))
      (((s.placed h).filter fun b => b.xlat?.isNone).filter fun b => 0 ≤ b.off && b.off < 0 + n) := by
  unfold State.withParts
  dsimp only
  rw [hs, List.flatMap_cons, List.flatMap_nil, List.append_nil]
  split
  · next hq => exact absurd hq (hr _ _)
  · exact List.append_nil _

/-- The parts of an access at va give each byte that they cover the module and IA of its translation (R91). -/
theorem State.xlate_of_partAt {s : State} {h : Held} {va : Word} {n : Nat} (hs : h.req.spans = [(0, va, n)])
    (hr : ∀ v g, h.req ≠ .remop v g) {off m ia : Nat} (hp : (s.withParts h).partAt off = some (m, ia)) :
    s.xlate h.unit h.ctx (va + .ofNat 64 off) h.req.acc.need = .ok (m, ia) := by
  obtain ⟨r, hmem, k, hk, rfl, rfl, rfl⟩ := Held.partAt_eq_some hp
  rw [State.parts_withParts hs hr] at hmem
  obtain ⟨b, hb, hoff, hto⟩ := exists_mem_of_mem_runs hmem hk
  simp only [List.mem_filter] at hb
  obtain ⟨⟨hb, hx⟩, -⟩ := hb
  obtain ⟨-, hm⟩ := State.mem_placed hs hb
  rw [hoff] at hm
  split at hm
  · simp [ByteLook.xlat?, hm] at hx
  · next hok =>
    obtain ⟨h1, h2, -⟩ := hm
    rw [hok, ← h1, ← h2]
    exact congrArg _ hto

/-- What an access with its parts finds now is what its addresses name now (R91). -/
theorem State.looksOf_withParts {s : State} {h : Held} {va : Word} {n : Nat} (hs : h.req.spans = [(0, va, n)])
    (hr : ∀ v g, h.req ≠ .remop v g) :
    s.looksOf (s.withParts h) va n h.req.acc 0 = s.looks h.unit h.ctx va n h.req.acc := by
  refine List.map_congr_left fun i _ => ?_
  dsimp only
  split
  · next m ia hp =>
    have hx := State.xlate_of_partAt hs hr hp
    rw [Nat.zero_add] at hx
    simp only [State.lookU, hx, Nat.zero_add]
    rfl
  · simp only [Nat.zero_add]
    rfl

/-! #### The read -/

theorem State.looksAt_of_spans {s : State} {va : Word} {a : Acc} {ls : List Loc} (h : s.spans va a ls) :
    LooksAt (s.looks s.unit s.task.place.ctx va ls.length a) ls := by
  refine List.ext_getElem (by simp [State.looks, upFrom_eq]) fun i hi hl => ?_
  obtain ⟨kind, m, ia, hk⟩ := h i (ls[i]'(by simpa using hl)) (List.getElem?_eq_getElem _)
  simp [State.looks, upFrom_eq, hk, Look.loc?]

/-- Bytes that all lie in this module's memory have nothing to wait for. -/
theorem openLooks_of_mem {looks : List ByteLook} {miss : ByteLook → Option (Nat × Nat × Nat)}
    (h : ∀ b ∈ looks, ∃ l kind, b.look = .mem l kind) (hm : ∀ b ∈ looks, miss b = none) : openLooks looks miss none = none := by
  rw [openLooks, List.filterMap_eq_nil_iff.2 hm]
  split
  · next b hb =>
    obtain ⟨l, kind, hk⟩ := h b (List.mem_of_find?_eq_some hb)
    have := List.find?_some hb
    simp [hk] at this
  · split
    · next b hb =>
      obtain ⟨l, kind, hk⟩ := h b (List.mem_of_find?_eq_some hb)
      have := List.find?_some hb
      simp [hk] at this
    · rfl

/-- Bytes that all lie in sound memory are read (R86, R106). -/
theorem State.readLooks_of_looksAt {s : State} {looks : List ByteLook} {ls : List Loc} (h : LooksAt looks ls)
    (hbad : ∀ l ∈ ls, s.mem.bad l = false) (got : Tab Byte) (bad : List (Nat × Nat × Nat)) (dev : Bool) (taint : List Nat) :
    s.readLooks looks got bad dev taint = .ok (ls.map s.mem.rd) := by
  have hx : looks.findSome? ByteLook.xlat? = none := List.findSome?_eq_none_iff.2 fun b hb => by
    obtain ⟨l, kind, hk⟩ := h.of_mem hb
    simp [ByteLook.xlat?, hk]
  rw [State.readLooks]
  dsimp only
  rw [hx]
  dsimp only
  split
  · next he =>
    obtain ⟨b, hb, hfb⟩ := List.exists_of_findSome?_eq_some he
    obtain ⟨l, kind, hk⟩ := h.of_mem hb
    have hl : some l ∈ ls.map some := h ▸ List.mem_map.2 ⟨b, hb, by rw [hk]; rfl⟩
    simp [State.rdErr?, hk, hbad l (by simpa using hl)] at hfb
  · rw [openLooks_of_mem (fun b hb => h.of_mem hb) fun b hb => by obtain ⟨l, kind, hk⟩ := h.of_mem hb; simp [hk],
      Option.getD_none]
    refine congrArg RdRes.ok (List.ext_getElem (by simpa using congrArg List.length h) fun i hi hl => ?_)
    have hi' := List.getElem_of_eq h (i := i) (by simpa using hi)
    rw [List.length_map] at hi
    obtain ⟨l, kind, hk⟩ := h.of_mem (List.getElem_mem hi)
    rw [List.getElem_map, List.getElem_map, hk] at hi'
    simp [hk, ← Option.some.inj hi']

/-- A read of the task in focus through a clear port is over at once: its bytes, and nothing changes (R111). -/
theorem State.serveRead_of_clearPort {s : State} (h : s.clearPort) {x : Held} (hu : x.unit = s.unit) (hc : x.ctx = s.task.place.ctx)
    {va : Word} {ls : List Loc} (hsp : x.req.spans = [(0, va, ls.length)]) (hr : ∀ v g, x.req ≠ .remop v g)
    (ha : x.req.acc = .read) (hs : s.spans va .read ls) (hbad : ∀ l ∈ ls, s.mem.bad l = false) (dev : Bool)
    (k : List Byte → VReg) :
    s.serveRead (s.withParts x) va ls.length .read dev k = (s, .done (k (ls.map s.mem.rd))) := by
  have hl : s.looksOf (s.withParts x) va ls.length .read 0 = s.looks s.unit s.task.place.ctx va ls.length .read := by
    have := State.looksOf_withParts (s := s) hsp hr
    rwa [ha, hu, hc] at this
  have hunit : (s.withParts x).unit = s.unit := hu
  rw [State.serveRead, State.readPart]
  dsimp only
  rw [hl, State.readLooks_of_looksAt (State.looksAt_of_spans hs) hbad, State.demote_of_clearPort h, hunit, State.older_of_clearPort h]
  simp [Older.blocksAny, Older.blocks]

end Sys2Proof.Machine
end

section
/-! ### LAUNCH and LAUNCH.W (R154 to R157) -/

namespace Sys2Proof.Machine

theorem State.lookOut_of_lookU_mem {s : State} {u : UnitId} {ctx : Nat} {va : Word} {a : Acc} {l : Loc} {kind m ia : Nat}
    (h : s.lookU u ctx va a = (.mem l kind, m, ia)) : s.xlate u ctx va a.need = .ok (m, ia) ∧ s.lookOut u m ia a = false := by
  unfold State.lookU at h
  split at h
  · simp at h
  · next m' ia' hx =>
    obtain ⟨hl, rfl, rfl⟩ : s.lookAt u m' ia' a = .mem l kind ∧ m' = m ∧ ia' = ia := by simpa using h
    refine ⟨hx, ?_⟩
    cases ho : s.lookOut u m' ia' a with
    | false => rfl
    | true => simp [State.lookAt, ho] at hl

/-- An access to bytes that lie in this module's memory has no translation error (R86). -/
theorem State.issueErr_of_spans {s : State} {x : Held} (hu : x.unit = s.unit) (hc : x.ctx = s.task.place.ctx) {va : Word}
    {ls : List Loc} (hsp : x.req.spans = [(0, va, ls.length)]) (hs : s.spans va x.req.acc ls) : s.issueErr x = none := by
  refine List.findSome?_eq_none_iff.2 fun b hb => ?_
  obtain ⟨hoff, hm⟩ := State.mem_placed hsp hb
  obtain ⟨kind, m, ia, hk⟩ := hs b.off ls[b.off] (List.getElem?_eq_getElem hoff)
  obtain ⟨hx, ho⟩ := State.lookOut_of_lookU_mem hk
  rw [hu, hc, hx] at hm
  obtain ⟨-, -, hlook⟩ := hm
  simp [hlook, ho]

/-- A launch record that can be read is read at once (R141, R155). -/
theorem State.issue_launch {s : State} (h : s.clearPort) {x : Held} (hu : x.unit = s.unit) (hc : x.ctx = s.task.place.ctx)
    {va : Word} {w : Bool} (hq : x.req = .launch va w) {ls : List Loc} (hlen : ls.length = 160) (hs : s.spans va .read ls)
    (hbad : ∀ l ∈ ls, s.mem.bad l = false) : s.issue x = (s, .done (imgBytes (ls.map s.mem.rd))) := by
  have hsp : x.req.spans = [(0, va, ls.length)] := by rw [hq, hlen]; rfl
  have ha : x.req.acc = .read := by rw [hq]; rfl
  have hread := State.serveRead_of_clearPort h hu hc hsp (by simp [hq]) ha hs hbad false imgBytes
  have hreq : (s.withParts x).req = .launch va w := hq
  have hunit : (s.withParts x).unit = s.unit := hu
  rw [State.issue, State.issueErr_of_spans hu hc hsp (ha ▸ hs)]
  dsimp only
  rw [State.serve, hreq]
  dsimp only
  rw [hunit, State.older_of_clearPort h, ← hlen, hread]
  rfl

/-! #### The words of a record -/

theorem ofBytes_lt (bs : List Byte) : ofBytes bs < 2 ^ (8 * bs.length) := by
  induction bs with
  | nil => simp [ofBytes]
  | cons b bs ih =>
    have hb := b.isLt
    rw [ofBytes, List.length_cons, Nat.mul_succ, Nat.pow_add]
    omega

theorem ofBytes_append (xs ys : List Byte) : ofBytes (xs ++ ys) = ofBytes xs + 2 ^ (8 * xs.length) * ofBytes ys := by
  induction xs with
  | nil => simp [ofBytes]
  | cons b xs ih =>
    rw [List.cons_append, ofBytes, ofBytes, ih, List.length_cons, Nat.mul_succ, Nat.pow_add]
    ring

/-- The n bytes from k on are the bits from 8 k on (R3). -/
theorem ofBytes_take_drop {bs : List Byte} {k n : Nat} (h : k + n ≤ bs.length) :
    ofBytes ((bs.drop k).take n) = ofBytes bs / 2 ^ (8 * k) % 2 ^ (8 * n) := by
  have hk := ofBytes_append (bs.take k) (bs.drop k)
  have hn := ofBytes_append ((bs.drop k).take n) ((bs.drop k).drop n)
  rw [List.take_append_drop] at hk hn
  have lk := ofBytes_lt (bs.take k)
  have ln := ofBytes_lt ((bs.drop k).take n)
  rw [List.length_take, Nat.min_eq_left (by omega)] at hk lk
  rw [List.length_take, List.length_drop, Nat.min_eq_left (by omega)] at hn ln
  rw [hk, Nat.add_mul_div_left _ _ (Nat.two_pow_pos _), Nat.div_eq_of_lt lk, Nat.zero_add, hn, Nat.add_mul_mod_self_left,
    Nat.mod_eq_of_lt ln]

theorem toNat_imgBytes {bs : List Byte} (h : bs.length ≤ 256) : (imgBytes bs).toNat = ofBytes bs := by
  have hle := Nat.pow_le_pow_right Nat.two_pos (show 8 * bs.length ≤ 2048 by omega)
  rw [imgBytes, BitVec.toNat_ofNat, Nat.mod_eq_of_lt (Nat.lt_of_lt_of_le (ofBytes_lt bs) hle)]

/-- The words of an image of bytes from memory are the words that lie there (R151). -/
theorem State.words_imgBytes (s : State) {ls : List Loc} {n : Nat} (hn : 8 * n ≤ ls.length) (hl : ls.length ≤ 256) :
    ((upFrom 0 n).map fun k => ((imgBytes (ls.map s.mem.rd)) >>> (64 * k)).setWidth 64) = s.wordsAt ls n := by
  rw [State.wordsAt, upFrom_eq, List.map_map]
  refine List.map_congr_left fun k hk => BitVec.eq_of_toNat_eq ?_
  have hk : k < n := List.mem_range.1 hk
  have hw := ofBytes_take_drop (bs := ls.map s.mem.rd) (k := 8 * k) (n := 8) (by rw [List.length_map]; omega)
  rw [← List.map_drop, ← List.map_take] at hw
  rw [State.bytesAt, hw]
  simp only [Function.comp, Nat.zero_add, BitVec.toNat_setWidth, BitVec.toNat_ushiftRight, BitVec.toNat_ofNat,
    toNat_imgBytes (bs := ls.map s.mem.rd) (by rwa [List.length_map]), Nat.shiftRight_eq_div_pow, Nat.mod_mod]
  rw [show 8 * (8 * k) = 64 * k by omega]

/-! #### States that see the same bytes at the same addresses (R86, R92) -/

/-- What the places of an access depend on is the same in two states. -/
def State.sameMap (s u : State) : Prop :=
  u.part = s.part ∧ u.page = s.page ∧ u.mem = s.mem ∧ u.podmap = s.podmap ∧ u.hostUp = s.hostUp ∧ u.ctxs = s.ctxs ∧ u.rts = s.rts

theorem State.walk_of_sameMap {s u : State} (h : s.sameMap u) : u.walk = s.walk := by
  obtain ⟨hpart, hpage, hmem, -⟩ := h
  funext ia
  unfold State.walk State.cachedAt State.tableWalk
  rw [hpart, hpage, hmem]

theorem State.cabled_of_sameMap {s u : State} (h : s.sameMap u) : u.cabled = s.cabled := by
  obtain ⟨hpart, -, -, hpod, -⟩ := h
  funext m
  unfold State.cabled
  rw [hpart, hpod]

theorem State.lookLeaf_of_sameMap {s u : State} (h : s.sameMap u) : u.lookLeaf = s.lookLeaf := by
  have hcab := State.cabled_of_sameMap h
  obtain ⟨hpart, -, -, -, hhost, -⟩ := h
  funext own e ia a
  unfold State.lookLeaf
  rw [hpart, hhost, hcab]

theorem State.lookVia_of_sameMap {s u : State} (h : s.sameMap u) (k ia : Nat) (a : Acc) : u.lookVia k ia a = s.lookVia k ia a := by
  have hwalk := State.walk_of_sameMap h
  have hleaf := State.lookLeaf_of_sameMap h
  obtain ⟨hpart, hpage, -⟩ := h
  induction k generalizing ia with
  | zero =>
    unfold State.lookVia
    rw [hpart, hpage, hwalk, hleaf]
  | succ k ih =>
    unfold State.lookVia
    rw [hpart, hpage, hwalk, hleaf]
    simp only [ih]

theorem State.lookU_of_sameMap {s u : State} (h : s.sameMap u) : u.lookU = s.lookU := by
  have hvia := State.lookVia_of_sameMap h
  have hcab := State.cabled_of_sameMap h
  obtain ⟨hpart, -, hmem, -, -, hctx, hrts⟩ := h
  funext x ctx va a
  have hat : u.lookAt = s.lookAt := by
    funext x m ia a
    unfold State.lookAt State.lookOut State.lookIA
    rw [hpart, hmem, hvia, hcab, hrts]
  unfold State.lookU State.xlate State.translate State.ctxAt
  rw [hat, hpart, hctx, hcab]

theorem State.spans_of_sameMap {s u : State} (h : s.sameMap u) (hunit : u.unit = s.unit) (hctx : u.task.place.ctx = s.task.place.ctx)
    {va : Word} {a : Acc} {ls : List Loc} (hs : s.spans va a ls) : u.spans va a ls := by
  unfold State.spans
  rwa [State.lookU_of_sameMap h, hunit, hctx]

/-- Two states that see the same bytes leave the same hoisted loads of the task in focus (R135). -/
theorem hoistsLeft_of_sameMap {s u : State} (h : s.sameMap u) (hcore : u.iss.core = s.iss.core) (hslot : u.iss.slot = s.iss.slot)
    (hplace : u.task.place = s.task.place) : hoistsLeft u = hoistsLeft s := by
  have hlook := State.lookU_of_sameMap h
  obtain ⟨hpart, -, -, -, -, hctx, -⟩ := h
  have hretr : u.inRetr = s.inRetr := by rw [State.inRetr, State.inRetr, hcore]
  have hunit : u.unit = s.unit := by rw [State.unit, State.unit, hretr, hcore, hslot, hplace]
  have hreach : u.reachesS = s.reachesS := by
    funext va n
    unfold State.reachesS
    rw [hlook, hunit, hplace]
  funext hs va n cls write
  unfold hoistsLeft State.sramHoist State.ctxAt
  rw [hretr, hreach, hctx, hpart, hplace]

/-- A read or a write of a slot that has raised nothing ends hoisted loads of its task, and changes nothing else (R135). -/
theorem State.note_of_sameMap {s u : State} (h : s.sameMap u) (hcore : u.iss.core = s.iss.core) (hslot : u.iss.slot = s.iss.slot)
    (hplace : u.task.place = s.task.place) (hhoist : u.task.hoist = s.task.hoist) (hraised : u.iss.slotRaised = false) (va : Word)
    (n cls : Nat) (write : Bool) : ∃ ts, u.note va n cls write = u.withTasks ts ∧
      (u.withTasks ts).task = { u.task with hoist := hoistsLeft s s.task.hoist va n cls write } := by
  rw [← hoistsLeft_of_sameMap h hcore hslot hplace, ← hhoist, State.note, hraised, Bool.false_or]
  split
  · next he =>
    refine ⟨u.tasks, rfl, ?_⟩
    rw [hoistsLeft, List.isEmpty_iff.1 he, List.filter_nil, ← List.isEmpty_iff.1 he]
    rfl
  · exact ⟨_, rfl, u.setTask_task _⟩

/-! #### The launch -/

/-- A state whose launch scheduler has been sent the record at the places ls, as the next access of the slot in focus (R155, R165). -/
def State.sentRecord (s : State) (va : Word) (ls : List Loc) (park : Bool) : State :=
  { s with
    nextId := s.nextId + 1
    launches := s.launches ++ [⟨s.iss.core, s.iss.slot, s.task.place.kernel, s.task.place.ctx, s.task.place.level, s.wordsAt ls 20, va,
      park, s.nextId, s.iss.pos, s.iss.pc, s.cycle.toNat + launchPath, false⟩] }

/-- Once their record has been sent, LAUNCH awaits its reply and LAUNCH.W sleeps (R155, R157). -/
theorem State.launch_of_clearPort {s : State} (hlev : s.task.place.level ≠ 3) (h : s.clearPort) {a : BitVec 6} {ls : List Loc}
    (hlen : ls.length = 160) (hs : s.spans (s.task.gReg a.toNat) .read ls) (hbad : ∀ l ∈ ls, s.mem.bad l = false) (d : BitVec 4) (w : Bool) :
    let u := s.sentRecord (s.task.gReg a.toNat) ls w
    s.launch a d w = (if w then u.setAct (.sleep (.launch s.nextId d.toNat)) else u.issueTo (.q d.toNat) 96 (.await s.nextId)).note
      (s.task.gReg a.toNat) 160 0 false := by
  intro u
  have hs' : s.freshId.2.spans (s.task.gReg a.toNat) .read ls :=
    State.spans_of_sameMap (s := s) (u := s.freshId.2) ⟨rfl, rfl, rfl, rfl, rfl, rfl, rfl⟩ rfl rfl hs
  rw [State.launch, if_neg hlev]
  unfold State.newHeld
  dsimp only
  generalize hx : Held.new _ _ _ _ _ _ = x
  have hreq : x.req = .launch (s.task.gReg a.toNat) w := hx ▸ rfl
  rw [State.issue_launch (s := s.freshId.2) (x := { x with rel := true }) h (hx ▸ rfl) (hx ▸ rfl) hreq hlen hs' hbad]
  dsimp only
  rw [State.sendLaunch, State.words_imgBytes s.freshId.2 (by omega) (by omega), ← hx]
  rfl

theorem State.slotRaised_of_clearPort {s : State} (h : s.clearPort) : s.iss.slotRaised = false := by
  obtain ⟨-, -, -, -, -, -, hraised⟩ := h
  exact hraised

section
variable {s : State} (hlev : s.task.place.level ≠ 3) (h : s.clearPort) {a : BitVec 6} {ls : List Loc} (hlen : ls.length = 160)
  (hs : s.spans (s.task.gReg a.toNat) .read ls) (hbad : ∀ l ∈ ls, s.mem.bad l = false) (d : BitVec 4)

include hlev h hlen hs hbad

theorem launch_completes : Completes (.launch a d) s (fun t =>
    t.launches = (s.sentRecord (s.task.gReg a.toNat) ls false).launches ∧ t.iss = s.iss ∧
    t.task = { s.task with
      inflight := s.task.inflight ++ [⟨.q d.toNat, .await s.nextId, 96, s.iss.pos, s.iss.pc, false⟩]
      hoist := hoistsLeft s s.task.hoist (s.task.gReg a.toNat) 160 0 false } ∧ ∀ l, t.mem.rd l = s.mem.rd l) := by
  let u := (s.sentRecord (s.task.gReg a.toNat) ls false).issueTo (.q d.toNat) 96 (.await s.nextId)
  have hu : u.task = { s.task with
      inflight := s.task.inflight ++ [⟨.q d.toNat, .await s.nextId, 96, s.iss.pos, s.iss.pc, false⟩] } := State.issueTo_task ..
  obtain ⟨ts, hnote, hts⟩ := State.note_of_sameMap (s := s) (u := u) ⟨rfl, rfl, rfl, rfl, rfl, rfl, rfl⟩ rfl rfl (by rw [hu]) (by rw [hu])
    (State.slotRaised_of_clearPort (s := s) h) (s.task.gReg a.toNat) 160 0 false
  exact ⟨u.withTasks ts, congrArg _ ((State.launch_of_clearPort hlev h hlen hs hbad d false).trans hnote), rfl, rfl, by rw [hts, hu],
    fun _ => rfl⟩

theorem launchW_completes : Completes (.launchW a d) s (fun t =>
    t.launches = (s.sentRecord (s.task.gReg a.toNat) ls true).launches ∧
    t.task = { s.task with hoist := hoistsLeft s s.task.hoist (s.task.gReg a.toNat) 160 0 false } ∧
    t.iss = { s.iss with act := .sleep (.launch s.nextId d.toNat) } ∧ ∀ l, t.mem.rd l = s.mem.rd l) := by
  let u := (s.sentRecord (s.task.gReg a.toNat) ls true).setAct (.sleep (.launch s.nextId d.toNat))
  obtain ⟨ts, hnote, hts⟩ := State.note_of_sameMap (s := s) (u := u) ⟨rfl, rfl, rfl, rfl, rfl, rfl, rfl⟩ rfl rfl rfl rfl
    (State.slotRaised_of_clearPort (s := s) h) (s.task.gReg a.toNat) 160 0 false
  exact ⟨u.withTasks ts, congrArg _ ((State.launch_of_clearPort hlev h hlen hs hbad d true).trans hnote), rfl, hts, rfl, fun _ => rfl⟩

end

/-- No kernel of level 3 launches another (R154). -/
theorem launch_raises_of_level {s : State} (hlev : s.task.place.level = 3) (hc : s.canTrap) (a : BitVec 6) (d : BitVec 4) (w : Bool) :
    Raises s (s.launch a d w) false 0x115 0 := by
  rw [State.launch, if_pos hlev]
  exact s.raise_raises [] 0x115 0 hc

end Sys2Proof.Machine
end

section
/-! ### The barrier instructions (R167, R189 to R197) -/

namespace Sys2Proof.Machine

/-! #### The group selector (R167) -/

theorem Word.f_lt (w : Word) (hi lo : Nat) : w.f hi lo < 2 ^ (hi + 1 - lo) := Nat.mod_lt _ (Nat.two_pow_pos _)

theorem groupHome_eq {g : Nat} (hg : g < 2 ^ 15) : groupHome g = g / 2 ^ 10 + 32 * (g / 2 ^ 6 % 16) := by
  simp only [groupHome, bits]
  omega

theorem selW_eq (g : Nat) : selW g = 2 ^ (g / 8 % 8) := rfl

theorem bits_two_zero (g : Nat) : bits g 2 0 = g % 8 := congrArg (· % 8) (Nat.div_one g)

theorem selH_eq (g : Nat) : selH g = 2 ^ (g % 8) := congrArg (2 ^ ·) (bits_two_zero g)

theorem selectorOk_iff {g : Nat} (hg : g < 2 ^ 15) (k : Word) : selectorOk g k = true ↔ selects g k := by
  have hx : bits g 14 10 = g / 2 ^ 10 := by simp only [bits]; omega
  simp only [selectorOk, selects, hx, bits_two_zero, selH_eq, Bool.and_eq_true, decide_eq_true_eq, beq_iff_eq, and_assoc]
  rfl

theorem Barrier.usable_iff (b : Barrier) (k g : Nat) : b.usable k g = true ↔ b.stat ≠ .idle ∧ b.owner = k ∧ b.group = g := by
  simp [Barrier.usable, and_assoc]

/-! #### What the instructions post and raise -/

theorem State.issueTo_posts (s : State) (d : RDest) (lam : Nat) (v : RVal) :
    Posts s (s.issueTo d lam v) false [⟨d, v, lam, s.iss.pos, s.iss.pc, false⟩] s.iss.near s.iss.far :=
  ⟨rfl, State.issueTo_task .., fun _ hk => Tab.get_put_ne _ _ _ hk, fun _ => rfl⟩

theorem imgW_ofNat (x : Nat) : imgW (.ofNat 64 x) = .ofNat 2048 (x % 2 ^ 64) :=
  BitVec.eq_of_toNat_eq (by rw [imgW, BitVec.toNat_setWidth, BitVec.toNat_ofNat, BitVec.toNat_ofNat])

/-- A cause at an entry of the own core is precise, one at an entry away is late (R192, R221). -/
theorem State.barFail_spec {s : State} (h : s.canTrap) (home cause lam : Nat) (tv : Word) :
    if home = s.iss.core then Raises s (s.barFail home cause lam tv) false cause tv
    else Posts s (s.barFail home cause lam tv) false [⟨.none, .late cause tv, lam, s.iss.pos, s.iss.pc, false⟩] s.iss.near s.iss.far := by
  unfold State.barFail
  split
  · exact s.raise_raises [] cause tv h
  · exact s.issueTo_posts ..

/-- A barrier instruction that fails at its entry. -/
theorem completes_of_barFail {s : State} {i : Instr} {home cause lam : Nat} {tv : Word} (hc : s.canTrap)
    (h : exec i s = .next (s.barFail home cause lam tv)) : Completes i s (fun t => if home = s.iss.core then Raises s t false cause tv
      else Posts s t false [⟨.none, .late cause tv, lam, s.iss.pos, s.iss.pc, false⟩] s.iss.near s.iss.far) :=
  ⟨_, h, s.barFail_spec hc home cause lam tv⟩

/-! #### The instructions, by what their selector and their entry say (R192 to R195) -/

section
variable {s : State} {a : BitVec 6} {g home : Nat} (hg : (s.task.gReg a.toNat).f 14 0 = g) (hhome : groupHome g = home)
  (b d : BitVec 6) (n : BitVec 9)

include hg in
theorem barrier_raises_of_selector (hsel : ¬ selectorOk g s.task.place.geom = true) (hc : s.canTrap) :
    ∀ i ∈ [Instr.barinit a b n, .bararr a d n, .barwait a b n, .barwaitA a n, .barq a d n],
      Completes i s (fun t => Raises s t false 0x116 0) := by
  subst hg
  have hr : Raises s (s.raise 0x116) false 0x116 0 := s.raise_raises [] 0x116 0 hc
  have hsel : (!selectorOk ((s.task.gReg a.toNat).f 14 0) s.task.place.geom) = true := by simpa using hsel
  simp only [List.forall_mem_cons]
  exact ⟨⟨_, if_pos hsel, hr⟩, ⟨_, if_pos hsel, hr⟩, ⟨_, if_pos hsel, hr⟩, ⟨_, if_pos hsel, hr⟩, ⟨_, if_pos hsel, hr⟩,
    fun _ h => absurd h List.not_mem_nil⟩

variable (hsel : selectorOk g s.task.place.geom = true)

include hg hhome hsel

theorem exec_barinit_of_selector : exec (.barinit a b n) s =
    let e := s.barAt home n.toNat
    let p := s.task.gReg b.toNat
    if e.stat ≠ .idle ∧ (e.owner ≠ s.task.place.kernel ∨ e.stat = .waiting) then .next (s.barFail home 0x124 1 (barTval n.toNat g))
    else if p.f 13 0 = 0 ∨ 16 * (selW g * selH g) < p.f 13 0 then .next (s.raise 0x126 (barTval n.toNat g))
    else .next ((s.setBarAt home n.toNat ⟨.armed, s.task.place.kernel, (e.gen + 1) % 2 ^ 16, p.f 13 0, 0, g, p.f 23 16, 0, [],
      s.cycle.toNat, some s.cycle.toNat⟩).wakeBar home n.toNat ((e.gen + 1) % 2 ^ 16)) := by
  subst hg hhome
  exact if_neg (by simp [hsel])

theorem exec_bararr_of_selector : exec (.bararr a d n) s =
    if !(s.barAt home n.toNat).usable s.task.place.kernel g then .next (s.barFail home 0x125 48 (barTval n.toNat g))
    else .next ((s.freshId.2.issueTo (gDest d) 48 (.await s.nextId)).arrive home n.toNat g (some s.nextId) false s.nextId) := by
  subst hg hhome
  exact if_neg (by simp [hsel])

theorem exec_barwait_of_selector : exec (.barwait a b n) s =
    let e := s.barAt home n.toNat
    let gen := (s.task.gReg b.toNat).f 15 0
    if !e.usable s.task.place.kernel g then .next (s.barFail home 0x125 1 (barTval n.toNat g))
    else if e.stat = .broken then .next (s.eventHere ⟨0x123, barTval n.toNat g⟩)
    else if e.gen ≠ gen then .next s
    else .next (s.setAct (.sleep (.barrier home n.toNat gen))) := by
  subst hg hhome
  exact if_neg (by simp [hsel])

theorem exec_barwaitA_of_selector : exec (.barwaitA a n) s =
    if !(s.barAt home n.toNat).usable s.task.place.kernel g then .next (s.barFail home 0x125 1 (barTval n.toNat g))
    else .next ((s.freshId.2.arrive home n.toNat g none true s.nextId).setAct (.sleep (.barrier home n.toNat (2 ^ 16)))) := by
  subst hg hhome
  exact if_neg (by simp [hsel])

theorem exec_barq_of_selector : exec (.barq a d n) s =
    let e := s.barAt home n.toNat
    if !e.usable s.task.place.kernel g then .next (s.barFail home 0x125 48 (barTval n.toNat g))
    else .next (s.issueTo (gDest d) 48 (.ready (imgW e.status))) := by
  subst hg hhome
  exact if_neg (by simp [hsel])

end

/-- Arming an entry changes that entry, and wakes those that slept on its old phase (R192, R193). -/
theorem State.armed_spec (s : State) (home n gen : Nat) (x : Barrier) :
    let t := (s.setBarAt home n x).wakeBar home n gen
    (t.coreAt home).bars.get .zero n = x ∧ (∀ m, m ≠ n → (t.coreAt home).bars.get .zero m = (s.coreAt home).bars.get .zero m) ∧
      t.iss = s.iss ∧ (∀ c, c ≠ home → t.coreAt c = s.coreAt c) ∧ ∀ l, t.mem.rd l = s.mem.rd l := by
  intro t
  have hcore : t.coreAt home = { s.coreAt home with bars := (s.coreAt home).bars.put n x } := State.setCoreAt_coreAt ..
  rw [hcore]
  exact ⟨Tab.get_put_self .., fun m hm => Tab.get_put_ne _ _ _ hm, rfl, fun c hc => Tab.get_put_ne _ _ _ hc, fun _ => rfl⟩

/-- Settles O26: the launches through the read of their record, each barrier instruction through its selector and its entry. -/
theorem launchAndBarrierInstructionResults : Obligations.LaunchAndBarrierInstructionResults := by
  refine ⟨fun s a d ls => ⟨fun hlev hc => ?_, fun hlev hport hlen hs hbad => ?_⟩, fun s a b d n => ?_⟩
  · simp only [List.forall_mem_cons]
    exact ⟨⟨_, rfl, launch_raises_of_level hlev hc a d false⟩, ⟨_, rfl, launch_raises_of_level hlev hc a d true⟩,
      fun _ h => absurd h List.not_mem_nil⟩
  · exact ⟨launch_completes hlev hport hlen hs hbad d, launchW_completes hlev hport hlen hs hbad d⟩
  intro g p home e tv ok size usable arr num fails
  have hg15 : g < 2 ^ 15 := Word.f_lt _ 14 0
  have hhome : groupHome g = home := groupHome_eq hg15
  refine ⟨fun hok => barrier_raises_of_selector rfl b d n (fun h => hok ((selectorOk_iff hg15 _).1 h)), fun hok => ?_⟩
  have hsel : selectorOk g s.task.place.geom = true := (selectorOk_iff hg15 _).2 hok
  have hinit := exec_barinit_of_selector rfl hhome b n hsel
  have harr := exec_bararr_of_selector rfl hhome d n hsel
  have hwait := exec_barwait_of_selector rfl hhome b n hsel
  have hwaitA := exec_barwaitA_of_selector rfl hhome n hsel
  have hq := exec_barq_of_selector rfl hhome d n hsel
  have hbar : s.barAt home n.toNat = e := rfl
  rw [hbar] at hinit harr hwait hwaitA hq
  have hsize : 16 * (selW g * selH g) = size := by rw [selW_eq, selH_eq]
  rw [hsize] at hinit
  have hnot : ¬ usable → (!e.usable s.task.place.kernel g) = true := fun h => by
    simpa using mt (e.usable_iff _ _).1 h
  have hcan : usable → ¬ (!e.usable s.task.place.kernel g) = true := fun h => by
    simpa using (e.usable_iff _ _).2 h
  refine ⟨fun hidle hown hc => completes_of_barFail hc (hinit.trans (if_pos ⟨hidle, hown⟩)), fun hfree => ?_, fun h => ?_, fun h => ?_,
    fun h hc => ?_, fun h => ?_⟩
  · have hopen : ¬ (e.stat ≠ .idle ∧ (e.owner ≠ s.task.place.kernel ∨ e.stat = .waiting)) := by tauto
    refine ⟨fun hcount hc => ⟨_, (hinit.trans (if_neg hopen)).trans (if_pos hcount), s.raise_raises [] 0x126 tv hc⟩, fun hpos hle => ?_⟩
    exact ⟨_, (hinit.trans (if_neg hopen)).trans (if_neg (not_or.2 ⟨Nat.ne_of_gt hpos, Nat.not_lt.2 hle⟩)), s.armed_spec ..⟩
  · exact ⟨_, harr.trans (if_neg (hcan h)), by rw [State.arrive, State.issueTo_task]; rfl, State.issueTo_task .., rfl, rfl⟩
  · exact ⟨_, hwaitA.trans (if_neg (hcan h)), rfl, rfl, rfl⟩
  · exact ⟨completes_of_barFail hc (hwait.trans (if_pos (hnot h))), completes_of_barFail hc (hwaitA.trans (if_pos (hnot h))),
      completes_of_barFail hc (harr.trans (if_pos (hnot h))), completes_of_barFail hc (hq.trans (if_pos (hnot h)))⟩
  · have hgo := hwait.trans (if_neg (hcan h))
    refine ⟨fun hbroken => ⟨_, hgo.trans (if_pos hbroken), rfl⟩, fun hok hgen => ⟨_, (hgo.trans (if_neg hok)).trans (if_pos hgen), rfl⟩,
      fun hok hgen => ⟨_, (hgo.trans (if_neg hok)).trans (if_neg (not_not.2 hgen)), ?_⟩, ?_⟩
    · rw [← hgen]
      rfl
    · have hnum : ∀ x, num x = x.num := fun x => by cases x <;> rfl
      refine ⟨_, hq.trans (if_neg (hcan h)), ?_⟩
      rw [hnum, ← imgW_ofNat]
      exact s.issueTo_posts ..

end Sys2Proof.Machine
end

section
/-! ### A refused launch that two results await (R155, R221)

A record that its check refuses is late: of the results that await its launch the first takes the cause and the others are gone (R221). The
statement gives the cause to every result that awaits the launch, and does not say that a LAUNCH has one. -/

namespace Sys2Proof.Machine

/-- LAUNCH 7 of the task on core 0 in slot 0, with a record whose reserved bits [3:0] of word 0 are not zero. -/
def reservedLaunch : LaunchReq := ⟨0, 0, 0, 0, 1, [1], 0x1000, false, 7, 0, 0x1000, 0, false⟩

/-- `twoResultsState`, in an ACTIVE context, with the results awaiting that launch. -/
def refusedLaunchState : State := { twoResultsState with
  held := [], launches := [reservedLaunch], ctxs := [(0, { Ctx.zero with stat := .active })] }

/-- The refusal gives its cause to the first result alone. -/
theorem valuesAfter_refusedLaunch : valuesAfter (exec .launchRecordArrival refusedLaunchState) = some [.late 0x113 0, .gone] := by
  decide +kernel

/-- Refutes O35: a launch that is refused while two results await it gives the second no cause. -/
theorem not_launchEventsPlaceAndRetireKernels : ¬ Obligations.LaunchEventsPlaceAndRetireKernels := by
  intro h
  obtain ⟨-, hplain, -⟩ := h refusedLaunchState reservedLaunch [] 0 0 0 ⟨0, [], .posted, 0, 0, none, 0⟩
  have hdue : (refusedLaunchState.ctxAt 0).stat = .active ∧ 0 ≤ refusedLaunchState.cycle.toNat := by decide
  obtain ⟨hrefused, -⟩ := hplain ⟨⟨rfl, fun _ hm => absurd hm List.not_mem_nil, hdue.1, hdue.2, rfl, rfl⟩, rfl, by decide, rfl, rfl, rfl⟩
  obtain ⟨t, ht, -, htask, -⟩ := hrefused 0x113 (by decide)
  have hvals := valuesAfter_refusedLaunch
  rw [ht] at hvals
  have hgone := Option.some.inj hvals
  rw [show t.taskAt 0 0 = _ from htask] at hgone
  exact absurd hgone (by decide)

end Sys2Proof.Machine
end

section
/-! ## The task table in order (R169)

The table lists each slot at most once as its keys rise strictly. Every function of the model that answers a state writes a task at
its key, changes tasks where they stand, or takes some out. The first two neither make nor mend an order, so what such a function does
is said by an equivalence (`_rising`) that `simp` rewrites with; only what takes tasks out keeps the order in one direction alone. -/

namespace Sys2Proof.Tab

variable {α : Type}

/-- The keys of a table rise strictly, so that each is listed at most once. -/
def Rising (t : Tab α) : Prop := (t.map (·.1)).Pairwise (· < ·)

@[simp] theorem rising_nil : Rising ([] : Tab α) := List.Pairwise.nil

theorem rising_cons {k : Nat} {v : α} {t : Tab α} : Rising ((k, v) :: t) ↔ (∀ x ∈ t, k < x.1) ∧ Rising t := by
  simp [Rising, List.pairwise_cons]

theorem forall_key_put {p : Nat → Prop} (t : Tab α) {k : Nat} (v : α) (hk : p k) : (∀ x ∈ t.put k v, p x.1) ↔ ∀ x ∈ t, p x.1 := by
  induction t with
  | nil => simp [put, hk]
  | cons x t ih =>
    obtain ⟨k', v'⟩ := x
    simp only [put]
    split
    · simp [hk]
    · split
      · next h => subst h; simp
      · simp only [List.forall_mem_cons, ih]

/-- A write puts its key in its place: it neither makes nor mends an order. -/
@[simp] theorem rising_put (t : Tab α) (k : Nat) (v : α) : (t.put k v).Rising ↔ t.Rising := by
  induction t with
  | nil => simp [put, rising_cons]
  | cons x t ih =>
    obtain ⟨k', v'⟩ := x
    simp only [put]
    split
    · next h =>
      rw [rising_cons, and_iff_right_of_imp]
      intro ht x hx
      obtain ⟨hall, -⟩ := rising_cons.1 ht
      obtain rfl | hx := List.mem_cons.1 hx
      · exact h
      · exact Nat.lt_trans h (hall x hx)
    · split
      · next h => subst h; simp [rising_cons]
      · rw [rising_cons, rising_cons, ih, forall_key_put t v (by omega)]

/-- A change of the values alone leaves the order as it is. -/
theorem rising_map {t : Tab α} {f : Nat × α → Nat × α} (hf : ∀ x, (f x).1 = x.1) : Rising (List.map f t) ↔ t.Rising := by
  rw [Rising, Rising, List.map_map, show (fun x : Nat × α => x.1) ∘ f = (·.1) from funext hf]

@[simp] theorem rising_ite {c : Prop} [Decidable c] {a b : Tab α} : (if c then a else b).Rising ↔ if c then a.Rising else b.Rising := by
  split <;> rfl

theorem Rising.filter {t : Tab α} (h : t.Rising) (p : Nat × α → Bool) : Rising (List.filter p t) :=
  List.Pairwise.sublist (List.filter_sublist.map _) h

theorem del_eq_filter (t : Tab α) (k : Nat) : t.del k = List.filter (fun x => x.1 != k) t := by
  induction t with
  | nil => rfl
  | cons x t ih =>
    obtain ⟨k', v'⟩ := x
    by_cases h : k' = k <;> simp [del, h, ih]

theorem Rising.del {t : Tab α} (h : t.Rising) (k : Nat) : (t.del k).Rising := t.del_eq_filter k ▸ h.filter _

end Sys2Proof.Tab

namespace Sys2Proof.Machine

-- One theorem is checked after the other, so that their stacks do not add up.
set_option Elab.async false

theorem State.tasksOk_iff (s : State) : s.tasksOk ↔ s.tasks.Rising := Iff.rfl

@[simp] theorem State.ite_tasks {c : Prop} [Decidable c] {s t : State} : (if c then s else t).tasks = if c then s.tasks else t.tasks :=
  apply_ite ..

@[simp] theorem State.foldl_rising {α : Type} {f : State → α → State} (hf : ∀ s x, (f s x).tasks.Rising ↔ s.tasks.Rising) (l : List α)
    (s : State) : (l.foldl f s).tasks.Rising ↔ s.tasks.Rising := by
  induction l generalizing s with
  | nil => rfl
  | cons x l ih => exact (ih _).trans (hf s x)

theorem State.foldl_rising_of {α : Type} {f : State → α → State} (hf : ∀ s x, s.tasks.Rising → (f s x).tasks.Rising) (l : List α) {s : State}
    (h : s.tasks.Rising) : (l.foldl f s).tasks.Rising := by
  induction l generalizing s with
  | nil => exact h
  | cons x l ih => exact ih (hf s x h)

/-- An outcome keeps the task table in order: where it is a next state, that state's table is. -/
def Out.Rising (o : Out) : Prop := ∀ t, o = .next t → t.tasks.Rising

@[simp] theorem Out.rising_next {s : State} : Out.Rising (.next s) ↔ s.tasks.Rising :=
  ⟨fun h => h s rfl, fun h _ e => Host.Outcome.next.inj e ▸ h⟩

@[simp] theorem Out.rising_ite {c : Prop} [Decidable c] {a b : Out} : (if c then a else b).Rising ↔ if c then a.Rising else b.Rising := by
  split <;> rfl

@[simp] theorem State.after_rising {s : State} (hs : s.tasks.Rising) {o : Out} (ho : o.Rising) : (s.after o).tasks.Rising := by
  unfold State.after
  split
  · exact ho _ rfl
  · exact hs

@[simp] theorem State.after_rising_iff {s : State} {o : Out} (ho : o.Rising ↔ s.tasks.Rising) : (s.after o).tasks.Rising ↔ s.tasks.Rising := by
  unfold State.after
  split
  · exact Out.rising_next.symm.trans ho
  · rfl

/-! ### The task in focus, results, notes and the wake of a broken barrier (R48, R55, R135, R196) -/

@[simp] theorem State.setTaskAt_rising (s : State) (core slot : Nat) (t : Task) : (s.setTaskAt core slot t).tasks.Rising ↔ s.tasks.Rising :=
  Tab.rising_put ..

@[simp] theorem State.setTask_rising (s : State) (t : Task) : (s.setTask t).tasks.Rising ↔ s.tasks.Rising := Tab.rising_put ..

@[simp] theorem State.issueTo_rising (s : State) (d : RDest) (lam : Nat) (v : RVal) : (s.issueTo d lam v).tasks.Rising ↔ s.tasks.Rising :=
  Tab.rising_put ..

@[simp] theorem State.touch_rising (s : State) (as : List Src) : (s.touch as).tasks.Rising ↔ s.tasks.Rising := by simp [State.touch]

@[simp] theorem State.result_rising (s : State) (d : RDest) (sup : Bool) (lam : Nat) (x : VReg) :
    (s.result d sup lam x).tasks.Rising ↔ s.tasks.Rising := by simp [State.result]

@[simp] theorem State.note_rising (s : State) (va : Word) (n cls : Nat) (w : Bool) : (s.note va n cls w).tasks.Rising ↔ s.tasks.Rising := by
  simp [State.note]

@[simp] theorem State.onTask_rising (s : State) (core slot kernel : Nat) (f : Task → Task) :
    (s.onTask core slot kernel f).tasks.Rising ↔ s.tasks.Rising := by simp [State.onTask]

@[simp] theorem State.updArriver_rising (s : State) (a : Arrival) (g : Task → Task) : (s.updArriver a g).tasks.Rising ↔ s.tasks.Rising :=
  s.onTask_rising ..

@[simp] theorem State.trapped_rising (s : State) (core : Nat) : (s.trapped core).tasks.Rising ↔ s.tasks.Rising := by
  simp [State.trapped]

@[simp] theorem State.breakBar_rising (s : State) (home n reason : Nat) : (s.breakBar home n reason).tasks.Rising ↔ s.tasks.Rising := by
  unfold State.breakBar
  dsimp only
  split
  · rfl
  · exact Tab.rising_map fun x => by split <;> [split; skip] <;> rfl

/-! ### The named operations of the state, operands and the page walk (R46 to R57, R97 to R101, R218 to R226) -/

@[simp] theorem State.retG_rising (s : State) (d : Dst) (lam : Nat) (w : Word) : (s.retG d lam w).tasks.Rising ↔ s.tasks.Rising := by
  simp [State.retG]

@[simp] theorem State.retQ_rising (s : State) (d : Dst) (b : Bool) : (s.retQ d b).tasks.Rising ↔ s.tasks.Rising := by simp [State.retQ]

@[simp] theorem State.retK_rising (s : State) (d : Dst) (w : Word) : (s.retK d w).tasks.Rising ↔ s.tasks.Rising := by simp [State.retK]

@[simp] theorem State.retV_rising (s : State) (d : Dst) (lam : Nat) (x : VReg) : (s.retV d lam x).tasks.Rising ↔ s.tasks.Rising := by
  simp [State.retV]

@[simp] theorem State.preemptCtx_rising (s : State) (n : Nat) : (s.preemptCtx n).tasks.Rising ↔ s.tasks.Rising :=
  Tab.rising_map fun x => by split <;> rfl

@[simp] theorem State.dropColls_rising (s : State) (n : Nat) : (s.dropColls n).tasks.Rising ↔ s.tasks.Rising := Iff.rfl

@[simp] theorem State.enterError_rising (s : State) (n cause : Nat) : (s.enterError n cause).tasks.Rising ↔ s.tasks.Rising := Iff.rfl

@[simp] theorem State.ctxError_rising (s : State) (n cause : Nat) : (s.ctxError n cause).tasks.Rising ↔ s.tasks.Rising := by
  fun_cases State.ctxError <;> simp

@[simp] theorem State.moduleError_rising (s : State) (cause : Nat) : (s.moduleError cause).tasks.Rising ↔ s.tasks.Rising := by
  simp [State.moduleError]

@[simp] theorem State.breakFor_rising (s : State) (core slot kernel : Nat) : (s.breakFor core slot kernel).tasks.Rising ↔ s.tasks.Rising := Iff.rfl

@[simp] theorem State.fatal_rising (s : State) (core slot cause : Nat) : (s.fatal core slot cause).tasks.Rising ↔ s.tasks.Rising := by
  fun_cases State.fatal <;> grind [!. State.breakFor_rising, !. State.ctxError_rising, !. State.moduleError_rising, !. State.setTaskAt_rising]

@[simp] theorem State.raise_rising (s : State) (cause : Nat) (tval : Word) : (s.raise cause tval).tasks.Rising ↔ s.tasks.Rising := by
  simp [State.raise]

@[simp] theorem State.takeTrap_rising (s : State) (core slot kind : Nat) (isLate : Bool) (cause : Nat) (tval : Word) (mask : Nat) (ipc : Word) :
    (s.takeTrap core slot kind isLate cause tval mask ipc).tasks.Rising ↔ s.tasks.Rising := by
  simp [State.takeTrap]

@[simp] theorem State.freshId_rising (s : State) : (s.freshId).2.tasks.Rising ↔ s.tasks.Rising := Iff.rfl

@[simp] theorem State.collDeliver_rising (s : State) (m : CollMsg) : (s.collDeliver m).tasks.Rising ↔ s.tasks.Rising := Iff.rfl

@[simp] theorem State.command_rising {s : State} {o : Out} (ho : o.Rising ↔ s.tasks.Rising) : (s.command o).Rising ↔ s.tasks.Rising := by
  simp [State.command, ho]

@[simp] theorem State.cacheLeaf_rising (s : State) (ia : Nat) : (s.cacheLeaf ia).tasks.Rising ↔ s.tasks.Rising := by
  fun_cases State.cacheLeaf <;> simp

@[simp] theorem State.uncache_rising (s : State) (lo hi : Nat) : (s.uncache lo hi).tasks.Rising ↔ s.tasks.Rising := Iff.rfl

/-! ### Writes of virtual addresses, fault records, leaves and discards (R89, R98, R104, R110 to R116, R119) -/

@[simp] theorem State.sendOn_rising (s : State) (u : Unacked) : (s.sendOn u).tasks.Rising ↔ s.tasks.Rising := by simp [State.sendOn]

@[simp] theorem State.sendPkt_rising (s : State) (x : Sender) (p : Packet) : (s.sendPkt x p).tasks.Rising ↔ s.tasks.Rising := by simp [State.sendPkt]

@[simp] theorem State.sendTo_rising (s : State) (x : Sender) (m : Nat) (op : PktOp) (ia len : Nat) (data : List Byte) :
    (s.sendTo x m op ia len data).tasks.Rising ↔ s.tasks.Rising := by
  simp [State.sendTo]

@[simp] theorem State.writeRec_rising (s : State) (n gen : Nat) (bytes : List Byte) : (s.writeRec n gen bytes).1.tasks.Rising ↔ s.tasks.Rising := by
  unfold State.writeRec
  dsimp only
  repeat' split
  all_goals simp

@[simp] theorem State.writeRecs_rising (s : State) (n k : Nat) : (s.writeRecs n k).tasks.Rising ↔ s.tasks.Rising := by
  fun_induction State.writeRecs s n k <;> grind [!. State.writeRec_rising, !. State.setCtxAt_tasks]

@[simp] theorem State.recAcked_rising (s : State) (n : Nat) (ok : Bool) : (s.recAcked n ok).tasks.Rising ↔ s.tasks.Rising := by simp [State.recAcked]

@[simp] theorem State.record_rising (s : State) (n : Nat) (r : RecInfo) : (s.record n r).tasks.Rising ↔ s.tasks.Rising := by simp [State.record]

@[simp] theorem State.demote_rising (s : State) (u : UnitId) (ctx : Nat) (ls : List ByteLook) :
    (s.demote u ctx ls).tasks.Rising ↔ s.tasks.Rising := by
  fun_cases State.demote <;> simp

@[simp] theorem State.recordFaults_rising (s : State) (ctx : Nat) (u : UnitId) (ls : List ByteLook) (va : Word) (a : Acc) (held : Bool)
    (slog n : Nat) (base : Nat) : (s.recordFaults ctx u ls va a held slog n base).tasks.Rising ↔ s.tasks.Rising := by
  simp [State.recordFaults]

@[simp] theorem State.sendReads_rising (s : State) (h : Held) (va : Word) (ls : List ByteLook) (miss : List (Nat × Nat × Nat)) :
    (s.sendReads h va ls miss).tasks.Rising ↔ s.tasks.Rising := by
  simp [State.sendReads]

@[simp] theorem State.logSide_rising (s : State) (u : UnitId) (e : SideEnt) : (s.logSide u e).tasks.Rising ↔ s.tasks.Rising := Iff.rfl

@[simp] theorem State.kick_rising (s : State) (before : State) (src : Nat) (u : Nat × Nat) (ias : List Nat) :
    (s.kick before src u ias).tasks.Rising ↔ s.tasks.Rising := by
  simp [State.kick]

@[simp] theorem State.numbered_rising (s : State) (k : Nat) : (s.numbered k).tasks.Rising ↔ s.tasks.Rising := Iff.rfl

@[simp] theorem State.toBar_rising (s : State) (u : UnitId) (k o : Nat) (data : List Byte) : (s.toBar u k o data).tasks.Rising ↔ s.tasks.Rising :=
  Iff.rfl

@[simp] theorem State.writeRun_rising (s : State) (ctx : Nat) (u : UnitId) (va : Word) (bs : List Byte) (bad : List Nat) (rel : Bool) (k : Nat)
    (r : WRun) : (s.writeRun ctx u va bs bad rel k r).1.tasks.Rising ↔ s.tasks.Rising := by
  fun_cases State.writeRun <;> simp +zetaDelta [*]

@[simp] theorem State.writeLooks_rising (s : State) (ctx : Nat) (u : UnitId) (va : Word) (bs : List Byte) (devOk rel : Bool) (k : Nat)
    (ls : List ByteLook) (bad : List Nat) : (s.writeLooks ctx u va bs devOk rel k ls bad).1.tasks.Rising ↔ s.tasks.Rising := by
  unfold State.writeLooks
  refine List.foldlRecOn (motive := fun acc : State × List Report × List Nat => acc.1.tasks.Rising ↔ s.tasks.Rising) _ _ (by simp)
    fun acc hacc r _ => ?_
  have hrun := (State.writeRun_rising acc.1 ctx u va bs bad rel k r).trans hacc
  dsimp only
  split
  · split
    · exact hacc
    · split <;> exact hrun
  · exact hrun

@[simp] theorem State.writeVA_rising (s : State) (ctx : Nat) (u : UnitId) (va : Word) (bs : List Byte) (devOk rel : Bool) (bad : List Nat) :
    (s.writeVA ctx u va bs devOk rel bad).1.tasks.Rising ↔ s.tasks.Rising := by
  simp [State.writeVA]

@[simp] theorem State.reportTo_rising (s : State) (core slot : Nat) (rs : List Report) : (s.reportTo core slot rs).tasks.Rising ↔ s.tasks.Rising := by
  simp [State.reportTo]

@[simp] theorem State.reportTask_rising (s : State) (core slot kernel : Nat) (r : Report) :
    (s.reportTask core slot kernel r).tasks.Rising ↔ s.tasks.Rising := by
  simp [State.reportTask]

@[simp] theorem State.atomicDone_rising (s : State) (m : Option Mem) (src : Nat) (u : Nat × Nat) (ias : List Nat) :
    (s.atomicDone m src u ias).tasks.Rising ↔ s.tasks.Rising := by
  unfold State.atomicDone
  split <;> simp

@[simp] theorem State.swapLeaf_rising (s : State) (e new : Word) (at_ ia : Nat) : (s.swapLeaf e new at_ ia).1.tasks.Rising ↔ s.tasks.Rising := by
  fun_cases State.swapLeaf <;> simp

@[simp] theorem State.discard_rising (s : State) (p : WholePage) : (s.discard p).tasks.Rising ↔ s.tasks.Rising := by fun_cases State.discard <;> simp

@[simp] theorem State.discardRange_rising (s : State) (ia n : Nat) : (s.discardRange ia n).tasks.Rising ↔ s.tasks.Rising := by
  simp [State.discardRange]

@[simp] theorem State.discardFor_rising (s : State) (u : UnitId) (ctx : Nat) (va : Word) (id ia n : Nat) :
    (s.discardFor u ctx va id ia n).tasks.Rising ↔ s.tasks.Rising := by
  simp [State.discardFor]

/-! ### Accesses with a result (R106, R111, R271, R277) -/

@[simp] theorem State.performRemop_rising (s : State) (find : Finder) (got : Tab Byte) (b : RemopBlk) (t node : Nat) :
    (s.performRemop find got b t node).1.tasks.Rising ↔ s.tasks.Rising := by
  fun_cases State.performRemop <;> simp +zetaDelta [*]

@[simp] theorem State.remopDone_rising (s : State) (before : State) (u : UnitId) (ctx src : Nat) (from_ : Nat × Nat) (out : List
    (Nat × Nat × Word × Option Nat)) (ias : List Nat) : (s.remopDone before u ctx src from_ out ias).tasks.Rising ↔ s.tasks.Rising := by
  simp [State.remopDone]

@[simp] theorem State.serveRead_rising (s : State) (h : Held) (va : Word) (n : Nat) (a : Acc) (dev : Bool) (k : List Byte → VReg) :
    (s.serveRead h va n a dev k).1.tasks.Rising ↔ s.tasks.Rising := by
  fun_cases State.serveRead <;> simp +zetaDelta [*]

@[simp] theorem State.serveLanes_rising (s : State) (h : Held) (n stride : Nat) (lanes : List Word) (k : List (List Byte) → Served) :
    (s.serveLanes h n stride lanes k).1.tasks.Rising ↔ s.tasks.Rising := by
  fun_cases State.serveLanes
  case case5 => exact (State.foldl_rising (fun t x => t.sendReads_rising ..) _ _).trans (State.foldl_rising (fun t x => by split <;> simp) _ _)
  all_goals exact State.foldl_rising (fun t x => by split <;> simp) _ _

@[simp] theorem State.serveGather_rising (s : State) (h : Held) (w : Nat) (zx : Bool) (lanes : List Word) :
    (s.serveGather h w zx lanes).1.tasks.Rising ↔ s.tasks.Rising := by
  simp [State.serveGather]

@[simp] theorem State.serveAtomic_rising (s : State) (h : Held) (op : Nat) (va : Word) (n : Nat) (ops : List Word) :
    (s.serveAtomic h op va n ops).1.tasks.Rising ↔ s.tasks.Rising := by
  fun_cases State.serveAtomic <;> simp +zetaDelta [*]

@[simp] theorem State.reportUnits_rising (s : State) (u : UnitId) (rs : List Report) : (s.reportUnits u rs).tasks.Rising ↔ s.tasks.Rising := by
  fun_cases State.reportUnits <;> simp

@[simp] theorem State.remopFaults_rising (s : State) (h : Held) (b : RemopBlk) (va : Word) (ia nia c st fia : Nat) :
    (s.remopFaults h b va ia nia c st fia).tasks.Rising ↔ s.tasks.Rising := by
  simp [State.remopFaults]

@[simp] theorem State.serveRemopBlk_rising (s : State) (h : Held) (va gv : Word) (bs : List Byte) :
    (s.serveRemopBlk h va gv bs).1.tasks.Rising ↔ s.tasks.Rising := by
  fun_cases State.serveRemopBlk <;> grind [!. State.demote_rising, !. State.performRemop_rising, !. State.remopDone_rising,
    !. State.remopFaults_rising, !. State.reportUnits_rising, !. State.sendTo_rising, !. State.writeVA_rising]

@[simp] theorem State.serveRemop_rising (s : State) (h : Held) (va gv : Word) : (s.serveRemop h va gv).1.tasks.Rising ↔ s.tasks.Rising := by
  fun_cases State.serveRemop <;> grind [!. State.serveRead_rising, !. State.serveRemopBlk_rising]

@[simp] theorem State.serveFetch_rising (s : State) (h : Held) (va : Word) : (s.serveFetch h va).1.tasks.Rising ↔ s.tasks.Rising := by
  fun_cases State.serveFetch <;> simp +zetaDelta [*]

@[simp] theorem State.serveStore_rising (s : State) (h : Held) (va : Word) (bs : List Byte) (dev rel : Bool) :
    (s.serveStore h va bs dev rel).1.tasks.Rising ↔ s.tasks.Rising := by
  fun_cases State.serveStore <;> simp +zetaDelta [*]

@[simp] theorem State.serveDisc_rising (s : State) (h : Held) (va : Word) : (s.serveDisc h va).1.tasks.Rising ↔ s.tasks.Rising := by
  fun_cases State.serveDisc <;> simp

@[simp] theorem State.serveDoneAdd_rising (s : State) (h : Held) (va : Word) : (s.serveDoneAdd h va).1.tasks.Rising ↔ s.tasks.Rising := by
  unfold State.serveDoneAdd
  dsimp only
  repeat' split
  all_goals simp

@[simp] theorem State.serve_rising (s : State) (h : Held) : (s.serve h).1.tasks.Rising ↔ s.tasks.Rising := by fun_cases State.serve <;> simp

@[simp] theorem State.newHeld_rising (s : State) (req : MemReq) : (s.newHeld req).2.tasks.Rising ↔ s.tasks.Rising := Iff.rfl

@[simp] theorem State.issue_rising (s : State) (h : Held) : (s.issue h).1.tasks.Rising ↔ s.tasks.Rising := by fun_cases State.issue <;> simp

@[simp] theorem State.hold_rising (s : State) (h : Held) : (s.hold h).tasks.Rising ↔ s.tasks.Rising := Iff.rfl

@[simp] theorem State.request_rising (s : State) (dest : RDest) (lam cls : Nat) (req : MemReq) (acq rel : Bool) :
    (s.request dest lam cls req acq rel).tasks.Rising ↔ s.tasks.Rising := by
  fun_cases State.request <;> grind [!. State.deposit_tasks, !. State.hold_rising, !. State.issue_rising, !. State.issueTo_rising,
    !. State.newHeld_rising, !. State.raise_rising]

@[simp] theorem State.storeVA_rising (s : State) (va : Word) (bs : List Byte) (dev rel : Bool) :
    (s.storeVA va bs dev rel).tasks.Rising ↔ s.tasks.Rising := by
  simp [State.storeVA]

@[simp] theorem State.dropHoists_rising (s : State) : (s.dropHoists).tasks.Rising ↔ s.tasks.Rising := by simp [State.dropHoists]

/-! ### Control flow, loads, stores, atomics and noise (R32 to R36, R250 to R279) -/

@[simp] theorem State.branch_rising (s : State) (taken : Bool) (tgt : Word) : (s.branch taken tgt).tasks.Rising ↔ s.tasks.Rising := Iff.rfl

@[simp] theorem State.link_rising (s : State) : (s.link).tasks.Rising ↔ s.tasks.Rising := by simp [State.link]

@[simp] theorem State.jumpTable_rising (s : State) (i t : BitVec 6) (c : BitVec 8) (call : Bool) :
    (s.jumpTable i t c call).tasks.Rising ↔ s.tasks.Rising := by
  fun_cases State.jumpTable <;> grind [!. State.deposit_tasks, !. State.hold_rising, !. State.issue_rising, !. State.issueTo_rising,
    !. State.link_rising, !. State.newHeld_rising, !. State.note_rising, !. State.raise_rising, !. State.setAct_tasks]

@[simp] theorem State.loop_rising (s : State) (n len : Nat) : (s.loop n len).tasks.Rising ↔ s.tasks.Rising := by simp [State.loop]

@[simp] theorem execLbrk_rising (s : State) (q : BitVec 4) (n : BitVec 3) : Out.Rising (execLbrk q n s) ↔ s.tasks.Rising := by
  fun_cases execLbrk <;> simp

@[simp] theorem State.eventHere_rising (s : State) (r : Report) : (s.eventHere r).tasks.Rising ↔ s.tasks.Rising := by simp [State.eventHere]

@[simp] theorem State.retire_rising (s : State) (core e : Nat) : (s.retire core e).tasks.Rising ↔ s.tasks.Rising := by
  fun_cases State.retire <;> simp +zetaDelta [*]

@[simp] theorem execWaitc_rising (s : State) (a : BitVec 6) : Out.Rising (execWaitc a s) ↔ s.tasks.Rising := by
  fun_cases execWaitc <;> simp +zetaDelta [*]

@[simp] theorem execWaite_rising (s : State) (t : BitVec 3) (sc : BitVec 3) (a b : BitVec 6) :
    Out.Rising (execWaite t sc a b s) ↔ s.tasks.Rising := by
  fun_cases execWaite <;> simp <;> grind [!. State.issue_rising, !. State.newHeld_rising]

@[simp] theorem execEndTask_rising (s : State) : Out.Rising (execEndTask s) ↔ s.tasks.Rising := by fun_cases execEndTask <;> simp

@[simp] theorem State.acquired_rising (s : State) : (s.acquired).tasks.Rising ↔ s.tasks.Rising := by simp [State.acquired]

@[simp] theorem State.sramWrite_rising (s : State) (a : Nat) (bs : List Byte) : (s.sramWrite a bs).tasks.Rising ↔ s.tasks.Rising := Iff.rfl

@[simp] theorem State.noteSram_rising (s : State) (a n : Nat) : (s.noteSram a n).tasks.Rising ↔ s.tasks.Rising := by simp [State.noteSram]

@[simp] theorem State.load_rising (s : State) (d : BitVec 6) (va : Word) (n cls : Nat) (zx : Bool) (lam : Nat) (acq : Bool) :
    (s.load d va n cls zx lam acq).tasks.Rising ↔ s.tasks.Rising := by
  simp [State.load]

@[simp] theorem State.store_rising (s : State) (d : BitVec 6) (va : Word) (n cls : Nat) (rel : Bool) :
    (s.store d va n cls rel).tasks.Rising ↔ s.tasks.Rising := by
  simp [State.store]

@[simp] theorem State.loadM_rising (s : State) (d b : BitVec 6) (k : BitVec 4) (off : BitVec 17) (n : Nat) :
    (s.loadM d b k off n).tasks.Rising ↔ s.tasks.Rising := by
  simp [State.loadM]

@[simp] theorem State.storeM_rising (s : State) (d b : BitVec 6) (k : BitVec 4) (off : BitVec 17) (n : Nat) :
    (s.storeM d b k off n).tasks.Rising ↔ s.tasks.Rising := by
  simp [State.storeM]

@[simp] theorem execLdh_rising (s : State) (d b : BitVec 6) (k : BitVec 4) (e : BitVec 5) (z : BitVec 2) (zx : Bool) :
    Out.Rising (execLdh d b k e z zx s) ↔ s.tasks.Rising := by
  unfold execLdh
  dsimp only
  repeat' split
  all_goals simp

@[simp] theorem execChkh_rising (s : State) (d b : BitVec 6) (k : BitVec 4) (e : BitVec 5) (z : BitVec 2) (zx : Bool) :
    Out.Rising (execChkh d b k e z zx s) ↔ s.tasks.Rising := by
  fun_cases execChkh <;> simp +zetaDelta [*]

@[simp] theorem State.atom_rising (s : State) (dest : RDest) (va : Word) (n op : Nat) (ops : List Word) (o : BitVec 2) :
    (s.atom dest va n op ops o).tasks.Rising ↔ s.tasks.Rising := by
  simp [State.atom]

@[simp] theorem State.atom1_rising (s : State) (op : Nat) (d b v : BitVec 6) (o : BitVec 2) (z : Bool) :
    (s.atom1 op d b v o z).tasks.Rising ↔ s.tasks.Rising := by
  simp [State.atom1]

@[simp] theorem State.noteRemop_rising (s : State) (va gv : Word) : (s.noteRemop va gv).tasks.Rising ↔ s.tasks.Rising := by
  fun_cases State.noteRemop <;> simp +zetaDelta [*]

@[simp] theorem State.sendLaunch_rising (s : State) (core slot : Nat) (t : Task) (va : Word) (img : VReg) (park : Bool) (h : Held) :
    (s.sendLaunch core slot t va img park h).tasks.Rising ↔ s.tasks.Rising :=
  Iff.rfl

@[simp] theorem State.noiseCame_rising (s : State) (core slot kernel seq : Nat) (bs : Option (List Byte)) :
    (s.noiseCame core slot kernel seq bs).tasks.Rising ↔ s.tasks.Rising :=
  Iff.rfl

@[simp] theorem State.answerTask_rising (s : State) (core slot kernel : Nat) (h : Held) (r : Served) :
    (s.answerTask core slot kernel h r).tasks.Rising ↔ s.tasks.Rising := by
  unfold State.answerTask
  dsimp only
  repeat' split
  all_goals simp

@[simp] theorem State.answer_rising (s : State) (h : Held) (r : Served) : (s.answer h r).tasks.Rising ↔ s.tasks.Rising := by
  fun_cases State.answer <;> simp +zetaDelta [*]

@[simp] theorem State.retryHeld_rising (s : State) (h : Held) : (s.retryHeld h).tasks.Rising ↔ s.tasks.Rising := by
  fun_cases State.retryHeld <;> grind [!. State.answer_rising, !. State.serve_rising]

@[simp] theorem State.sourceWords_rising (s : State) (n : Nat) : (s.sourceWords n).2.tasks.Rising ↔ s.tasks.Rising := Iff.rfl

@[simp] theorem State.noiseAdvance_rising (s : State) (n : Nat) : (s.noiseAdvance n).tasks.Rising ↔ s.tasks.Rising := by simp [State.noiseAdvance]

@[simp] theorem State.logNoise_rising (s : State) (va : Word) (ws : List (BitVec 16)) : (s.logNoise va ws).tasks.Rising ↔ s.tasks.Rising := by
  simp [State.logNoise]

@[simp] theorem State.draw_rising (s : State) (n : Nat) (use : NoiseUse) : (s.draw n use).1.tasks.Rising ↔ s.tasks.Rising := by
  fun_cases State.draw <;> grind [!. State.issue_rising, !. State.logNoise_rising, !. State.newHeld_rising, !. State.noiseAdvance_rising,
    !. State.note_rising, !. State.raise_rising, !. State.sourceWords_rising]

@[simp] theorem State.drawn_rising (s : State) (n : Nat) (use : NoiseUse) (d : RDest) (sup : Bool) (lam : Nat) :
    (s.drawn n use d sup lam).tasks.Rising ↔ s.tasks.Rising := by
  fun_cases State.drawn <;> grind [!. State.draw_rising, !. State.hold_rising, !. State.issueTo_rising, !. State.result_rising]

/-! ### The vector slots (R280 to R310) -/

@[simp] theorem State.withV_rising {s : State} {k : State → State} (hk : (k s).tasks.Rising ↔ s.tasks.Rising) (ns : List Nat) :
    (s.withV ns k).tasks.Rising ↔ s.tasks.Rising := by
  simp [State.withV, hk]

@[simp] theorem State.retEls_rising (s : State) (d : Dst) (lam w : Nat) (xs : List Int) : (s.retEls d lam w xs).tasks.Rising ↔ s.tasks.Rising := by
  simp [State.retEls]

@[simp] theorem State.retAll_rising (s : State) (d : Dst) (lam : Nat) (x : Int) : (s.retAll d lam x).tasks.Rising ↔ s.tasks.Rising := by
  simp [State.retAll]

@[simp] theorem State.vMap3_rising (s : State) (t : BitVec 2) (d : Dst) (a b : Src) (lam : Nat) (f : Nat → Int → Int → Int → Int) :
    (s.vMap3 t d a b lam f).tasks.Rising ↔ s.tasks.Rising := by
  simp [State.vMap3]

@[simp] theorem State.vMap2_rising (s : State) (t : BitVec 2) (d : Dst) (a b : Src) (lam : Nat) (f : Nat → Int → Int → Int) :
    (s.vMap2 t d a b lam f).tasks.Rising ↔ s.tasks.Rising := by
  simp [State.vMap2]

@[simp] theorem State.vMap1_rising (s : State) (t : BitVec 2) (d : Dst) (a : Src) (lam : Nat) (f : Nat → Int → Int) :
    (s.vMap1 t d a lam f).tasks.Rising ↔ s.tasks.Rising := by
  simp [State.vMap1]

@[simp] theorem State.vRed_rising (s : State) (t : BitVec 2) (d : Dst) (a : Src) (f : Nat → List Int → Int) :
    (s.vRed t d a f).tasks.Rising ↔ s.tasks.Rising := by
  simp [State.vRed]

@[simp] theorem State.vBits_rising (s : State) (d : Dst) (a b : Src) (f : VReg → VReg → VReg) : (s.vBits d a b f).tasks.Rising ↔ s.tasks.Rising := by
  simp [State.vBits]

@[simp] theorem State.kOp_rising (s : State) (d : Dst) (a b : Src) (f : Word → Word → Word) : (s.kOp d a b f).tasks.Rising ↔ s.tasks.Rising := by
  simp [State.kOp]

@[simp] theorem State.vScan_rising (s : State) (t : BitVec 2) (d : Dst) (a : Src) (ex : Bool) : (s.vScan t d a ex).tasks.Rising ↔ s.tasks.Rising := by
  simp [State.vScan]

@[simp] theorem execVbcastV_rising (s : State) (t : BitVec 2) (d : Dst) (a b : Src) : Out.Rising (execVbcastV t d a b s) ↔ s.tasks.Rising := by
  fun_cases execVbcastV
  grind [Out.rising_next, !. State.raise_rising, !. State.retEls_rising, !. State.touch_rising, !. State.withV_rising]

@[simp] theorem execVextr_rising (s : State) (t : BitVec 2) (d : Dst) (a b : Src) : Out.Rising (execVextr t d a b s) ↔ s.tasks.Rising := by
  fun_cases execVextr
  grind [Out.rising_next, !. State.raise_rising, !. State.retG_rising, !. State.touch_rising, !. State.withV_rising]

@[simp] theorem execVgath_rising (s : State) (u : Bool) (t : BitVec 2) (d : Dst) (a b : Src) :
    Out.Rising (execVgath u t d a b s) ↔ s.tasks.Rising := by
  refine Out.rising_next.trans (State.withV_rising ?_ _)
  dsimp only
  split <;> simp

@[simp] theorem execVscat_rising (s : State) (t : BitVec 2) (d : Dst) (a b : Src) : Out.Rising (execVscat t d a b s) ↔ s.tasks.Rising := by
  refine Out.rising_next.trans (State.withV_rising ?_ _)
  dsimp only
  split <;> [skip; split] <;> simp

@[simp] theorem State.flushRaw_rising (s : State) (core : Nat) : (s.flushRaw core).tasks.Rising ↔ s.tasks.Rising := Iff.rfl

@[simp] theorem execVtld_rising (s : State) (d : BitVec 7) (b : BitVec 6) (off : BitVec 16) : Out.Rising (execVtld d b off s) ↔ s.tasks.Rising := by
  fun_cases execVtld
  grind [Out.rising_next, !. State.issueTo_rising, !. State.raise_rising, !. State.withV_rising]

@[simp] theorem execVtst_rising (s : State) (d : BitVec 7) (b : BitVec 6) (off : BitVec 16) : Out.Rising (execVtst d b off s) ↔ s.tasks.Rising := by
  refine Out.rising_next.trans (State.withV_rising ?_ _)
  dsimp only
  split <;> simp

@[simp] theorem State.overrule_rising (s : State) (i : Nat) : (s.overrule i).tasks.Rising ↔ s.tasks.Rising := by simp [State.overrule]

@[simp] theorem State.setKcount_rising (s : State) (q n : Nat) : (s.setKcount q n).tasks.Rising ↔ s.tasks.Rising := by simp [State.setKcount]

@[simp] theorem execVdrain_rising (s : State) (c : BitVec 3) (q : BitVec 2) (d : Dst) (k : BitVec 3) :
    Out.Rising (execVdrain c q d k s) ↔ s.tasks.Rising := by
  fun_cases execVdrain <;> simp +zetaDelta <;> grind [!. State.issue_rising, !. State.newHeld_rising]

@[simp] theorem State.vRoutine_rising (s : State) (d : Dst) (a b : Src) (lam : Nat) (f : Int → Nat → Int) :
    (s.vRoutine d a b lam f).tasks.Rising ↔ s.tasks.Rising := by
  simp [State.vRoutine]

/-! ### Tile instructions and tile tasks (R180, R311 to R340) -/

@[simp] theorem State.whenFree_rising {s : State} {k : State → State} (hk : (k s).tasks.Rising ↔ s.tasks.Rising) (rw : List Nat × List Nat) :
    (s.whenFree rw k).tasks.Rising ↔ s.tasks.Rising := by
  simp [State.whenFree, hk]

@[simp] theorem State.post_rising (s : State) {k : State → Nat → Nat → State} (hk : ∀ t e tag, (k t e tag).tasks.Rising ↔ t.tasks.Rising)
    (ins : Instr) (ops desc : List Word) (words total : Nat) (promise : Word) :
    (s.post ins ops desc words total promise k).tasks.Rising ↔ s.tasks.Rising := by
  have hd (seq : Nat) : (if words = 0 then (s, Drawn.words []) else s.draw words (.post seq)).1.tasks.Rising ↔ s.tasks.Rising := by
    split <;> simp
  unfold State.post
  extract_lets c
  split
  · rfl
  · extract_lets go
    have hgo (t : State) (ws : List (BitVec 16)) (hold : Option Nat) : (go t ws hold).tasks.Rising ↔ t.tasks.Rising := by simp [go, hk]
    rw [← hd c.depSeq]
    split <;> rename_i heq <;> simp [heq, hgo]

@[simp] theorem State.postTile_rising (s : State) (checks : List (Bool × Nat × Word)) (ins : Instr) (ops : List Word) (words : Nat) :
    (s.postTile checks ins ops words).tasks.Rising ↔ s.tasks.Rising := by
  fun_cases State.postTile <;> grind [!. State.post_rising, !. State.raise_rising]

@[simp] theorem execTdset_rising (s : State) (x y : BitVec 6) : Out.Rising (execTdset x y s) ↔ s.tasks.Rising := by
  fun_cases execTdset
  grind [Out.rising_next, !. State.issueTo_rising, !. State.raise_rising, !. State.whenFree_rising]

@[simp] theorem State.twait_rising (s : State) (zs all : Bool) (reg : Nat) (y : BitVec 6) : (s.twait zs all reg y).tasks.Rising ↔ s.tasks.Rising := by
  fun_cases State.twait <;> simp +zetaDelta [*]

@[simp] theorem State.laneOpt_rising (s : State) (form : Nat) (a : Nat) (vs : List Nat) (d : Dst) (b : Src) (k : Nat) :
    (s.laneOpt form a vs d b k).tasks.Rising ↔ s.tasks.Rising := by
  simp [State.laneOpt]

@[simp] theorem State.setDep_rising (s : State) (core e : Nat) (d : Dep) : (s.setDep core e d).tasks.Rising ↔ s.tasks.Rising := Iff.rfl

@[simp] theorem State.settleWaits_rising (s : State) (core : Nat) : (s.settleWaits core).tasks.Rising ↔ s.tasks.Rising := by
  refine State.foldl_rising (fun t slot => ?_) _ _
  extract_lets x c go settle
  have hsettle (w : List (Nat × Dep)) : (settle w).tasks.Rising ↔ t.tasks.Rising := by
    dsimp only [settle]
    split <;> simp [go]
  split
  · exact hsettle _
  · exact hsettle _
  · rfl

@[simp] theorem State.retireDep_rising (s : State) (core e : Nat) : (s.retireDep core e).tasks.Rising ↔ s.tasks.Rising := by simp [State.retireDep]

@[simp] theorem State.eventTask_rising (s : State) (core slot : Nat) (r : Report) : (s.eventTask core slot r).tasks.Rising ↔ s.tasks.Rising := by
  simp [State.eventTask]

@[simp] theorem execTileTaskStart_rising (s : State) (core e : Nat) : Out.Rising (execTileTaskStart core e s) ↔ s.tasks.Rising := by
  fun_cases execTileTaskStart <;> grind [Out.rising_next, !. State.eventTask_rising, !. State.retireDep_rising, !. State.setDep_rising]

@[simp] theorem execTileTaskComplete_rising (s : State) (core e : Nat) : Out.Rising (execTileTaskComplete core e s) ↔ s.tasks.Rising := by
  fun_cases execTileTaskComplete <;> simp +zetaDelta

/-! ### The copy engine (R137 to R140, R259, R341 to R347) -/

@[simp] theorem State.postCopy_rising (s : State) (checks : List (Bool × Nat × Word)) (ins : Instr) (ops desc : List Word) (n z : Nat)
    (first : Option (Word × Nat)) : (s.postCopy checks ins ops desc n z first).tasks.Rising ↔ s.tasks.Rising := by
  fun_cases State.postCopy <;> simp

@[simp] theorem State.tcpy_rising (s : State) (ins : Instr) (x y z : BitVec 6) (st dt : Bool) :
    (s.tcpy ins x y z st dt).tasks.Rising ↔ s.tasks.Rising := by
  simp [State.tcpy]

@[simp] theorem State.holdCopy_rising (s : State) (core e : Nat) (d : Dep) (va : Word) (n : Nat) (why : HoldWhy) (ia : Nat) :
    (s.holdCopy core e d va n why ia).2.tasks.Rising ↔ s.tasks.Rising :=
  Iff.rfl

@[simp] theorem State.burstRead_rising (s : State) (core e : Nat) (d : Dep) (va : Word) (n : Nat) (dec : Bool) :
    (s.burstRead core e d va n dec).1.tasks.Rising ↔ s.tasks.Rising := by
  unfold State.burstRead
  dsimp only
  repeat' split
  all_goals simp

@[simp] theorem State.burstWrite_rising (s : State) (core e : Nat) (d : Dep) (dst : CEnd) (bs : List (Byte × Bool)) :
    (s.burstWrite core e d dst bs).1.tasks.Rising ↔ s.tasks.Rising := by
  fun_cases State.burstWrite <;> simp

@[simp] theorem State.dropCensus_rising (s : State) (core : Nat) (d : Dep) (decoded : Bool) :
    (s.dropCensus core d decoded).tasks.Rising ↔ s.tasks.Rising := by
  fun_cases State.dropCensus <;> simp +zetaDelta [*]

@[simp] theorem State.failCopy_rising (s : State) (core e cause : Nat) (tv : Word) : (s.failCopy core e cause tv).tasks.Rising ↔ s.tasks.Rising := by
  fun_cases State.failCopy <;> grind [!. State.dropCensus_rising, !. State.setDep_rising, !. State.settleWaits_rising]

@[simp] theorem State.stopCopy_rising (s : State) (core e : Nat) (d : Dep) (cause : Nat) (tv : Word) :
    (s.stopCopy core e d cause tv).tasks.Rising ↔ s.tasks.Rising := by
  fun_cases State.stopCopy <;> grind [!. State.dropCensus_rising, !. State.failCopy_rising, !. State.reportTask_rising, !. State.retireDep_rising]

@[simp] theorem State.endCopy_rising (s : State) (core e : Nat) (d : Dep) : (s.endCopy core e d).tasks.Rising ↔ s.tasks.Rising := by
  unfold State.endCopy
  split <;> simp

@[simp] theorem State.runTxps_rising (s : State) (core e : Nat) (d : Dep) (x y : Nat) : (s.runTxps core e d x y).tasks.Rising ↔ s.tasks.Rising := by
  fun_cases State.runTxps <;> simp +zetaDelta

@[simp] theorem State.partTile_rising (s : State) (core : Nat) (td : TDesc) (syms : List Byte) :
    (s.partTile core td syms).tasks.Rising ↔ s.tasks.Rising :=
  Iff.rfl

@[simp] theorem State.runTcpyd_rising (s : State) (core e : Nat) (d : Dep) (x : Nat) : (s.runTcpyd core e d x).tasks.Rising ↔ s.tasks.Rising := by
  fun_cases State.runTcpyd <;> simp

@[simp] theorem State.burstGot_rising (core e : Nat) (d : Dep) (p : State × BurstRes) :
    (State.burstGot core e d p).tasks.Rising ↔ p.1.tasks.Rising := by
  unfold State.burstGot
  split <;> simp

@[simp] theorem State.moveCopy_rising (s : State) (core e : Nat) (d : Dep) : (s.moveCopy core e d).tasks.Rising ↔ s.tasks.Rising := by
  fun_cases State.moveCopy <;> grind [!. State.burstGot_rising, !. State.burstRead_rising, !. State.burstWrite_rising, !. State.endCopy_rising,
    !. State.setDep_rising, !. State.stopCopy_rising]

@[simp] theorem execCopyBurstReply_rising (s : State) (core e : Nat) : Out.Rising (execCopyBurstReply core e s) ↔ s.tasks.Rising := by
  fun_cases execCopyBurstReply <;> grind [Out.rising_next, !. State.burstGot_rising, !. State.burstRead_rising, !. State.endCopy_rising,
    !. State.failCopy_rising, !. State.moveCopy_rising, !. State.runTcpyd_rising, !. State.runTxps_rising]

@[simp] theorem State.releaseCopy_rising (s : State) (h : Held) : (s.releaseCopy h).tasks.Rising ↔ s.tasks.Rising := by
  fun_cases State.releaseCopy <;> simp +zetaDelta [*]

@[simp] theorem execMissedPromise_rising (s : State) (core slot : Nat) : Out.Rising (execMissedPromise core slot s) ↔ s.tasks.Rising := by
  unfold execMissedPromise
  dsimp only
  split <;> simp

/-! ### Launches, kernels and barriers (R151 to R169, R189 to R199) -/

@[simp] theorem State.postKernel_rising (s : State) (ctx : Nat) (r : LaunchRec) (node : Option (Nat × Nat)) :
    (s.postKernel ctx r node).tasks.Rising ↔ s.tasks.Rising :=
  Iff.rfl

@[simp] theorem State.replyLaunch_rising (s : State) (l : LaunchReq) (posted : Bool) : (s.replyLaunch l posted).tasks.Rising ↔ s.tasks.Rising := by
  simp [State.replyLaunch]

@[simp] theorem State.refuseLaunch_rising (s : State) (l : LaunchReq) (cause : Nat) : (s.refuseLaunch l cause).tasks.Rising ↔ s.tasks.Rising := by
  simp [State.refuseLaunch]

@[simp] theorem State.postLaunch_rising (s : State) (l : LaunchReq) : (s.postLaunch l).tasks.Rising ↔ s.tasks.Rising := by simp [State.postLaunch]

@[simp] theorem State.unparkOne_rising (s : State) (level : Nat) : (s.unparkOne level).tasks.Rising ↔ s.tasks.Rising := by
  fun_cases State.unparkOne <;> simp

@[simp] theorem State.unpark_rising (s : State) (level n : Nat) : (s.unpark level n).tasks.Rising ↔ s.tasks.Rising := by
  fun_induction State.unpark s level n <;> simp [*]

@[simp] theorem State.unparkAll_rising (s : State) : s.unparkAll.tasks.Rising ↔ s.tasks.Rising := by simp [State.unparkAll]

@[simp] theorem execLaunchRecordArrival_rising (s : State) : Out.Rising (execLaunchRecordArrival s) ↔ s.tasks.Rising := by
  fun_cases execLaunchRecordArrival <;> simp +zetaDelta [*]

@[simp] theorem State.launch_rising (s : State) (a : BitVec 6) (d : BitVec 4) (w : Bool) : (s.launch a d w).tasks.Rising ↔ s.tasks.Rising := by
  fun_cases State.launch <;> grind [!. State.hold_rising, !. State.issue_rising, !. State.issueTo_rising, !. State.newHeld_rising,
    !. State.note_rising, !. State.raise_rising, !. State.sendLaunch_rising, !. State.setAct_tasks]

@[simp] theorem execKernelPlacement_rising (s : State) (k : Nat) : Out.Rising (execKernelPlacement k s) ↔ s.tasks.Rising := by
  unfold execKernelPlacement
  split
  · exact Out.rising_next
  · split
    · exact Out.rising_next
    · exact Out.rising_next.trans ((State.unpark_rising ..).trans (State.foldl_rising (fun t c => by split <;> simp) _ _))

@[simp] theorem State.doneAdd_rising (s : State) (core slot kernel ctx : Nat) (va : Word) :
    (s.doneAdd core slot kernel ctx va).tasks.Rising ↔ s.tasks.Rising := by
  fun_cases State.doneAdd <;> grind [!. State.freshId_rising, !. State.hold_rising, !. State.serve_rising]

@[simp] theorem State.freeBars_rising (s : State) (k : Nat) : (s.freeBars k).tasks.Rising ↔ s.tasks.Rising := Iff.rfl

@[simp] theorem State.taskEnded_rising (s : State) (core slot k : Nat) : (s.taskEnded core slot k).tasks.Rising ↔ s.tasks.Rising := by
  fun_cases State.taskEnded <;> simp +zetaDelta [*]

@[simp] theorem execTaskEndComplete_rising {s : State} (hs : s.tasks.Rising) (core slot : Nat) : Out.Rising (execTaskEndComplete core slot s) := by
  fun_cases execTaskEndComplete <;> simp +zetaDelta [hs, hs.del]

@[simp] theorem State.setBarAt_rising (s : State) (home n : Nat) (b : Barrier) : (s.setBarAt home n b).tasks.Rising ↔ s.tasks.Rising := Iff.rfl

@[simp] theorem State.wakeBar_rising (s : State) (home n gen : Nat) : (s.wakeBar home n gen).tasks.Rising ↔ s.tasks.Rising :=
  Tab.rising_map fun x => by split <;> [split; skip] <;> rfl

@[simp] theorem State.barFail_rising (s : State) (home cause lam : Nat) (tv : Word) :
    (s.barFail home cause lam tv).tasks.Rising ↔ s.tasks.Rising := by
  simp [State.barFail]

@[simp] theorem State.arrive_rising (s : State) (home n g : Nat) (id : Option Nat) (wait : Bool) (seq : Nat) :
    (s.arrive home n g id wait seq).tasks.Rising ↔ s.tasks.Rising :=
  Iff.rfl

@[simp] theorem State.arrivalsReach_rising (s : State) : (s.arrivalsReach).tasks.Rising ↔ s.tasks.Rising := Iff.rfl

@[simp] theorem execBarrierArrival_rising (s : State) : Out.Rising (execBarrierArrival s) ↔ s.tasks.Rising := by
  unfold execBarrierArrival
  dsimp only
  repeat' split
  all_goals simp

/-! ### The home controllers (R103, R106, R110 to R120, R129) -/

@[simp] theorem State.unitRead_rising (s : State) (h : Held) (va : Word) (n : Nat) : (s.unitRead h va n).1.tasks.Rising ↔ s.tasks.Rising := by
  fun_cases State.unitRead <;> simp

@[simp] theorem State.unitServe_rising (s : State) (h : Held) : (s.unitServe h).1.tasks.Rising ↔ s.tasks.Rising := by
  fun_cases State.unitServe <;> grind [!. State.serve_rising, !. State.unitRead_rising]

@[simp] theorem State.unitAccess_rising (s : State) (u : UnitId) (ctx : Nat) (req : MemReq) (hold : Option Nat) :
    (s.unitAccess u ctx req hold).1.tasks.Rising ↔ s.tasks.Rising := by
  fun_cases State.unitAccess <;> grind [!. State.freshId_rising, !. State.hold_rising, !. State.unitServe_rising]

@[simp] theorem State.unhold_rising (s : State) (id : Nat) : (s.unhold id).tasks.Rising ↔ s.tasks.Rising := Iff.rfl

@[simp] theorem State.failHeld_rising (s : State) (h : Held) (cause : Nat) (tv : Word) : (s.failHeld h cause tv).tasks.Rising ↔ s.tasks.Rising := by
  fun_cases State.failHeld <;> simp +zetaDelta [*]

@[simp] theorem State.retry_rising (s : State) (h : Held) : (s.retry h).tasks.Rising ↔ s.tasks.Rising := by
  fun_cases State.retry <;> grind [!. State.failHeld_rising, !. State.releaseCopy_rising, !. State.retryHeld_rising, !. State.unhold_rising,
    !. State.unitServe_rising]

@[simp] theorem State.replyHeld_rising (s : State) (id off : Nat) (data : List Byte) (ill : List Nat) (cause pstate : Nat) :
    (s.replyHeld id off data ill cause pstate).tasks.Rising ↔ s.tasks.Rising := by
  fun_cases State.replyHeld <;> simp +zetaDelta [*]

@[simp] theorem execMemoryReplyArrival_rising (s : State) (id : Nat) (data : List Byte) (cause : BitVec 9) (pstate : BitVec 3) :
    Out.Rising (execMemoryReplyArrival id data cause pstate s) ↔ s.tasks.Rising := by
  unfold execMemoryReplyArrival
  split <;> simp

@[simp] theorem State.reportUnit_rising (s : State) (u : UnitId) (r : Report) : (s.reportUnit u r).tasks.Rising ↔ s.tasks.Rising := by
  fun_cases State.reportUnit <;> simp

@[simp] theorem State.dropSide_rising (s : State) (key idx : Nat) : (s.dropSide key idx).tasks.Rising ↔ s.tasks.Rising := Iff.rfl

@[simp] theorem State.failSide_rising (s : State) (key : Nat) (e : SideEnt) (cause : Nat) (tv : Word) :
    (s.failSide key e cause tv).tasks.Rising ↔ s.tasks.Rising := by
  simp [State.failSide]

@[simp] theorem State.performSide_rising (s : State) (key : Nat) (e : SideEnt) (ls : List ByteLook) :
    (s.performSide key e ls).tasks.Rising ↔ s.tasks.Rising := by
  fun_cases State.performSide <;> simp +zetaDelta [*]

@[simp] theorem State.replayEnt_rising (s : State) (key : Nat) (e : SideEnt) : (s.replayEnt key e).tasks.Rising ↔ s.tasks.Rising := by
  fun_cases State.replayEnt <;> simp +zetaDelta [*]

@[simp] theorem State.goesOn_rising (s : State) (a0 : Waiting) : (s.goesOn a0).tasks.Rising ↔ s.tasks.Rising := by fun_cases State.goesOn <;> simp

@[simp] theorem State.endFences_rising (s : State) : (s.endFences).tasks.Rising ↔ s.tasks.Rising := by simp [State.endFences]

@[simp] theorem State.writeAllRecs_rising (s : State) : s.writeAllRecs.tasks.Rising ↔ s.tasks.Rising := by simp [State.writeAllRecs]

@[simp] theorem State.sayReports_rising (s : State) : s.sayReports.tasks.Rising ↔ s.tasks.Rising := by simp [State.sayReports]

@[simp] theorem State.settle_rising (s : State) : s.settle.tasks.Rising ↔ s.tasks.Rising := by simp [State.settle]

@[simp] theorem State.doFlush_rising (s : State) (n : Nat) : (s.doFlush n).tasks.Rising ↔ s.tasks.Rising := by simp [State.doFlush]

@[simp] theorem execFgenFlush_rising (s : State) (n : BitVec 4) : Out.Rising (execFgenFlush n s) ↔ s.tasks.Rising := by simp [execFgenFlush]

@[simp] theorem execPtinv_rising (s : State) (v : Word) : Out.Rising (execPtinv v s) ↔ s.tasks.Rising := by simp [execPtinv]

@[simp] theorem State.afterPtinv_rising (s : State) (n : Nat) : (s.afterPtinv n).tasks.Rising ↔ s.tasks.Rising := by simp [State.afterPtinv]

@[simp] theorem execPtinvComplete_rising (s : State) : Out.Rising (execPtinvComplete s) ↔ s.tasks.Rising := by
  fun_cases execPtinvComplete <;> simp +zetaDelta [*]

@[simp] theorem execPgabort_rising (s : State) (v : Word) : Out.Rising (execPgabort v s) ↔ s.tasks.Rising := by simp [execPgabort]

@[simp] theorem execPgdisc_rising (s : State) (a b : Src) : Out.Rising (execPgdisc a b s) ↔ s.tasks.Rising := by
  fun_cases execPgdisc <;> simp <;> grind [!. State.hold_rising, !. State.newHeld_rising, !. State.serve_rising, !. State.touch_rising]

@[simp] theorem State.prefRange_rising (s : State) (ctx va ia0 hi : Nat) (w : Option Bool) (k ia : Nat) :
    (s.prefRange ctx va ia0 hi w k ia).tasks.Rising ↔ s.tasks.Rising := by
  fun_induction State.prefRange s ctx va ia0 hi w k ia <;> grind [!. State.cacheLeaf_rising, !. State.record_rising]

@[simp] theorem State.prefWalk_rising (s : State) (a b : Src) (w : Option Bool) : (s.prefWalk a b w).tasks.Rising ↔ s.tasks.Rising := by
  simp [State.prefWalk]

/-! ### Pending traps, the save area and resumption (R169 to R179, R220 to R237) -/

@[simp] theorem State.fetch_rising (s : State) (core slot : Nat) : (s.fetch core slot).1.tasks.Rising ↔ s.tasks.Rising := by
  fun_cases State.fetch <;> grind [!. State.freshId_rising, !. State.hold_rising, !. State.serveFetch_rising, !. State.setTaskAt_rising]

@[simp] theorem State.takePre_rising (s : State) (core slot : Nat) (inPlace : Bool) :
    (s.takePre core slot inPlace).tasks.Rising ↔ s.tasks.Rising := by
  simp [State.takePre]

@[simp] theorem State.preempted_rising (s : State) (core slot : Nat) (calm : Bool) (ok : Task → Bool) :
    (s.preempted core slot calm ok).tasks.Rising ↔ s.tasks.Rising := by
  unfold State.preempted
  split <;> simp

@[simp] theorem execPreemptionLanding_rising (s : State) (core slot : Nat) : Out.Rising (execPreemptionLanding core slot s) ↔ s.tasks.Rising := by
  simp [execPreemptionLanding]

@[simp] theorem execPreemptionForced_rising (s : State) (core slot : Nat) : Out.Rising (execPreemptionForced core slot s) ↔ s.tasks.Rising := by
  simp [execPreemptionForced]

@[simp] theorem State.raiseJump_rising (s : State) (core slot : Nat) (e : Word × Nat × Nat × Word) :
    (s.raiseJump core slot e).tasks.Rising ↔ s.tasks.Rising := by
  simp [State.raiseJump]

@[simp] theorem execTakePendingTrap_rising (s : State) (core slot : Nat) : Out.Rising (execTakePendingTrap core slot s) ↔ s.tasks.Rising := by
  fun_cases execTakePendingTrap <;> simp

@[simp] theorem execPreempt_rising (s : State) (v : Word) : Out.Rising (execPreempt v s) ↔ s.tasks.Rising := by simp [execPreempt]

@[simp] theorem State.writePieces_rising (s : State) (u : UnitId) (ctx base : Nat) (ps : List (Nat × List Byte)) (n : Nat) :
    (s.writePieces u ctx base ps n).1.tasks.Rising ↔ s.tasks.Rising := by
  fun_induction State.writePieces s u ctx base ps n <;> grind [!. State.writeVA_rising]

@[simp] theorem State.endSave_rising {s : State} (hs : s.tasks.Rising) (core slot : Nat) (used : List (Nat × Nat)) :
    (s.endSave core slot used).tasks.Rising := by
  simp [State.endSave, hs, hs.del]

@[simp] theorem State.offFatal_rising (s : State) (o : OffTask) : (s.offFatal o).tasks.Rising ↔ s.tasks.Rising := by simp [State.offFatal]

@[simp] theorem State.saveLate_rising (s : State) (o : OffTask) : (s.saveLate o).tasks.Rising ↔ s.tasks.Rising := by
  unfold State.saveLate
  dsimp only
  split <;> simp

@[simp] theorem execSaveComplete_rising {s : State} (hs : s.tasks.Rising) (core slot : Nat) : Out.Rising (execSaveComplete core slot s) := by
  fun_cases execSaveComplete <;> grind [Out.rising_next, !. State.endSave_rising, !. State.fatal_rising, !. State.saveLate_rising,
    !. State.setTaskAt_rising, !. State.writePieces_rising]

@[simp] theorem State.goOn_rising (s : State) (core slot : Nat) (t : Task) : (s.goOn core slot t).tasks.Rising ↔ s.tasks.Rising := by
  simp [State.goOn]

@[simp] theorem State.putBack_rising (s : State) (o : OffTask) : (s.putBack o).tasks.Rising ↔ s.tasks.Rising := by simp [State.putBack]

@[simp] theorem State.readPieces_rising (s : State) (u : UnitId) (ctx base : Nat) (hold : Option Nat) (ps : List (Nat × Nat)) (acc : List Byte) :
    (s.readPieces u ctx base hold ps acc).1.tasks.Rising ↔ s.tasks.Rising := by
  fun_induction State.readPieces s u ctx base hold ps acc <;> grind [!. State.unitAccess_rising]

@[simp] theorem execTaskResume_rising (s : State) (core slot : Nat) : Out.Rising (execTaskResume core slot s) ↔ s.tasks.Rising := by
  fun_cases execTaskResume <;> grind [Out.rising_next, !. State.goOn_rising, !. State.offFatal_rising, !. State.putBack_rising,
    !. State.readPieces_rising]

@[simp] theorem execMonopolyWatchdogExpiry_rising (s : State) (core : Nat) : Out.Rising (execMonopolyWatchdogExpiry core s) ↔ s.tasks.Rising := by
  fun_cases execMonopolyWatchdogExpiry <;> simp

@[simp] theorem State.convert_rising (s : State) (core slot : Nat) : (s.convert core slot).tasks.Rising ↔ s.tasks.Rising := by
  simp [State.convert]

@[simp] theorem execFreezeConversion_rising (s : State) (core : Nat) : Out.Rising (execFreezeConversion core s) ↔ s.tasks.Rising := by
  fun_cases execFreezeConversion <;> simp

@[simp] theorem execWaiteReread_rising (s : State) (core slot : Nat) : Out.Rising (execWaiteReread core slot s) ↔ s.tasks.Rising := by
  fun_cases execWaiteReread <;> grind [Out.rising_next, !. State.hold_rising, !. State.serve_rising, !. State.setTaskAt_rising,
    !. State.unhold_rising]

@[simp] theorem State.rereadFor_rising (s : State) (u : UnitId) : (s.rereadFor u).tasks.Rising ↔ s.tasks.Rising := by
  unfold State.rereadFor
  split
  · refine State.foldl_rising (fun t k => ?_) _ _
    split
    · exact State.after_rising_iff (execWaiteReread_rising t ..)
    · rfl
  · rfl

/-! ### Links and the rotor (R351 to R383) -/

@[simp] theorem State.setLinkAt_rising (s : State) (n : Nat) (l : Link) : (s.setLinkAt n l).tasks.Rising ↔ s.tasks.Rising := Iff.rfl

@[simp] theorem State.leftAt_rising (s : State) (p : Packet) (now : Nat) : (s.leftAt p now).tasks.Rising ↔ s.tasks.Rising := by simp [State.leftAt]

@[simp] theorem State.sendCw_rising (s : State) (n seq : Nat) (flits : List (List Byte)) : (s.sendCw n seq flits).tasks.Rising ↔ s.tasks.Rising :=
  Iff.rfl

@[simp] theorem State.leave_rising (s : State) (n : Nat) (p : Packet) (rest : List Packet) : (s.leave n p rest).tasks.Rising ↔ s.tasks.Rising := by
  simp [State.leave]

@[simp] theorem State.pump_rising (s : State) (n : Nat) : (s.pump n).tasks.Rising ↔ s.tasks.Rising := by
  unfold State.pump
  dsimp only
  repeat' split
  all_goals simp

@[simp] theorem State.enqueue_rising (s : State) (n : Nat) (p : Packet) : (s.enqueue n p).tasks.Rising ↔ s.tasks.Rising := Iff.rfl

@[simp] theorem State.toTorus_rising (s : State) (p : Packet) : (s.toTorus p).tasks.Rising ↔ s.tasks.Rising := by fun_cases State.toTorus <;> simp

@[simp] theorem State.routeOwn_rising (s : State) (p : Packet) : (s.routeOwn p).tasks.Rising ↔ s.tasks.Rising := by
  fun_cases State.routeOwn <;> simp +zetaDelta [*]

@[simp] theorem State.pumpAll_rising (s : State) : (s.pumpAll).tasks.Rising ↔ s.tasks.Rising := by simp [State.pumpAll]

@[simp] theorem execPacketRoute_rising (s : State) : Out.Rising (execPacketRoute s) ↔ s.tasks.Rising := by
  fun_cases execPacketRoute <;> simp +zetaDelta [*]

@[simp] theorem State.losePacket_rising (s : State) (u : Unacked) : (s.losePacket u).tasks.Rising ↔ s.tasks.Rising := by
  fun_cases State.losePacket <;> simp

@[simp] theorem State.unqueue_rising (s : State) (p : Packet → Bool) : (s.unqueue p).tasks.Rising ↔ s.tasks.Rising := Iff.rfl

@[simp] theorem State.resend_rising (s : State) (tgt seq : Nat) : (s.resend tgt seq).tasks.Rising ↔ s.tasks.Rising := by
  fun_cases State.resend <;> simp +zetaDelta [*]

@[simp] theorem State.requeue_rising (s : State) (n : Nat) (ps : List Packet) : (s.requeue n ps).tasks.Rising ↔ s.tasks.Rising :=
  State.foldl_rising (fun t p => by split <;> [skip; split] <;> simp) _ _

@[simp] theorem State.dropLink_rising (s : State) (n : Nat) (st : LStat) (cause : Nat) : (s.dropLink n st cause).tasks.Rising ↔ s.tasks.Rising := by
  simp [State.dropLink]

@[simp] theorem execLnkctlTrain_rising (s : State) (n : BitVec 8) : Out.Rising (execLnkctlTrain n s) ↔ s.tasks.Rising := by simp [execLnkctlTrain]

@[simp] theorem execLnkctlDown_rising (s : State) (n : BitVec 8) : Out.Rising (execLnkctlDown n s) ↔ s.tasks.Rising := by simp [execLnkctlDown]

@[simp] theorem execLinkTrainingComplete_rising (s : State) (n : BitVec 8) (healthy : BitVec 16) :
    Out.Rising (execLinkTrainingComplete n healthy s) ↔ s.tasks.Rising := by
  fun_cases execLinkTrainingComplete <;> simp

@[simp] theorem execLinkTrainingTimeout_rising (s : State) (n : BitVec 8) : Out.Rising (execLinkTrainingTimeout n s) ↔ s.tasks.Rising := by
  simp [execLinkTrainingTimeout]

@[simp] theorem State.loseLane_rising (s : State) (n k : Nat) : (s.loseLane n k).tasks.Rising ↔ s.tasks.Rising := by
  fun_cases State.loseLane <;> simp +zetaDelta [*]

@[simp] theorem State.replayLink_rising (s : State) (n : Nat) : (s.replayLink n).tasks.Rising ↔ s.tasks.Rising := by simp [State.replayLink]

@[simp] theorem execLinkWidthAgreed_rising (s : State) (n : BitVec 8) : Out.Rising (execLinkWidthAgreed n s) ↔ s.tasks.Rising := by
  fun_cases execLinkWidthAgreed <;> simp +zetaDelta [*]

@[simp] theorem execLaneThresholdCrossed_rising (s : State) (n : BitVec 8) (lane : BitVec 4) (syms : BitVec 32) :
    Out.Rising (execLaneThresholdCrossed n lane syms s) ↔ s.tasks.Rising := by
  simp [execLaneThresholdCrossed]

@[simp] theorem execLaneRetrainTimeout_rising (s : State) (n : BitVec 8) : Out.Rising (execLaneRetrainTimeout n s) ↔ s.tasks.Rising := by
  simp [execLaneRetrainTimeout]

@[simp] theorem execLinkWiden_rising (s : State) (n : BitVec 8) : Out.Rising (execLinkWiden n s) ↔ s.tasks.Rising := by
  fun_cases execLinkWiden <;> simp

@[simp] theorem State.ackFlits_rising (s : State) (n ack : Nat) : (s.ackFlits n ack).tasks.Rising ↔ s.tasks.Rising := by simp [State.ackFlits]

@[simp] theorem State.countLanes_rising (s : State) (n : Nat) (errs : List Nat) : (s.countLanes n errs).tasks.Rising ↔ s.tasks.Rising := by
  simp [State.countLanes]

@[simp] theorem execReplayAckTimeout_rising (s : State) (n : BitVec 8) : Out.Rising (execReplayAckTimeout n s) ↔ s.tasks.Rising := by
  simp [execReplayAckTimeout]

@[simp] theorem execFarDepthTimeout_rising (s : State) (n : BitVec 8) : Out.Rising (execFarDepthTimeout n s) ↔ s.tasks.Rising := by
  simp [execFarDepthTimeout]

@[simp] theorem execRotorEnable_rising (s : State) : Out.Rising (execRotorEnable s) ↔ s.tasks.Rising := by simp [execRotorEnable]

@[simp] theorem State.offRotor_rising (s : State) (p : Nat → Packet → Bool) (held : Packet → Bool) :
    (s.offRotor p held).tasks.Rising ↔ s.tasks.Rising := by
  simp [State.offRotor]

@[simp] theorem State.unlock_rising (s : State) : (s.unlock).tasks.Rising ↔ s.tasks.Rising := by simp [State.unlock]

@[simp] theorem State.relayIn_rising (s : State) (p : Packet) : (s.relayIn p).tasks.Rising ↔ s.tasks.Rising := by fun_cases State.relayIn <;> simp

@[simp] theorem execRotorDwellStart_rising (s : State) (idx : List Nat) (credits : List (Nat × Nat × Nat)) :
    Out.Rising (execRotorDwellStart idx credits s) ↔ s.tasks.Rising := by
  unfold execRotorDwellStart
  split
  · simp
  · rw [Out.rising_next]
    dsimp only
    rw [State.foldl_rising fun t q => by split <;> simp]
    split <;> simp

@[simp] theorem execRotorLockTimeout_rising (s : State) : Out.Rising (execRotorLockTimeout s) ↔ s.tasks.Rising := by simp [execRotorLockTimeout]

/-! ### Packets to and from other modules (R96, R116, R145 to R149) -/

@[simp] theorem State.refill_rising (s : State) (tgt : Nat) : (s.refill tgt).tasks.Rising ↔ s.tasks.Rising := by simp [State.refill]

@[simp] theorem execE2eAckArrival_rising (s : State) (tgt : BitVec 12) (seq : BitVec 32) (data : List Byte) (cause : BitVec 9) (pstate : BitVec 3) :
    Out.Rising (execE2eAckArrival tgt seq data cause pstate s) ↔ s.tasks.Rising := by
  unfold execE2eAckArrival
  dsimp only
  repeat' split
  all_goals simp

@[simp] theorem execE2eResendTimeout_rising (s : State) (tgt : BitVec 12) (seq : BitVec 32) :
    Out.Rising (execE2eResendTimeout tgt seq s) ↔ s.tasks.Rising := by
  unfold execE2eResendTimeout
  dsimp only
  repeat' split
  all_goals simp

@[simp] theorem execResetNoticeArrival_rising (s : State) (tgt : BitVec 12) : Out.Rising (execResetNoticeArrival tgt s) ↔ s.tasks.Rising := by
  simp [execResetNoticeArrival]

@[simp] theorem State.tgtWrite_rising (s : State) (p : Packet) (bs : List Byte) (ill : List Nat) :
    (s.tgtWrite p bs ill).1.tasks.Rising ↔ s.tasks.Rising := by
  fun_cases State.tgtWrite <;> simp +zetaDelta [*]

@[simp] theorem State.tgtAtomic_rising (s : State) (p : Packet) (op : Nat) (ops : List Word) :
    (s.tgtAtomic p op ops).1.tasks.Rising ↔ s.tasks.Rising := by
  fun_cases State.tgtAtomic <;> simp

@[simp] theorem State.tgtRemop_rising (s : State) (p : Packet) (block : List Byte) : (s.tgtRemop p block).1.tasks.Rising ↔ s.tasks.Rising := by
  fun_cases State.tgtRemop <;> grind [!. State.performRemop_rising, !. State.remopDone_rising]

@[simp] theorem State.appendTo_rising (s : State) (find : Finder) (q src row : Nat) (u : Nat × Nat) (data : List Byte) :
    (s.appendTo find q src row u data).1.tasks.Rising ↔ s.tasks.Rising := by
  fun_cases State.appendTo <;> simp

@[simp] theorem State.appendRow_rising (s : State) (find : Finder) (q src row : Nat) (u : Nat × Nat) (data : List Byte) :
    (s.appendRow find q src row u data).1.tasks.Rising ↔ s.tasks.Rising := by
  fun_cases State.appendRow <;> grind [!. State.appendTo_rising]

@[simp] theorem State.performPkt_rising (s : State) (p : Packet) : (s.performPkt p).1.tasks.Rising ↔ s.tasks.Rising := by
  fun_cases State.performPkt <;> simp

@[simp] theorem State.ackTo_rising (s : State) (src : Nat) (r : Reply) : (s.ackTo src r).tasks.Rising ↔ s.tasks.Rising := Iff.rfl

@[simp] theorem State.accept_rising (s : State) (p : Packet) : (s.accept p).tasks.Rising ↔ s.tasks.Rising := by
  fun_cases State.accept <;> grind [!. State.ackTo_rising, !. State.performPkt_rising]

@[simp] theorem State.openPair_rising (s : State) (p : Packet) : (s.openPair p).tasks.Rising ↔ s.tasks.Rising := by simp [State.openPair]

@[simp] theorem execPacketArrivalAtTarget_rising (s : State) (p : Packet) : Out.Rising (execPacketArrivalAtTarget p s) ↔ s.tasks.Rising := by
  fun_cases execPacketArrivalAtTarget <;> simp +zetaDelta [*]

@[simp] theorem State.retryPkts_rising (s : State) : s.retryPkts.tasks.Rising ↔ s.tasks.Rising := by simp [State.retryPkts]

/-! ### Leases (R395 to R402) -/

@[simp] theorem State.setLender_rising (s : State) (m : Nat) (l : Lender) : (s.setLender m l).tasks.Rising ↔ s.tasks.Rising := Iff.rfl

@[simp] theorem State.setBorrower_rising (s : State) (n : Nat) (b : Borrower) : (s.setBorrower n b).tasks.Rising ↔ s.tasks.Rising := Iff.rfl

@[simp] theorem State.say_rising (s : State) (m : OutMsg) : (s.say m).tasks.Rising ↔ s.tasks.Rising := Iff.rfl

@[simp] theorem State.swapAll_rising (s : State) (new : Word → Word) (ls : List (Word × Nat × Nat)) :
    (s.swapAll new ls).1.tasks.Rising ↔ s.tasks.Rising := by
  fun_induction State.swapAll s new ls <;> grind [!. State.swapLeaf_rising]

theorem State.unlendPage_rising (s : State) (r : Nat × Nat) (k : Nat) :
    (let ia := r.1 + k * 2 ^ 30
      if r.2 ≤ ia then s
      else match s.walk ia with
        | .leaf e a => if e.f 61 59 = 4 then (s.swapLeaf e (e.setF 61 59 0) a ia).1 else s
        | _ => s).tasks.Rising ↔ s.tasks.Rising := by
  dsimp only
  split
  · rfl
  · split
    · split <;> simp
    · rfl

@[simp] theorem State.unlend_rising (s : State) (m : Nat) : (s.unlend m).tasks.Rising ↔ s.tasks.Rising :=
  State.foldl_rising (fun t k => t.unlendPage_rising (s.lender m).region k) _ _

@[simp] theorem execLlcmdGrant_rising (s : State) (m : BitVec 8) : Out.Rising (execLlcmdGrant m s) ↔ s.tasks.Rising := by
  fun_cases execLlcmdGrant
  grind [Out.rising_next, !. State.command_rising, !. State.say_rising, !. State.setLender_rising, !. State.swapAll_rising]

@[simp] theorem execLlcmdReclaim_rising (s : State) (m : BitVec 8) : Out.Rising (execLlcmdReclaim m s) ↔ s.tasks.Rising := by simp [execLlcmdReclaim]

@[simp] theorem State.endLease_rising (s : State) (m result : Nat) : (s.endLease m result).tasks.Rising ↔ s.tasks.Rising := by
  fun_cases State.endLease
  grind [!. State.setLender_rising, !. State.settle_rising, !. State.unlend_rising]

@[simp] theorem execLeaseGrantTimeout_rising (s : State) (m : BitVec 8) : Out.Rising (execLeaseGrantTimeout m s) ↔ s.tasks.Rising := by
  fun_cases execLeaseGrantTimeout
  grind [Out.rising_next, !. State.endLease_rising]

@[simp] theorem execLeaseTermExpiry_rising (s : State) (m : BitVec 8) : Out.Rising (execLeaseTermExpiry m s) ↔ s.tasks.Rising := by
  simp [execLeaseTermExpiry]

@[simp] theorem execReclaimForceTimeout_rising (s : State) (m : BitVec 8) : Out.Rising (execReclaimForceTimeout m s) ↔ s.tasks.Rising := by
  fun_cases execReclaimForceTimeout
  grind [Out.rising_next, !. State.endLease_rising]

@[simp] theorem execBlcmdExpect_rising (s : State) (n : BitVec 10) : Out.Rising (execBlcmdExpect n s) ↔ s.tasks.Rising := by simp [execBlcmdExpect]

@[simp] theorem execBlcmdRelease_rising (s : State) (n : BitVec 10) : Out.Rising (execBlcmdRelease n s) ↔ s.tasks.Rising := by simp [execBlcmdRelease]

@[simp] theorem execBlcmdClear_rising (s : State) (n : BitVec 10) : Out.Rising (execBlcmdClear n s) ↔ s.tasks.Rising := by simp [execBlcmdClear]

@[simp] theorem execLeaseRenewalSend_rising (s : State) (n : BitVec 10) : Out.Rising (execLeaseRenewalSend n s) ↔ s.tasks.Rising := by
  simp [execLeaseRenewalSend]

@[simp] theorem execLeaseLapse_rising (s : State) (n : BitVec 10) : Out.Rising (execLeaseLapse n s) ↔ s.tasks.Rising := by simp [execLeaseLapse]

@[simp] theorem State.unmapLease_rising (s : State) (n : Nat) : (s.unmapLease n).tasks.Rising ↔ s.tasks.Rising :=
  State.foldl_rising (fun t k => by dsimp only; split <;> [split; skip] <;> simp) _ _

@[simp] theorem execEvictionComplete_rising (s : State) (n : BitVec 10) : Out.Rising (execEvictionComplete n s) ↔ s.tasks.Rising := by
  simp [execEvictionComplete]

@[simp] theorem State.releaseLeases_rising (s : State) (c : Nat) : (s.releaseLeases c).tasks.Rising ↔ s.tasks.Rising := by simp [State.releaseLeases]

/-! ### Retriever threads and migration (R105, R106, R384 to R394) -/

@[simp] theorem State.setRt_rising (s : State) (r t : Nat) (x : RetrThread) : (s.setRt r t x).tasks.Rising ↔ s.tasks.Rising := Iff.rfl

@[simp] theorem execRtThreadStart_rising (s : State) (r : BitVec 4) (t : BitVec 3) : Out.Rising (execRtThreadStart r t s) ↔ s.tasks.Rising := by
  simp [execRtThreadStart]

@[simp] theorem State.onThread_rising (s : State) (r t : Nat) (f : Task → Task) : (s.onThread r t f).tasks.Rising ↔ s.tasks.Rising := by
  simp [State.onThread]

@[simp] theorem State.stopThread_rising {s : State} (hs : s.tasks.Rising) (r t : Nat) : (s.stopThread r t).tasks.Rising := hs.del _

@[simp] theorem execRtThreadStop_rising {s : State} (hs : s.tasks.Rising) (r : BitVec 4) (t : BitVec 3) : Out.Rising (execRtThreadStop r t s) := by
  simp [execRtThreadStop, hs]

@[simp] theorem execPkget_rising (s : State) (d : Dst) (a : Src) : Out.Rising (execPkget d a s) ↔ s.tasks.Rising := by
  fun_cases execPkget <;> simp +zetaDelta [*]

@[simp] theorem State.dropPacket_rising (s : State) (p : RPkt) : (s.dropPacket p).tasks.Rising ↔ s.tasks.Rising := Iff.rfl

@[simp] theorem State.replyRemop_rising (s : State) (p : RPkt) (bs : List Byte) : (s.replyRemop p bs).tasks.Rising ↔ s.tasks.Rising := by
  fun_cases State.replyRemop <;> simp +zetaDelta [*]

@[simp] theorem execPkreply_rising (s : State) (a b : Src) : Out.Rising (execPkreply a b s) ↔ s.tasks.Rising := by
  fun_cases execPkreply <;> simp +zetaDelta [*]

@[simp] theorem execPkfwd_rising (s : State) (a b : Src) : Out.Rising (execPkfwd a b s) ↔ s.tasks.Rising := by
  fun_cases execPkfwd <;> simp +zetaDelta [*]

@[simp] theorem execPkdone_rising (s : State) (a b : Src) : Out.Rising (execPkdone a b s) ↔ s.tasks.Rising := by
  unfold execPkdone
  dsimp only
  repeat' split
  all_goals simp

@[simp] theorem State.setMig_rising (s : State) (r : Nat) (m : Migration) : (s.setMig r m).tasks.Rising ↔ s.tasks.Rising := Iff.rfl

@[simp] theorem execMiggo_rising (s : State) (r : BitVec 4) : Out.Rising (execMiggo r s) ↔ s.tasks.Rising := by
  fun_cases execMiggo
  grind [Out.rising_next, !. State.command_rising, !. State.setMig_rising, !. State.swapLeaf_rising]

@[simp] theorem execMigrationComplete_rising (s : State) (r : BitVec 4) : Out.Rising (execMigrationComplete r s) ↔ s.tasks.Rising := by
  fun_cases execMigrationComplete <;> grind [Out.rising_next, !. State.retryPkts_rising, !. State.setMig_rising, !. State.settle_rising,
    !. State.swapLeaf_rising]

/-! ### Collectives (R403 to R426) -/

@[simp] theorem State.setColl_rising (s : State) (c : Nat) (k : Coll) : (s.setColl c k).tasks.Rising ↔ s.tasks.Rising := Iff.rfl

@[simp] theorem State.creditColls_rising (s : State) : (s.creditColls).tasks.Rising ↔ s.tasks.Rising := by simp [State.creditColls]

@[simp] theorem State.startRound_rising (s : State) (c : Nat) (k : Coll) (prog : List (List Word)) :
    (s.startRound c k prog).tasks.Rising ↔ s.tasks.Rising := by
  simp [State.startRound]

@[simp] theorem State.collPost_rising (s : State) (d a : BitVec 6) (op : Nat) : (s.collPost d a op).tasks.Rising ↔ s.tasks.Rising := by
  unfold State.collPost
  dsimp only
  repeat' split
  all_goals simp

@[simp] theorem State.dropCmd_rising (s : State) (q : CollCmd) : (s.dropCmd q).tasks.Rising ↔ s.tasks.Rising := Iff.rfl

@[simp] theorem State.cmdEnd_rising (s : State) (q : CollCmd) (v : RVal) : (s.cmdEnd q v).tasks.Rising ↔ s.tasks.Rising := by simp [State.cmdEnd]

@[simp] theorem State.cmdReply_rising (s : State) (q : CollCmd) (w : Nat) : (s.cmdReply q w).tasks.Rising ↔ s.tasks.Rising := by simp [State.cmdReply]

@[simp] theorem State.cmdFail_rising (s : State) (q : CollCmd) (cause : Nat) : (s.cmdFail q cause).tasks.Rising ↔ s.tasks.Rising := by
  simp [State.cmdFail]

@[simp] theorem State.cmdRead_rising (s : State) (q : CollCmd) (u : UnitId) (va : Word) (n : Nat) :
    (s.cmdRead q u va n).1.tasks.Rising ↔ s.tasks.Rising := by
  fun_cases State.cmdRead <;> grind [!. State.cmdEnd_rising, !. State.hold_rising, !. State.unitServe_rising]

@[simp] theorem State.openColl_rising (s : State) (q : CollCmd) : (s.openColl q).tasks.Rising ↔ s.tasks.Rising := by fun_cases State.openColl <;> simp

@[simp] theorem State.cmdRun_rising (s : State) (q : CollCmd) : (s.cmdRun q).tasks.Rising ↔ s.tasks.Rising := by simp [State.cmdRun]

@[simp] theorem State.cmdChange_rising (s : State) (q : CollCmd) (remove : Bool) : (s.cmdChange q remove).tasks.Rising ↔ s.tasks.Rising := by
  simp [State.cmdChange]

@[simp] theorem State.cmdCatch_rising (s : State) (q : CollCmd) : (s.cmdCatch q).tasks.Rising ↔ s.tasks.Rising := by simp [State.cmdCatch]

@[simp] theorem State.cmdClose_rising (s : State) (q : CollCmd) : (s.cmdClose q).tasks.Rising ↔ s.tasks.Rising := by simp [State.cmdClose]

@[simp] theorem State.cmdDo_rising (s : State) (q : CollCmd) : (s.cmdDo q).tasks.Rising ↔ s.tasks.Rising := by fun_cases State.cmdDo <;> simp

@[simp] theorem State.putCmd_rising (s : State) (q : CollCmd) : (s.putCmd q).tasks.Rising ↔ s.tasks.Rising := Iff.rfl

@[simp] theorem State.cmdGo_rising (s : State) (q : CollCmd) : (s.cmdGo q).tasks.Rising ↔ s.tasks.Rising := by
  fun_cases State.cmdGo <;> grind [!. State.cmdDo_rising, !. State.cmdFail_rising, !. State.cmdRead_rising, !. State.dropCmd_rising,
    !. State.putCmd_rising]

@[simp] theorem State.collFail_rising (s : State) (c : Nat) (reason cause : Nat) : (s.collFail c reason cause).tasks.Rising ↔ s.tasks.Rising :=
  Iff.rfl

@[simp] theorem State.collWrite_rising (s : State) (c : Nat) (k : Coll) (w : Word × List (Byte × Bool) × Bool) (rest : List (Word × List
    (Byte × Bool) × Bool)) : (s.collWrite c k w rest).tasks.Rising ↔ s.tasks.Rising := by
  fun_cases State.collWrite <;> grind [!. State.collFail_rising, !. State.setColl_rising, !. State.writeVA_rising]

@[simp] theorem State.takeErr_rising (s : State) (u : UnitId) : (s.takeErr u).1.tasks.Rising ↔ s.tasks.Rising := by fun_cases State.takeErr <;> simp

@[simp] theorem State.collDone_rising (s : State) (c : Nat) (k : Coll) (st : CollStat) : (s.collDone c k st).tasks.Rising ↔ s.tasks.Rising := by
  fun_cases State.collDone <;> simp +zetaDelta [*]

@[simp] theorem State.collTend_rising (s : State) (c : Nat) : (s.collTend c).tasks.Rising ↔ s.tasks.Rising := by
  fun_cases State.collTend <;> grind [!. State.collDone_rising, !. State.collFail_rising, !. State.collWrite_rising, !. State.setColl_rising,
    !. State.takeErr_rising]

@[simp] theorem State.collGo_rising (s : State) {body : State → Coll → CStep → State}
    (hb : ∀ t k x, (body t k x).tasks.Rising ↔ t.tasks.Rising) (c kind : Nat) : (s.collGo c kind body).tasks.Rising ↔ s.tasks.Rising := by
  fun_cases State.collGo s c kind body <;> simp [hb]

@[simp] theorem State.collNext_rising (s : State) (c : Nat) (k : Coll) (pc : Nat) : (s.collNext c k pc).tasks.Rising ↔ s.tasks.Rising := by
  simp [State.collNext]

@[simp] theorem State.collEnd_rising (s : State) (c : Nat) (k : Coll) (x : CStep) (va : Word) :
    (s.collEnd c k x va).tasks.Rising ↔ s.tasks.Rising := by
  simp [State.collEnd]

@[simp] theorem State.collRead_rising (s : State) (c : Nat) (k : Coll) (va : Word) (n : Nat) :
    (s.collRead c k va n).1.tasks.Rising ↔ s.tasks.Rising := by
  fun_cases State.collRead <;> grind [!. State.collFail_rising, !. State.setColl_rising, !. State.unitAccess_rising]

@[simp] theorem State.collReadOk_rising (s : State) (c : Nat) (k : Coll) (va : Word) (n : Nat) :
    (s.collReadOk c k va n).1.tasks.Rising ↔ s.tasks.Rising := by
  fun_cases State.collReadOk <;> grind [!. State.collFail_rising, !. State.collRead_rising]

@[simp] theorem State.collSend_rising (s : State) (c : Nat) (k : Coll) (dst : Option Nat) (m : CollMsg) :
    (s.collSend c k dst m).tasks.Rising ↔ s.tasks.Rising := by
  fun_cases State.collSend <;> simp +zetaDelta [*]

@[simp] theorem State.bucketBytes_rising (s : State) (x : CStep) (b : Bucket) : (s.bucketBytes x b).1.tasks.Rising ↔ s.tasks.Rising := by
  fun_cases State.bucketBytes <;> simp

@[simp] theorem execCollStepEnd_rising (s : State) (c : BitVec 6) : Out.Rising (execCollStepEnd c s) ↔ s.tasks.Rising := by
  fun_cases execCollStepEnd <;> simp

@[simp] theorem execCollStepSend_rising (s : State) (c : BitVec 6) : Out.Rising (execCollStepSend c s) ↔ s.tasks.Rising := by
  fun_cases execCollStepSend
  grind [Out.rising_next, !. State.collEnd_rising, !. State.collGo_rising, !. State.collRead_rising, !. State.collSend_rising,
    !. State.setColl_rising]

@[simp] theorem execCollStepRecv_rising (s : State) (c : BitVec 6) : Out.Rising (execCollStepRecv c s) ↔ s.tasks.Rising := by
  fun_cases execCollStepRecv
  grind [Out.rising_next, !. State.collEnd_rising, !. State.collFail_rising, !. State.collGo_rising, !. State.setColl_rising]

@[simp] theorem execCollStepPsend_rising (s : State) (c : BitVec 6) : Out.Rising (execCollStepPsend c s) ↔ s.tasks.Rising := by
  fun_cases execCollStepPsend
  grind [Out.rising_next, !. State.collEnd_rising, !. State.collGo_rising, !. State.collRead_rising, !. State.collSend_rising,
    !. State.setColl_rising]

@[simp] theorem execCollStepRrs_rising (s : State) (c : BitVec 6) : Out.Rising (execCollStepRrs c s) ↔ s.tasks.Rising := by
  fun_cases execCollStepRrs
  grind [Out.rising_next, !. State.collEnd_rising, !. State.collFail_rising, !. State.collGo_rising, !. State.collRead_rising,
    !. State.collSend_rising, !. State.setColl_rising]

@[simp] theorem execCollStepRed_rising (s : State) (c : BitVec 6) : Out.Rising (execCollStepRed c s) ↔ s.tasks.Rising := by
  fun_cases execCollStepRed
  grind [Out.rising_next, !. State.bucketBytes_rising, !. State.collEnd_rising, !. State.collFail_rising, !. State.collGo_rising,
    !. State.collRead_rising, !. State.setColl_rising]

@[simp] theorem execCollStepCopy_rising (s : State) (c : BitVec 6) : Out.Rising (execCollStepCopy c s) ↔ s.tasks.Rising := by
  fun_cases execCollStepCopy
  grind [Out.rising_next, !. State.collEnd_rising, !. State.collGo_rising, !. State.collRead_rising, !. State.setColl_rising]

@[simp] theorem execCollStepWait_rising (s : State) (c : BitVec 6) : Out.Rising (execCollStepWait c s) ↔ s.tasks.Rising := by
  fun_cases execCollStepWait
  grind [Out.rising_next, !. State.collFail_rising, !. State.collGo_rising, !. State.collNext_rising, !. State.collReadOk_rising,
    !. State.setColl_rising]

@[simp] theorem execCollStepLoop_rising (s : State) (c : BitVec 6) : Out.Rising (execCollStepLoop c s) ↔ s.tasks.Rising := by simp [execCollStepLoop]

@[simp] theorem execCollStepEndl_rising (s : State) (c : BitVec 6) : Out.Rising (execCollStepEndl c s) ↔ s.tasks.Rising := by simp [execCollStepEndl]

@[simp] theorem execCollStepAppend_rising (s : State) (c : BitVec 6) : Out.Rising (execCollStepAppend c s) ↔ s.tasks.Rising := by
  refine Out.rising_next.trans (State.collGo_rising s (fun t k x => ?_) _ _)
  grind [!. State.collEnd_rising, !. State.collReadOk_rising, !. State.setColl_rising, !. State.collFail_rising, !. State.appendTo_rising,
    !. State.record_rising, !. State.freshId_rising, !. State.hold_rising, !. State.sendPkt_rising, !. State.unitAccess_rising]

@[simp] theorem State.collAll_rising (s : State) (c : Nat) (k : Coll) (m : CollMsg) (vals : List Int) :
    (s.collAll c k m vals).tasks.Rising ↔ s.tasks.Rising := by
  simp [State.collAll]

@[simp] theorem execCollStepA2a_rising (s : State) (c : BitVec 6) : Out.Rising (execCollStepA2a c s) ↔ s.tasks.Rising := by
  refine Out.rising_next.trans (State.collGo_rising s (fun t k x => ?_) _ _)
  split <;> grind [!. State.collReadOk_rising, !. State.setColl_rising, !. State.collAll_rising, !. State.collFail_rising,
    !. State.collRead_rising, !. State.writeLooks_rising, !. State.collEnd_rising]

@[simp] theorem execCollStepSignal_rising (s : State) (c : BitVec 6) : Out.Rising (execCollStepSignal c s) ↔ s.tasks.Rising := by
  fun_cases execCollStepSignal
  grind [Out.rising_next, !. State.collFail_rising, !. State.collGo_rising, !. State.collNext_rising, !. State.setColl_rising,
    !. State.unitAccess_rising]

@[simp] theorem State.sarOut_rising (s : State) (dst : Nat) (m : CollMsg) : (s.sarOut dst m).tasks.Rising ↔ s.tasks.Rising := Iff.rfl

@[simp] theorem State.setSarKey_rising (s : State) (k : SarKey) : (s.setSarKey k).tasks.Rising ↔ s.tasks.Rising := Iff.rfl

@[simp] theorem State.sarRoot_rising (s : State) (m : CollMsg) : (s.sarRoot m).tasks.Rising ↔ s.tasks.Rising := by fun_cases State.sarRoot <;> simp

@[simp] theorem State.sarForward_rising (s : State) (dst : Nat) (m : CollMsg) : (s.sarForward dst m).tasks.Rising ↔ s.tasks.Rising := by
  simp [State.sarForward]

@[simp] theorem State.sarArrive_rising (s : State) (src dst : Nat) (m : CollMsg) : (s.sarArrive src dst m).tasks.Rising ↔ s.tasks.Rising := by
  fun_cases State.sarArrive <;> simp +zetaDelta [*]

@[simp] theorem State.sarResult_rising (s : State) (m : CollMsg) : (s.sarResult m).tasks.Rising ↔ s.tasks.Rising := by simp [State.sarResult]

@[simp] theorem State.sarRelease_rising (s : State) : (s.sarRelease).tasks.Rising ↔ s.tasks.Rising := by simp [State.sarRelease]

@[simp] theorem execSarRouterCombine_rising (s : State) (p : Packet) : Out.Rising (execSarRouterCombine p s) ↔ s.tasks.Rising := by
  unfold execSarRouterCombine
  split <;> simp

@[simp] theorem execCollStepSar_rising (s : State) (c : BitVec 6) : Out.Rising (execCollStepSar c s) ↔ s.tasks.Rising := by
  refine Out.rising_next.trans (State.collGo_rising s (fun t k x => ?_) _ _)
  grind [!. State.collRead_rising, !. State.setColl_rising, !. State.sarArrive_rising, !. State.bucketBytes_rising, !. State.sarOut_rising,
    !. State.collFail_rising, !. State.collEnd_rising, !. State.foldl_rising]

@[simp] theorem execSarPartialResend_rising (s : State) (c : BitVec 6) : Out.Rising (execSarPartialResend c s) ↔ s.tasks.Rising := by
  simp [execSarPartialResend]

@[simp] theorem execCollMessageArrival_rising (s : State) (m : CollMsg) : Out.Rising (execCollMessageArrival m s) ↔ s.tasks.Rising := by
  unfold execCollMessageArrival
  split <;> simp

@[simp] theorem execCollStepTimeout_rising (s : State) (c : BitVec 6) : Out.Rising (execCollStepTimeout c s) ↔ s.tasks.Rising := by
  unfold execCollStepTimeout
  split <;> simp

@[simp] theorem execCollCatchComplete_rising (s : State) (c : BitVec 6) (entries : List CatchEntry) (log : CatchLog) :
    Out.Rising (execCollCatchComplete c entries log s) ↔ s.tasks.Rising := by
  unfold execCollCatchComplete
  split <;> simp

/-! ### Host queues and graphs (R200 to R216) -/

@[simp] theorem State.setQueue_rising (s : State) (c q : Nat) (x : HostQueue) : (s.setQueue c q x).tasks.Rising ↔ s.tasks.Rising := by
  simp [State.setQueue]

@[simp] theorem State.dropSched_rising (s : State) (u : UnitId) : (s.dropSched u).tasks.Rising ↔ s.tasks.Rising := Iff.rfl

@[simp] theorem State.badCmd_rising (s : State) (c q : Nat) : (s.badCmd c q).tasks.Rising ↔ s.tasks.Rising := by simp [State.badCmd]

@[simp] theorem State.queueCmd_rising (s : State) (c q : Nat) (ok : HostQueue → Bool) (f : HostQueue → HostQueue) :
    (s.queueCmd c q ok f).tasks.Rising ↔ s.tasks.Rising := by
  simp [State.queueCmd]

@[simp] theorem execQueueEnable_rising (s : State) (c : BitVec 4) (q : BitVec 6) : Out.Rising (execQueueEnable c q s) ↔ s.tasks.Rising := by
  simp [execQueueEnable]

@[simp] theorem execQueueDisable_rising (s : State) (c : BitVec 4) (q : BitVec 6) : Out.Rising (execQueueDisable c q s) ↔ s.tasks.Rising := by
  unfold execQueueDisable
  dsimp only
  repeat' split
  all_goals simp

@[simp] theorem execQueueRetry_rising (s : State) (c : BitVec 4) (q : BitVec 6) : Out.Rising (execQueueRetry c q s) ↔ s.tasks.Rising := by
  simp [execQueueRetry]

@[simp] theorem execQueueSkip_rising (s : State) (c : BitVec 4) (q : BitVec 6) : Out.Rising (execQueueSkip c q s) ↔ s.tasks.Rising := by
  simp [execQueueSkip]

@[simp] theorem execQcmdUndefined_rising (s : State) (c : BitVec 4) (q : BitVec 6) : Out.Rising (execQcmdUndefined c q s) ↔ s.tasks.Rising := by
  simp [execQcmdUndefined]

@[simp] theorem execQueueConfigWrite_rising (s : State) (c : BitVec 4) (q : BitVec 6) (cfg : Bool) (v : Word) :
    Out.Rising (execQueueConfigWrite c q cfg v s) ↔ s.tasks.Rising := by
  simp [execQueueConfigWrite]

@[simp] theorem execDoorbell_rising (s : State) (c : BitVec 4) (q : BitVec 6) (v : Word) : Out.Rising (execDoorbell c q v s) ↔ s.tasks.Rising := by
  simp [execDoorbell]

@[simp] theorem State.failNode_rising (s : State) (c q i cause : Nat) : (s.failNode c q i cause).tasks.Rising ↔ s.tasks.Rising := by
  simp [State.failNode]

@[simp] theorem execGraphHaltComplete_rising (s : State) (c : BitVec 4) (q : BitVec 6) :
    Out.Rising (execGraphHaltComplete c q s) ↔ s.tasks.Rising := by
  simp [execGraphHaltComplete]

@[simp] theorem execGraphStart_rising (s : State) (c : BitVec 4) (q : BitVec 6) : Out.Rising (execGraphStart c q s) ↔ s.tasks.Rising := by
  fun_cases execGraphStart
  grind [Out.rising_next, !. State.failNode_rising, !. State.freshId_rising, !. State.setQueue_rising, !. State.unitAccess_rising]

@[simp] theorem State.setNode_rising (s : State) (c q i : Nat) (n : GNode) : (s.setNode c q i n).tasks.Rising ↔ s.tasks.Rising := by
  simp [State.setNode]

@[simp] theorem State.startNode_rising (s : State) (c q i : Nat) : (s.startNode c q i).tasks.Rising ↔ s.tasks.Rising := by
  fun_cases State.startNode <;> simp +zetaDelta [*]

@[simp] theorem State.nodeGo_rising (s : State) {body : State → Graph → GNode → State}
    (hb : ∀ t g n, (body t g n).tasks.Rising ↔ t.tasks.Rising) (c q i kind : Nat) : (s.nodeGo c q i kind body).tasks.Rising ↔ s.tasks.Rising := by
  fun_cases State.nodeGo s c q i kind body <;> grind [!. State.setNode_rising, !. State.startNode_rising, !. State.takeErr_rising,
    !. State.failNode_rising]

@[simp] theorem State.nodeDone_rising (s : State) (c q i : Nat) (n : GNode) : (s.nodeDone c q i n).tasks.Rising ↔ s.tasks.Rising := by
  simp [State.nodeDone]

@[simp] theorem State.nodeRead_rising (s : State) {k : State → GNode → List Word → State} (hk : ∀ t n ws, (k t n ws).tasks.Rising ↔ t.tasks.Rising)
    (c q i : Nat) (n : GNode) (va : Word) (len : Nat) : (s.nodeRead c q i n va len k).tasks.Rising ↔ s.tasks.Rising := by
  fun_cases State.nodeRead <;> grind [!. State.setNode_rising, !. State.unitAccess_rising, !. State.failNode_rising]

@[simp] theorem execKernelNode_rising (s : State) (c : BitVec 4) (q : BitVec 6) (i : Nat) : Out.Rising (execKernelNode c q i s) ↔ s.tasks.Rising := by
  fun_cases execKernelNode
  grind [Out.rising_next, !. State.failNode_rising, !. State.nodeDone_rising, !. State.nodeGo_rising, !. State.nodeRead_rising,
    !. State.setNode_rising]

@[simp] theorem execKernelNodeAdmit_rising (s : State) (c : BitVec 4) (q : BitVec 6) (i : Nat) :
    Out.Rising (execKernelNodeAdmit c q i s) ↔ s.tasks.Rising := by
  simp [execKernelNodeAdmit]

@[simp] theorem execCopyNode_rising (s : State) (c : BitVec 4) (q : BitVec 6) (i : Nat) : Out.Rising (execCopyNode c q i s) ↔ s.tasks.Rising := by
  fun_cases execCopyNode
  grind [Out.rising_next, !. State.failNode_rising, !. State.nodeGo_rising, !. State.setNode_rising, !. State.unitAccess_rising,
    !. State.writeVA_rising]

@[simp] theorem execSignalNode_rising (s : State) (c : BitVec 4) (q : BitVec 6) (i : Nat) : Out.Rising (execSignalNode c q i s) ↔ s.tasks.Rising := by
  fun_cases execSignalNode
  grind [Out.rising_next, !. State.failNode_rising, !. State.nodeGo_rising, !. State.setNode_rising, !. State.unitAccess_rising,
    !. State.writeVA_rising]

@[simp] theorem execCopyNodeComplete_rising (s : State) (c : BitVec 4) (q : BitVec 6) (i : Nat) :
    Out.Rising (execCopyNodeComplete c q i s) ↔ s.tasks.Rising := by
  unfold execCopyNodeComplete
  dsimp only
  split <;> simp

@[simp] theorem execWaitNodeRead_rising (s : State) (c : BitVec 4) (q : BitVec 6) (i : Nat) :
    Out.Rising (execWaitNodeRead c q i s) ↔ s.tasks.Rising := by
  simp [execWaitNodeRead]

@[simp] theorem execWaitNodeTimeout_rising (s : State) (c : BitVec 4) (q : BitVec 6) (i : Nat) :
    Out.Rising (execWaitNodeTimeout c q i s) ↔ s.tasks.Rising := by
  unfold execWaitNodeTimeout
  dsimp only
  repeat' split
  all_goals simp

@[simp] theorem State.markRange_rising (s : State) (c q i : Nat) (n : GNode) (done : Bool) :
    (s.markRange c q i n done).tasks.Rising ↔ s.tasks.Rising :=
  State.foldl_rising (fun t j => by split <;> simp) _ _

@[simp] theorem execConditionalNode_rising (s : State) (c : BitVec 4) (q : BitVec 6) (i : Nat) :
    Out.Rising (execConditionalNode c q i s) ↔ s.tasks.Rising := by
  fun_cases execConditionalNode
  grind [Out.rising_next, !. State.markRange_rising, !. State.nodeDone_rising, !. State.nodeGo_rising, !. State.nodeRead_rising,
    !. State.setNode_rising]

@[simp] theorem execLoopNodeEvaluate_rising (s : State) (c : BitVec 4) (q : BitVec 6) (i : Nat) :
    Out.Rising (execLoopNodeEvaluate c q i s) ↔ s.tasks.Rising := by
  fun_cases execLoopNodeEvaluate
  grind [Out.rising_next, !. State.markRange_rising, !. State.nodeDone_rising, !. State.nodeGo_rising, !. State.nodeRead_rising,
    !. State.setNode_rising, !. State.setQueue_rising]

@[simp] theorem execEndNode_rising (s : State) (c : BitVec 4) (q : BitVec 6) : Out.Rising (execEndNode c q s) ↔ s.tasks.Rising := by
  fun_cases execEndNode
  grind [Out.rising_next, !. State.failNode_rising, !. State.nodeGo_rising, !. State.setNode_rising, !. State.setQueue_rising,
    !. State.unitAccess_rising]

/-! ### Contexts, power, registers and the host interface (R81 to R83, R93, R102, R149, R265 to R267, R447 to R459) -/

@[simp] theorem State.ctxBadCmd_rising (s : State) (n : Nat) : (s.ctxBadCmd n).tasks.Rising ↔ s.tasks.Rising := by simp [State.ctxBadCmd]

@[simp] theorem State.resetQueues_rising (s : State) (n : Nat) : (s.resetQueues n).tasks.Rising ↔ s.tasks.Rising := Iff.rfl

@[simp] theorem execCtxCreate_rising (s : State) (n : BitVec 4) : Out.Rising (execCtxCreate n s) ↔ s.tasks.Rising := by simp [execCtxCreate]

@[simp] theorem State.skipStopped_rising (s : State) (n : Nat) : (s.skipStopped n).tasks.Rising ↔ s.tasks.Rising :=
  Tab.rising_map fun _ => rfl

@[simp] theorem execCtxStart_rising (s : State) (n : BitVec 4) : Out.Rising (execCtxStart n s) ↔ s.tasks.Rising := by
  unfold execCtxStart
  dsimp only
  repeat' split
  all_goals simp

@[simp] theorem execCtxStop_rising (s : State) (n : BitVec 4) : Out.Rising (execCtxStop n s) ↔ s.tasks.Rising := by simp [execCtxStop]

@[simp] theorem State.discardCtx_rising {s : State} (hs : s.tasks.Rising) (n : Nat) : (s.discardCtx n).tasks.Rising := by
  unfold State.discardCtx
  rw [State.unparkAll_rising]
  refine State.foldl_rising_of (fun _ _ h => State.stopThread_rising h ..) _ ?_
  simp [hs.filter]

@[simp] theorem execCtxDestroy_rising {s : State} (hs : s.tasks.Rising) (n : BitVec 4) : Out.Rising (execCtxDestroy n s) := by
  simp [execCtxDestroy, hs]

@[simp] theorem execCtxcmdUndefined_rising (s : State) (n : BitVec 4) : Out.Rising (execCtxcmdUndefined n s) ↔ s.tasks.Rising := by
  simp [execCtxcmdUndefined]

@[simp] theorem execCtxQuiesceComplete_rising (s : State) (n : BitVec 4) : Out.Rising (execCtxQuiesceComplete n s) ↔ s.tasks.Rising := by
  simp [execCtxQuiesceComplete]

@[simp] theorem execCtxDrainComplete_rising (s : State) (n : BitVec 4) : Out.Rising (execCtxDrainComplete n s) ↔ s.tasks.Rising := by
  simp [execCtxDrainComplete]

@[simp] theorem execConfigRegisterWrite_rising (s : State) (off : Nat) (v : Word) :
    Out.Rising (execConfigRegisterWrite off v s) ↔ s.tasks.Rising := by
  unfold execConfigRegisterWrite
  dsimp only
  repeat' split
  all_goals simp

@[simp] theorem execFrctlWrite_rising (s : State) (n : BitVec 4) (v : Word) : Out.Rising (execFrctlWrite n v s) ↔ s.tasks.Rising := by
  simp [execFrctlWrite]

@[simp] theorem State.setIslands_rising (s : State) (f : Nat → Island → Island) : (s.setIslands f).tasks.Rising ↔ s.tasks.Rising := Iff.rfl

@[simp] theorem execPatrolScrub_rising (s : State) (sp : BitVec 2) (line : Nat) (err : BitVec 2) :
    Out.Rising (execPatrolScrub sp line err s) ↔ s.tasks.Rising := by
  unfold execPatrolScrub
  dsimp only
  repeat' split
  all_goals simp

@[simp] theorem execModuleReset_rising (verified : Bool) (s : State) : Out.Rising (execModuleReset verified s) :=
  Out.rising_next.2 Tab.rising_nil

@[simp] theorem State.bringUp_rising (s : State) : (s.bringUp).tasks.Rising ↔ s.tasks.Rising := by simp [State.bringUp]

@[simp] theorem execCsrr_rising (s : State) (d : BitVec 6) (c : BitVec 12) : Out.Rising (execCsrr d c s) ↔ s.tasks.Rising := by
  unfold execCsrr
  split <;> simp

@[simp] theorem execCsrw_rising (s : State) (a : BitVec 6) (c : BitVec 12) : Out.Rising (execCsrw a c s) ↔ s.tasks.Rising := by
  unfold execCsrw
  dsimp only
  repeat' split
  all_goals simp

@[simp] theorem State.writePageReg_rising (s : State) (off : Nat) (v : Word) : (s.writePageReg off v).tasks.Rising ↔ s.tasks.Rising := by
  simp [State.writePageReg]

@[simp] theorem State.writeLinkBlock_rising (s : State) (off : Nat) (v : Word) : (s.writeLinkBlock off v).tasks.Rising ↔ s.tasks.Rising := by
  simp [State.writeLinkBlock]

@[simp] theorem State.writeLinkReg_rising (s : State) (n off : Nat) (v : Word) : (s.writeLinkReg n off v).tasks.Rising ↔ s.tasks.Rising := by
  simp [State.writeLinkReg]

@[simp] theorem State.writeRetrReg_rising (s : State) (r off : Nat) (v : Word) : (s.writeRetrReg r off v).tasks.Rising ↔ s.tasks.Rising := by
  simp [State.writeRetrReg]

@[simp] theorem execRegisterWrite_rising (s : State) (off : Nat) (v : Word) : Out.Rising (execRegisterWrite off v s) ↔ s.tasks.Rising := by
  unfold execRegisterWrite
  dsimp only
  repeat' split
  all_goals simp

@[simp] theorem ctxCommand_rising {s : State} (hs : s.tasks.Rising) (n : BitVec 4) (v : Word) : Out.Rising (ctxCommand n v s) := by
  fun_cases ctxCommand <;> simp [hs]

@[simp] theorem queueCommand_rising (s : State) (c : BitVec 4) (q : BitVec 6) (v : Word) : Out.Rising (queueCommand c q v s) ↔ s.tasks.Rising := by
  fun_cases queueCommand <;> simp

@[simp] theorem linkCommand_rising (n : Nat) (v : Word) (s : State) : (linkCommand n v s).tasks.Rising ↔ s.tasks.Rising := by
  simp [linkCommand]

@[simp] theorem threadCommand_rising {s : State} (hs : s.tasks.Rising) (r t : Nat) (v : Word) : (threadCommand r t v s).tasks.Rising := by
  simp [threadCommand, hs]

@[simp] theorem State.barWrite_rising {s : State} (hs : s.tasks.Rising) (bar off : Nat) (v : Word) : (s.barWrite bar off v).tasks.Rising := by
  fun_cases State.barWrite <;> simp +zetaDelta [*]

@[simp] theorem State.drainBar_rising {s : State} (hs : s.tasks.Rising) : (s.drainBar).tasks.Rising := by fun_cases State.drainBar <;> simp [hs]

@[simp] theorem State.alu2_rising (s : State) (w : Bool) (d : Dst) (a b : Src) (lam : Nat) (f : Nat → Nat → Nat → Int) :
    (s.alu2 w d a b lam f).tasks.Rising ↔ s.tasks.Rising := by
  simp [State.alu2]

@[simp] theorem State.aluDiv_rising (s : State) (w : Bool) (d : Dst) (a b : Src) (f : Nat → Nat → Nat → Int) :
    (s.aluDiv w d a b f).tasks.Rising ↔ s.tasks.Rising := by
  simp [State.aluDiv]

@[simp] theorem State.alu1_rising (s : State) (w : Bool) (d : Dst) (a : Src) (f : Nat → Nat → Int) :
    (s.alu1 w d a f).tasks.Rising ↔ s.tasks.Rising := by
  simp [State.alu1]

@[simp] theorem State.aluI_rising (s : State) (d : Dst) (a : Src) (c : Int) (f : Nat → Nat → Nat → Int) :
    (s.aluI d a c f).tasks.Rising ↔ s.tasks.Rising := by
  simp [State.aluI]

/-! ### Bundles, actions and the step (R48 to R68, R170 to R172) -/

@[simp] theorem State.choose_rising (s : State) (core slot : Nat) : (s.choose core slot).tasks.Rising ↔ s.tasks.Rising := by simp [State.choose]

@[simp] theorem State.raiseBundle_rising (s : State) (cause mask : Nat) (tval : Word) :
    (s.raiseBundle cause mask tval).tasks.Rising ↔ s.tasks.Rising := by
  simp [State.raiseBundle]

@[simp] theorem State.flow_rising (s : State) (act : Act) (pc : Word) (kept : Bool) : (s.flow act pc kept).tasks.Rising ↔ s.tasks.Rising := by
  unfold State.flow
  dsimp only
  repeat' split
  all_goals simp

@[simp] theorem State.issuedBy_rising (s : State) (core slot : Nat) (t : Task) : (s.issuedBy core slot t).tasks.Rising ↔ s.tasks.Rising := by
  fun_cases State.issuedBy <;> simp +zetaDelta [*]

@[simp] theorem State.endTrapped_rising (s : State) (pc : Word) : (s.endTrapped pc).tasks.Rising ↔ s.tasks.Rising := by simp [State.endTrapped]

@[simp] theorem State.endBundle_rising (s : State) (old : Task) (kept : Bool) : (s.endBundle old kept).tasks.Rising ↔ s.tasks.Rising := by
  fun_cases State.endBundle <;> simp +zetaDelta [*]

@[simp] theorem State.stall_rising (s : State) (core : Nat) : (s.stall core).tasks.Rising ↔ s.tasks.Rising := Iff.rfl

@[simp] theorem State.sleepAgain_rising (s : State) (core slot : Nat) : (s.sleepAgain core slot).tasks.Rising ↔ s.tasks.Rising := by
  simp [State.sleepAgain]

@[simp] theorem State.chooseNext_rising (s : State) (core : Nat) : (s.chooseNext core).tasks.Rising ↔ s.tasks.Rising := by
  fun_cases State.chooseNext <;> simp

@[simp] theorem State.convertOn_rising (s : State) (core : Nat) : (s.convertOn core).tasks.Rising ↔ s.tasks.Rising := by
  simp [State.convertOn]

@[simp] theorem State.errBreaks_rising (s : State) : s.errBreaks.tasks.Rising ↔ s.tasks.Rising := by simp [State.errBreaks]

@[simp] theorem State.barsClk_rising (k : Nat) (s : State) : (State.barsClk k s).tasks.Rising ↔ s.tasks.Rising := by
  fun_induction State.barsClk k s with
  | case1 s =>
    refine (State.foldl_rising (fun t cx => State.foldl_rising (fun t nb => State.foldl_rising (fun t r => ?_) _ _) _ _) _ _).trans
      s.errBreaks_rising
    split <;> simp
  | case2 k s t h ih => exact ih.trans (Out.rising_next.symm.trans (h ▸ execBarrierArrival_rising s))
  | case3 k s h ih => exact ih

@[simp] theorem State.clkCore_rising (s : State) (core : Nat) : (s.clkCore core).tasks.Rising ↔ s.tasks.Rising := by
  simp [State.clkCore]

@[simp] theorem State.endClk_rising (s : State) : s.endClk.tasks.Rising ↔ s.tasks.Rising := by
  unfold State.endClk
  refine (Tab.rising_map ?_).trans ?_
  · exact fun _ => rfl
  · rw [State.barsClk_rising]
    exact State.foldl_rising State.clkCore_rising _ _

/-! ### Every instruction and event, bundles and turns (R48 to R68, R170 to R172) -/

/-- Every instruction and event keeps the task table in order: by the lemma of its function, or by those of what its one next state is
made of. -/
theorem exec_rising (i : Instr) {s : State} (hs : s.tasks.Rising) : Out.Rising (exec i s) := by
  cases i with
  | lbrk | waitc | waite | endTask | ldh | chkh | vbcastV | vextr | vgath | vscat | vtld | vtst | vdrain | tdset | tileTaskStart
    | tileTaskComplete | copyBurstReply | missedPromise | launchRecordArrival | kernelPlacement | taskEndComplete | barrierArrival
    | memoryReplyArrival | fgenFlush | ptinv | ptinvComplete | pgabort | pgdisc | preemptionLanding | preemptionForced | takePendingTrap
    | preempt | saveComplete | taskResume | monopolyWatchdogExpiry | freezeConversion | waiteReread | packetRoute | lnkctlTrain | lnkctlDown
    | linkTrainingComplete | linkTrainingTimeout | linkWidthAgreed | laneThresholdCrossed | laneRetrainTimeout | linkWiden | replayAckTimeout
    | farDepthTimeout | rotorEnable | rotorDwellStart | rotorLockTimeout | e2eAckArrival | e2eResendTimeout | resetNoticeArrival
    | packetArrivalAtTarget | llcmdGrant | llcmdReclaim | leaseGrantTimeout | leaseTermExpiry | reclaimForceTimeout | blcmdExpect
    | blcmdRelease | blcmdClear | leaseRenewalSend | leaseLapse | evictionComplete | rtThreadStart | rtThreadStop | pkget | pkreply | pkfwd
    | pkdone | miggo | migrationComplete | collStepEnd | collStepSend | collStepRecv | collStepPsend | collStepRrs | collStepRed
    | collStepCopy | collStepWait | collStepLoop | collStepEndl | collStepAppend | collStepA2a | collStepSignal | sarRouterCombine
    | collStepSar | sarPartialResend | collMessageArrival | collStepTimeout | collCatchComplete | queueEnable | queueDisable | queueRetry
    | queueSkip | qcmdUndefined | queueConfigWrite | doorbell | graphHaltComplete | graphStart | kernelNode | kernelNodeAdmit | copyNode
    | signalNode | copyNodeComplete | waitNodeRead | waitNodeTimeout | conditionalNode | loopNodeEvaluate | endNode | ctxCreate | ctxStart
    | ctxStop | ctxDestroy | ctxcmdUndefined | ctxQuiesceComplete | ctxDrainComplete | configRegisterWrite | frctlWrite | patrolScrub
    | moduleReset | csrr | csrw | registerWrite =>
    simp [exec, hs]
  | trapi | eret | fence | ldAcq | stRel | acas2 | remop | vdefer | barinit | bararr | barwait | barwaitA | barq | accessAtHomeController
    | codewordReceived | replayRequestReceived | rotorGuardStart | leaseAcceptArrival | leaseGrantArrival | powerRegrant =>
    simp [exec, execTrapi, execEret, execFence, execLdAcq, execStRel, execAcas2, execRemop, execVdefer, execBarinit, execBararr, execBarwait,
      execBarwaitA, execBarq, execAccessAtHomeController, execCodewordReceived, execReplayRequestReceived, execRotorGuardStart,
      execLeaseAcceptArrival, execLeaseGrantArrival, execPowerRegrant, hs]
  | _ => exact Out.rising_next.2 (by simp [hs])

theorem execSlot_rising {s : State} (hs : s.tasks.Rising) (n : Nat) (i : Instr) : (execSlot n i s).Rising := by
  unfold execSlot
  split
  · next r h =>
    have hr : r.tasks.Rising := exec_rising i (s := { s with iss := { s.iss with pos := n, slotRaised := false } }) hs r h
    exact Out.rising_next.2 (by simp [hr])
  · next h => exact fun t e => absurd e (h t)

theorem execSlots_rising {s : State} (hs : s.tasks.Rising) (is : List (Nat × Instr)) : (execSlots is s).Rising := by
  induction is generalizing s with
  | nil => exact Out.rising_next.2 hs
  | cons x is ih =>
    unfold execSlots
    split
    · next t h => exact ih (execSlot_rising hs _ _ t h)
    · next h => exact fun t e => absurd e (h t)

theorem State.runBundle_rising {s : State} (hs : s.tasks.Rising) (core slot : Nat) (b : Bundle) : (s.runBundle core slot b).Rising := by
  unfold State.runBundle
  dsimp only
  split
  · exact Out.rising_next.2 (by simpa using hs)
  · split
    · next r h =>
      have hr : r.tasks.Rising := execSlots_rising (by simpa using hs) _ r h
      exact Out.rising_next.2 (by split <;> simp [hs, hr])
    · next h => exact fun t e => absurd e (h t)

theorem State.issueBundle_rising {s : State} (hs : s.tasks.Rising) (core slot : Nat) : (s.issueBundle core slot).Rising := by
  fun_cases State.issueBundle <;> grind [Out.rising_next, !. State.fetch_rising, !. State.raiseBundle_rising,
    !. State.runBundle_rising, !. State.stall_rising]

theorem State.pick_rising {s : State} {core : Nat} {r : State × Nat} (h : s.pick core = some r) : r.1.tasks.Rising ↔ s.tasks.Rising := by
  unfold State.pick at h
  split at h
  · obtain ⟨x, -, rfl⟩ := Option.map_eq_some_iff.1 h
    simp
  · split at h
    · cases h
      rfl
    · obtain ⟨x, -, rfl⟩ := Option.map_eq_some_iff.1 h
      simp

theorem State.turnOn_rising {s : State} (hs : s.tasks.Rising) (core : Nat) : (s.turnOn core).Rising := by
  unfold State.turnOn
  extract_lets s1
  split
  · exact Out.rising_next.2 hs
  · next s2 slot hp =>
    have h2 : s2.tasks.Rising := (State.pick_rising hp).2 hs
    have hb := State.issueBundle_rising h2 core slot
    repeat' split
    all_goals simp [h2, hb]

theorem State.issueOn_rising {s : State} (hs : s.tasks.Rising) (core : Nat) : (s.issueOn core).Rising := by
  unfold State.issueOn
  split
  · next t h => exact Out.rising_next.2 (by simpa using State.turnOn_rising hs core t h)
  · next h => exact fun t e => absurd e (h t)

/-! ### The actions of the units and the step -/

/-- Every action of a list keeps the task table in order. -/
def Acts.KeepRising (l : List (State → State)) : Prop := ∀ g ∈ l, ∀ s : State, s.tasks.Rising → (g s).tasks.Rising

@[simp] theorem Acts.keepRising_nil : Acts.KeepRising [] := fun _ h => absurd h List.not_mem_nil

@[simp] theorem Acts.keepRising_cons {g : State → State} {l : List (State → State)} :
    Acts.KeepRising (g :: l) ↔ (∀ s : State, s.tasks.Rising → (g s).tasks.Rising) ∧ Acts.KeepRising l := List.forall_mem_cons

@[simp] theorem Acts.keepRising_append {l k : List (State → State)} : Acts.KeepRising (l ++ k) ↔ Acts.KeepRising l ∧ Acts.KeepRising k :=
  List.forall_mem_append

@[simp] theorem Acts.keepRising_ite {c : Prop} [Decidable c] {l k : List (State → State)} :
    Acts.KeepRising (if c then l else k) ↔ if c then Acts.KeepRising l else Acts.KeepRising k := by split <;> rfl

@[simp] theorem Acts.keepRising_map {α : Type} {f : α → State → State} {l : List α} :
    Acts.KeepRising (l.map f) ↔ ∀ x ∈ l, ∀ s : State, s.tasks.Rising → (f x s).tasks.Rising := List.forall_mem_map

@[simp] theorem Acts.keepRising_flatMap {α : Type} {f : α → List (State → State)} {l : List α} :
    Acts.KeepRising (l.flatMap f) ↔ ∀ x ∈ l, Acts.KeepRising (f x) := List.forall_mem_flatMap

@[simp] theorem State.taskActs_keepRising (s : State) (core slot : Nat) (t : Task) : Acts.KeepRising (s.taskActs core slot t) := by
  simp +contextual [State.taskActs]

@[simp] theorem State.offActs_keepRising (s : State) (o : OffTask) : Acts.KeepRising (s.offActs o) := by
  simp +contextual [State.offActs]

@[simp] theorem State.coreActs_keepRising (s : State) (core : Nat) (c : CoreSt) : Acts.KeepRising (s.coreActs core c) := by
  have hstart (en : EngineId) (g : State → State)
      (h : (s.nextDep core en).map (fun ed => fun s : State => s.after (execTileTaskStart core ed.1 s)) = some g) (t : State)
      (ht : t.tasks.Rising) : (g t).tasks.Rising := by
    obtain ⟨ed, -, rfl⟩ := Option.map_eq_some_iff.1 h
    simp [ht]
  unfold State.coreActs
  refine Acts.keepRising_append.2 ⟨Acts.keepRising_append.2 ⟨Acts.keepRising_append.2 ⟨Acts.keepRising_append.2 ⟨?_, ?_⟩, ?_⟩, ?_⟩, ?_⟩
  · split
    · exact Acts.keepRising_nil
    · intro g hg t ht
      obtain ⟨en, -, h⟩ := List.mem_filterMap.1 hg
      exact hstart en g h t ht
  all_goals simp +contextual

@[simp] theorem State.queueActs_keepRising (s : State) (k : Nat) (x : HostQueue) : Acts.KeepRising (s.queueActs k x) := by
  unfold State.queueActs
  extract_lets c q next node nodes start
  have hnode (g : Graph) (i : Nat) : Acts.KeepRising (node g i) := by
    dsimp only [node]
    split
    · exact Acts.keepRising_nil
    · split <;> simp +contextual
  have hnodes : Acts.KeepRising nodes := by
    dsimp only [nodes]
    split
    · simp [hnode]
    · exact Acts.keepRising_nil
  simp +contextual [hnodes]

@[simp] theorem State.collActs_keepRising (s : State) (c : Nat) (k : Coll) : Acts.KeepRising (s.collActs c k) := by
  unfold State.collActs
  extract_lets n go steps
  have hsteps : Acts.KeepRising steps := by
    dsimp only [steps]
    split
    · exact Acts.keepRising_nil
    · split <;> simp +contextual [go]
  simp +contextual [hsteps, go]

@[simp] theorem State.timedActs_keepRising (s : State) : Acts.KeepRising s.timedActs := by
  unfold State.timedActs
  extract_lets now link lender borrower resends
  have hlink (nl : Nat × Link) : Acts.KeepRising (link nl) := by simp +contextual [link]
  have hlender (ml : Nat × Lender) : Acts.KeepRising (lender ml) := by
    dsimp only [lender]
    split <;> simp +contextual
  have hborrower (nb : Nat × Borrower) : Acts.KeepRising (borrower nb) := by
    dsimp only [borrower]
    split <;> simp +contextual
  simp +contextual [hlink, hlender, hborrower, resends]

@[simp] theorem State.allActs_keepRising (s : State) : Acts.KeepRising s.allActs := by
  unfold State.allActs
  extract_lets sched go waits
  have hgo (b : Bool) {f : State → Out} (hf : ∀ s : State, s.tasks.Rising → (f s).Rising) : Acts.KeepRising (go b f) := by
    dsimp only [go]
    split <;> simp +contextual [hf]
  simp +contextual [hgo]
  split
  · exact hgo _ fun _ h => (execKernelPlacement_rising _ _).2 h
  · exact Acts.keepRising_nil

theorem State.firstAct_rising {s t : State} (hs : s.tasks.Rising) {l : List (State → State)} (hl : Acts.KeepRising l)
    (h : s.firstAct l = some t) : t.tasks.Rising := by
  induction l with
  | nil => cases h
  | cons f l ih =>
    obtain ⟨hf, hl⟩ := List.forall_mem_cons.1 hl
    unfold State.firstAct at h
    dsimp only at h
    split at h
    · exact ih hl h
    · cases h
      exact hf s hs

theorem State.unitAct_rising {s t : State} (hs : s.tasks.Rising) (h : s.unitAct = some t) : t.tasks.Rising := by
  unfold State.unitAct at h
  split at h
  · cases h
  · exact State.firstAct_rising hs s.allActs_keepRising h

theorem step_rising {s t : State} (hs : s.tasks.Rising) (h : step s = .next t) : t.tasks.Rising := by
  unfold step at h
  split at h
  · split at h
    · exact exec_rising _ (by exact hs) t h
    · cases h
  · split at h
    · next hu =>
      cases h
      exact State.unitAct_rising hs hu
    · split at h
      · split at h
        · next hi =>
          cases h
          have hi := State.issueOn_rising hs _ _ hi
          exact hi
        · exact State.issueOn_rising hs _ _ h
      · cases h
        exact s.endClk_rising.2 hs

/-- Settles O60: the task table stays in order through each action of a step, through `exec_rising` for instructions and events. -/
theorem stepsKeepTaskTableSorted : Obligations.StepsKeepTaskTableSorted :=
  fun s t hs h => t.tasksOk_iff.2 (step_rising (s.tasksOk_iff.1 hs) h)

end Sys2Proof.Machine
end

-- ==== The run queue ====
section
/-! ## The run queue of a core (R170, R171)

Where the task table is in order, each READY task of a core is listed once, so the fold by which a choice writes them writes each
slot once, with its own record; the choice itself is a fold that keeps the task aged first. -/

namespace Sys2Proof.Tab

theorem Rising.get_of_mem {α : Type} {t : Tab α} (h : t.Rising) (d : α) {x : Nat × α} (hx : x ∈ t) : t.get d x.1 = x.2 := by
  induction t with
  | nil => exact absurd hx List.not_mem_nil
  | cons y t ih =>
    obtain ⟨hlt, ht⟩ := rising_cons.1 h
    obtain rfl | hx := List.mem_cons.1 hx
    · exact if_pos rfl
    · exact (if_neg (Nat.ne_of_lt (hlt x hx))).trans (ih ht hx)

end Sys2Proof.Tab

namespace Sys2Proof.Machine

/-! ### The READY tasks of a core (R169) -/

/-- Where the task table is in order, so are the READY tasks of a core by slot. -/
theorem State.readyOn_rising {s : State} (hs : s.tasks.Rising) (core : Nat) : Tab.Rising (s.readyOn core) := by
  refine Tab.Rising.filter (t := s.tasksOn core) ?_ _
  unfold Tab.Rising State.tasksOn
  rw [List.map_map, List.pairwise_map]
  refine ((List.pairwise_map.1 hs).filter _).imp_of_mem fun {x y} hx hy hlt => ?_
  have hxc := (List.mem_filter.1 hx).2
  have hyc := (List.mem_filter.1 hy).2
  simp only [Bool.and_eq_true, beq_iff_eq] at hxc hyc
  dsimp only [Function.comp]
  omega

theorem State.taskAt_of_mem_readyOn {s : State} (hs : s.tasks.Rising) {core : Nat} {x : Nat × Task} (hx : x ∈ s.readyOn core) :
    s.taskAt core x.1 = x.2 := by
  obtain ⟨kt, hkt, rfl⟩ := List.mem_map.1 (List.mem_filter.1 hx).1
  obtain ⟨hmem, hc⟩ := List.mem_filter.1 hkt
  simp only [Bool.and_eq_true, beq_iff_eq] at hc
  have hkey : taskKey core (kt.1 % 16) = kt.1 := by
    unfold taskKey
    omega
  rw [State.taskAt, hkey]
  exact hs.get_of_mem .empty hmem

theorem State.mem_readyOn_iff {s : State} (hs : s.tasks.Rising) {core : Nat} {x : Nat × Task} :
    x ∈ s.readyOn core ↔ (x.1, s.taskAt core x.1) ∈ s.readyOn core ∧ x.2 = s.taskAt core x.1 := by
  constructor
  · intro hx
    have h := s.taskAt_of_mem_readyOn hs hx
    exact ⟨h ▸ hx, h.symm⟩
  · rintro ⟨hx, h⟩
    rwa [← h] at hx

/-! ### The choice (R170, R171) -/

/-- The task aged first, so far: `best`, or x where it aged before. -/
def firstAged (best : Option ((Nat × Task) × Nat)) (x : Nat × Task) : Option ((Nat × Task) × Nat) :=
  match best, x.2.agedAt with
  | none, some a => some (x, a)
  | some b, some a => if a < b.2 then some (x, a) else some b
  | b, none => b

/-- Of the tasks l, `best` is one that aged first, with when it did; it is none where none has aged. -/
def AgedFirst (l : List (Nat × Task)) : Option ((Nat × Task) × Nat) → Prop
  | none => ∀ y ∈ l, y.2.agedAt = none
  | some b => b.1.2.agedAt = some b.2 ∧ ∀ y ∈ l, ∀ a, y.2.agedAt = some a → b.2 ≤ a

theorem agedFirst_foldl (l : List (Nat × Task)) : AgedFirst l (l.foldl firstAged none) := by
  induction l using List.reverseRecOn with
  | nil => exact fun _ h => absurd h List.not_mem_nil
  | append_singleton l x ih =>
    rw [List.foldl_append, List.foldl_cons, List.foldl_nil]
    generalize l.foldl firstAged none = best at ih
    cases best <;> cases ha : x.2.agedAt <;> simp only [firstAged, ha]
    · grind [AgedFirst]
    · grind [AgedFirst]
    · grind [AgedFirst]
    · split <;> grind [AgedFirst]

theorem level_le_foldl {l : List (Nat × Task)} {y : Nat × Task} (hy : y ∈ l) :
    y.2.place.level ≤ l.foldl (fun m x => Nat.max m x.2.place.level) 0 := by
  induction l using List.reverseRecOn with
  | nil => exact absurd hy List.not_mem_nil
  | append_singleton l x ih =>
    rw [List.foldl_append, List.foldl_cons, List.foldl_nil]
    obtain hy | hy := List.mem_append.1 hy
    · exact Nat.le_trans (ih hy) (Nat.le_max_left ..)
    · exact List.mem_singleton.1 hy ▸ Nat.le_max_right ..

theorem State.chosen_eq (s : State) (core : Nat) : s.chosen core =
    match (s.readyOn core).foldl firstAged none with
    | some x => some x.1
    | none =>
      let level := (s.readyOn core).foldl (fun m x => Nat.max m x.2.place.level) 0
      firstAfter ((s.readyOn core).filter fun x => x.2.place.level == level) ((s.coreAt core).lastSlot.get? level) := rfl

theorem State.chosen_agedFirst {s : State} {core : Nat} {x y : Nat × Task} (h : s.chosen core = some x) (hy : y ∈ s.readyOn core) {a : Nat}
    (ha : y.2.agedAt = some a) : ∃ b, x.2.agedAt = some b ∧ b ≤ a := by
  have hfirst := agedFirst_foldl (s.readyOn core)
  rw [State.chosen_eq] at h
  generalize (s.readyOn core).foldl firstAged none = best at h hfirst
  cases best with
  | none => exact absurd (ha.symm.trans (hfirst y hy)) (Option.some_ne_none a)
  | some b =>
    cases h
    exact ⟨b.2, hfirst.1, hfirst.2 y hy a ha⟩

theorem State.chosen_deepest {s : State} {core : Nat} {x y : Nat × Task} (h : s.chosen core = some x)
    (hnone : ∀ z ∈ s.readyOn core, z.2.agedAt = none) (hy : y ∈ s.readyOn core) : y.2.place.level ≤ x.2.place.level := by
  have hx := State.chosen_mem h
  have hfirst := agedFirst_foldl (s.readyOn core)
  rw [State.chosen_eq] at h
  generalize (s.readyOn core).foldl firstAged none = best at h hfirst
  cases best with
  | none =>
    have hlevel := (List.mem_filter.1 (firstAfter_mem h)).2
    exact Nat.le_trans (level_le_foldl hy) (Nat.le_of_eq (beq_iff_eq.1 hlevel).symm)
  | some b =>
    cases h
    exact absurd (hfirst.1.symm.trans (hnone _ hx)) (Option.some_ne_none _)

/-! ### What a choice does to the tasks (R58, R170 to R172) -/

section
variable (core : Nat) (f : Word → Nat × Task → Task)

theorem State.foldl_setTaskAt_taskAt_ne {l : List (Nat × Task)} {j : Nat} (h : ∀ x ∈ l, x.1 ≠ j) (s : State) :
    (l.foldl (fun s x => s.setTaskAt core x.1 (f s.cycle x)) s).taskAt core j = s.taskAt core j := by
  induction l generalizing s with
  | nil => rfl
  | cons x l ih =>
    obtain ⟨hx, hl⟩ := List.forall_mem_cons.1 h
    rw [List.foldl_cons, ih hl, State.setTaskAt_taskAt_ne]
    simpa [taskKey] using hx.symm

theorem State.foldl_setTaskAt_taskAt {l : List (Nat × Task)} (hl : Tab.Rising l) {x : Nat × Task} (hx : x ∈ l) (s : State) :
    (l.foldl (fun s x => s.setTaskAt core x.1 (f s.cycle x)) s).taskAt core x.1 = f s.cycle x := by
  induction l generalizing s with
  | nil => exact absurd hx List.not_mem_nil
  | cons y l ih =>
    obtain ⟨hlt, hl⟩ := Tab.rising_cons.1 hl
    obtain rfl | hx := List.mem_cons.1 hx
    · rw [List.foldl_cons, State.foldl_setTaskAt_taskAt_ne core f fun z hz => Nat.ne_of_gt (hlt z hz), State.setTaskAt_taskAt]
    · exact ih hl hx _

end

theorem State.choose_taskAt {s : State} (hs : s.tasks.Rising) {core slot : Nat} {x : Nat × Task} (hx : x ∈ s.readyOn core) :
    (s.choose core slot).taskAt core x.1 =
      if x.1 = slot then x.2.chosenNow ((s.coreAt core).lastIssuer != some slot) else x.2.passOver s.cycle.toNat :=
  State.foldl_setTaskAt_taskAt core (fun now x => if x.1 = slot then x.2.chosenNow ((s.coreAt core).lastIssuer != some slot)
    else x.2.passOver now.toNat) (s.readyOn_rising hs core) hx s

theorem State.choose_taskAt_of_not_ready {s : State} {core slot j : Nat} (h : ∀ x ∈ s.readyOn core, x.1 ≠ j) :
    (s.choose core slot).taskAt core j = s.taskAt core j :=
  State.foldl_setTaskAt_taskAt_ne core (fun now x => if x.1 = slot then x.2.chosenNow ((s.coreAt core).lastIssuer != some slot)
    else x.2.passOver now.toNat) h s

theorem State.choose_coreAt (s : State) (core slot : Nat) : (s.choose core slot).coreAt core =
    { s.coreAt core with
      mono := 0
      pauseTill := if (s.coreAt core).lastIssuer = none ∨ (s.coreAt core).yielded = some slot then (s.coreAt core).pauseTill
        else Nat.max (s.coreAt core).pauseTill ((s.coreAt core).lastAt + 2) } := by
  simp only [State.choose, State.setCoreAt_coreAt, Bool.or_eq_true, Option.isNone_iff_eq_none, beq_iff_eq]

theorem State.pick_of_issuer {s : State} {core : Nat} (hc : core < 1024) {x : Nat × Task} (h : s.issuerOf core = some x) :
    s.pick core = some (s, x.1) := by
  rw [State.pick, if_neg (Nat.not_le.2 hc), h]

theorem State.pick_of_no_issuer {s : State} {core : Nat} (hc : core < 1024) (h : s.issuerOf core = none) :
    s.pick core = (s.chosen core).map fun x => (s.choose core x.1, x.1) := by
  rw [State.pick, if_neg (Nat.not_le.2 hc), h]

/-- Settles O56, from what the choice is (`chosen_agedFirst`, `chosen_deepest`) and what it does to a task (`choose_taskAt`). -/
theorem runQueueChoosesDeepestLevel : Obligations.RunQueueChoosesDeepestLevel := by
  intro s s' core slot j T isReady hc hp
  refine ⟨fun x hx => ?_, fun hnone hs => ?_⟩
  · rw [State.pick_of_issuer hc hx] at hp
    cases hp
    exact ⟨rfl, rfl⟩
  have hmem := State.pick_mem hp
  rw [State.pick_of_no_issuer hc hnone] at hp
  obtain ⟨x, hx, hp⟩ := Option.map_eq_some_iff.1 hp
  cases hp
  have hs := s.tasksOk_iff.1 hs
  have hxr := State.chosen_mem hx
  have hT : T x.1 = x.2 := s.taskAt_of_mem_readyOn hs hxr
  have hready : isReady x.1 := ((s.mem_readyOn_iff hs).1 hxr).1
  refine ⟨hready, ?_, ?_, ?_, fun hj hne => ?_, fun hj => ?_, fun a hj ha => ?_, fun hall hj => ?_, fun l => by rw [hmem]⟩
  · rw [State.choose_taskAt hs hready, if_pos rfl, Task.chosenNow]
    by_cases hlast : (s.coreAt core).lastIssuer = some x.1 <;> simp [hlast, T]
  · rw [State.choose_coreAt]
  · rw [State.choose_coreAt]
  · exact (State.choose_taskAt hs hj).trans (if_neg hne)
  · refine State.choose_taskAt_of_not_ready fun y hy he => ?_
    subst he
    exact hj ((s.mem_readyOn_iff hs).1 hy).1
  · exact hT.symm ▸ State.chosen_agedFirst hx hj ha
  · refine hT.symm ▸ State.chosen_deepest hx (fun z hz => ?_) hj
    obtain ⟨hz, he⟩ := (s.mem_readyOn_iff hs).1 hz
    exact he ▸ hall z.1 hz

end Sys2Proof.Machine
end

section
/-! ### A refused arrival that two results await (R192, R195, R221)

An arrival that meets an IDLE entry is refused late: of the results that await it the first takes the cause and the others are gone (R221). The
statement gives the cause to every result that awaits the arrival, and does not say that a BARARR has one. -/

namespace Sys2Proof.Machine

/-- Arrival 7 of the task on core 0 in slot 0, at entry 3 of core 0, which no kernel has initialised. -/
def uninitialisedArrival : Arrival := ⟨0, 3, 0, 0, 0, 0, some 7, false, 0, none⟩

/-- `twoResultsState`, with the results awaiting that arrival. -/
def refusedArrivalState : State := { twoResultsState with held := [], arrivals := [uninitialisedArrival] }

/-- The refusal gives its cause to the first result alone. -/
theorem valuesAfter_refusedArrival : valuesAfter (exec .barrierArrival refusedArrivalState) = some [.late 0x125 3, .gone] := by
  decide +kernel

/-- Refutes O37: an arrival that its entry refuses while two results await it gives the second no cause. -/
theorem not_barrierEventsCountArrivals : ¬ Obligations.BarrierEventsCountArrivals := by
  intro h
  obtain ⟨-, hfirst, -⟩ := h refusedArrivalState uninitialisedArrival [] 7 0 0 0 0
  have hfree : refusedArrivalState.arrivalFree uninitialisedArrival = true := by decide
  obtain ⟨hrefused, -⟩ := hfirst rfl hfree rfl rfl (by decide) rfl rfl rfl (fun _ hb => absurd hb List.not_mem_nil) (by decide)
  have hidle : (refusedArrivalState.coreAt 0).bars.get .zero 3 = .zero := by decide
  obtain ⟨t, ht, ⟨-, htask⟩, -⟩ := hrefused fun hmine => hmine.1 (congrArg Barrier.stat hidle)
  have hvals := valuesAfter_refusedArrival
  rw [ht] at hvals
  have hgone := Option.some.inj hvals
  rw [show t.taskAt 0 0 = _ from htask] at hgone
  exact absurd hgone (by decide)

end Sys2Proof.Machine
end

section
/-! ### An access of an engine unit that nothing delays (R86, R106, R111, R127, R147) -/

namespace Sys2Proof.Machine

/-! #### The port -/

/-- What an access of a unit depends on is the same in two states. -/
theorem State.opens_of_sameMap {s t : State} (h : s.sameMap t) (hcores : t.cores = s.cores) (hsrc : t.e2eSrc = s.e2eSrc)
    (hbarq : t.barq = s.barq) (hbor : t.borrowers = s.borrowers) (hheld : t.held = s.held) {u : UnitId} {ctx : Nat} {va : Word}
    {a : Acc} {ls : List Loc} (ho : s.opens u ctx va a ls) : t.opens u ctx va a ls := by
  have hlook := State.lookU_of_sameMap h
  obtain ⟨-, -, hmem, -, -, -, hrts⟩ := h
  unfold State.opens State.sideOf State.coreAt State.sentBy at *
  rwa [hlook, hmem, hrts, hcores, hsrc, hbarq, hbor, hheld]

section
variable {s : State} {u : UnitId} {ctx : Nat} {va : Word} {a : Acc} {ls : List Loc} (h : s.opens u ctx va a ls)
include h

theorem State.older_of_opens (k : Nat) : s.older u k = ⟨[], [], [], [], false, false, false⟩ := by
  obtain ⟨hside, hsent, hbarq, -, hheld, -⟩ := h
  have hown : (s.held.filter fun h => u.inOrder && h.unit == u && h.id < k && h.ordered && s.polls h) = [] :=
    List.filter_eq_nil_iff.2 fun h hm => by simp [(hheld h hm).1]
  have hdev : (s.barq.filter fun a => a.unit == u && a.id < k) = [] :=
    List.filter_eq_nil_iff.2 fun a ha => by simp [hbarq a ha]
  have hstuck : (s.held.any fun h => h.req.isStore && h.unit.logKey == u.logKey && h.id < k) = false :=
    List.any_eq_false.2 fun h hm => by simp [(hheld h hm).2]
  simp [State.older, hside, hsent, hown, hdev, hstuck]

theorem State.kick_of_opens {t : State} (ht : t.rts = s.rts) (before : State) (src : Nat) (x : Nat × Nat) (ias : List Nat) :
    t.kick before src x ias = t := by
  obtain ⟨-, -, -, -, -, hkick, -⟩ := h
  refine List.foldlRecOn (motive := fun u => u = t) t.rts _ rfl fun v hv rt hrt => ?_
  dsimp only
  rw [if_neg (by simp [hkick rt (ht ▸ hrt)]), hv]

theorem State.demote_of_opens (x : UnitId) (ctx' : Nat) (bs : List ByteLook) : s.demote x ctx' bs = s := by
  obtain ⟨-, -, -, hbor, -⟩ := h
  cases x <;> simp [State.demote, hbor]

theorem State.sideOf_of_opens : s.sideOf u = [] := by
  obtain ⟨hside, -⟩ := h
  exact hside

theorem State.sound_of_opens {l : Loc} (hl : l ∈ ls) : s.mem.bad l = false := by
  obtain ⟨-, -, -, -, -, -, hsound, -⟩ := h
  exact hsound l hl

theorem State.nodup_of_opens : ls.Nodup := by
  obtain ⟨-, -, -, -, -, -, -, hnodup, -⟩ := h
  exact hnodup

theorem State.looksAt_of_opens : LooksAt (s.looks u ctx va ls.length a) ls := by
  obtain ⟨-, -, -, -, -, -, -, -, hlook⟩ := h
  refine List.ext_getElem (by simp [State.looks, upFrom_eq]) fun i hi hl => ?_
  obtain ⟨kind, m, ia, hk⟩ := hlook i (ls[i]'(by simpa using hl)) (List.getElem?_eq_getElem _)
  simp [State.looks, upFrom_eq, hk, Look.loc?]

theorem State.blocksAny_of_opens (k : Nat) (rel : Bool) (bs : List ByteLook) : (s.older u k).blocksAny rel bs = false := by
  simp [State.older_of_opens h, Older.blocksAny, Older.blocks]

end

theorem State.looks_off {s : State} {u : UnitId} {ctx : Nat} {va : Word} {n : Nat} {a : Acc} (i : Nat) (b : ByteLook)
    (h : (s.looks u ctx va n a)[i]? = some b) : b.off = i := by
  obtain ⟨hi, rfl⟩ := List.getElem?_eq_some_iff.1 h
  simp [State.looks, upFrom_eq]

/-- The opening of an access outlasts the taking of its number. -/
theorem State.freshId_opens {s : State} {u : UnitId} {ctx : Nat} {va : Word} {a : Acc} {ls : List Loc} (h : s.opens u ctx va a ls) :
    s.freshId.2.opens u ctx va a ls :=
  State.opens_of_sameMap (s := s) (t := s.freshId.2) ⟨rfl, rfl, rfl, rfl, rfl, rfl, rfl⟩ rfl rfl rfl rfl rfl h

/-! #### Reads -/

/-- What leaves a byte of memory as it is leaves all of them. -/
theorem LooksAt.map_eq_self {looks : List ByteLook} {ls : List Loc} (h : LooksAt looks ls) {f : ByteLook → ByteLook}
    (hf : ∀ b l kind, b.look = .mem l kind → f b = b) : looks.map f = looks := by
  refine (List.map_congr_left fun b hb => ?_).trans (List.map_id looks)
  obtain ⟨l, kind, hk⟩ := h.of_mem hb
  exact hf b l kind hk

/-- A read by an engine unit is over at once: its bytes, and nothing changes (R106, R111). -/
theorem State.unitRead_of_opens {s : State} {u : UnitId} {ctx : Nat} {va : Word} {ls : List Loc} (h : s.opens u ctx va .read ls)
    (id : Nat) : s.unitRead (s.withParts (Held.new id u ctx (.raw va ls.length) 0 0)) va ls.length =
      (s, .done (ls.map fun l => (s.mem.rd l, false))) := by
  have hl := State.looksAt_of_opens h
  have hof : s.looksOf (s.withParts (Held.new id u ctx (.raw va ls.length) 0 0)) va ls.length .read 0 = s.looks u ctx va ls.length .read :=
    State.looksOf_withParts (h := Held.new id u ctx (.raw va ls.length) 0 0) rfl (by simp [Held.new])
  have hread (got : Tab Byte) (bad : List (Nat × Nat × Nat)) : ({ s with mem := { s.mem with poison := [] } } : State).readLooks
      (s.looks u ctx va ls.length .read) got bad false = .ok (ls.map s.mem.rd) := by
    rw [State.readLooks_of_looksAt hl (fun _ _ => rfl)]
    exact congrArg _ (List.map_congr_left fun l _ => by cases l <;> rfl)
  have hunit : (s.withParts (Held.new id u ctx (.raw va ls.length) 0 0)).unit = u := rfl
  rw [State.unitRead]
  dsimp only
  rw [hof, hl.map_eq_self, hread, hunit, State.blocksAny_of_opens h]
  on_goal 2 => exact fun b l kind hk => by simp only [hk]
  dsimp only
  rw [if_neg (by decide)]
  refine congrArg (fun bs => (s, UServed.done bs)) (List.ext_getElem (by simp [State.looks, upFrom_eq]) fun i h1 h2 => ?_)
  have hi : i < ls.length := by simpa using h2
  have hb : i < (s.looks u ctx va ls.length .read).length := by simpa [State.looks, upFrom_eq] using hi
  have hat := List.getElem_of_eq hl (i := i) (by simpa using hb)
  obtain ⟨l, kind, hk⟩ := hl.of_mem (List.getElem_mem hb)
  rw [List.getElem_map, List.getElem_map, hk] at hat
  obtain rfl : l = ls[i] := Option.some.inj hat
  simp [hk, State.sound_of_opens h (List.getElem_mem hi)]

theorem State.unitAccess_raw_of_opens {s : State} {u : UnitId} {ctx : Nat} {va : Word} {ls : List Loc}
    (h : s.opens u ctx va .read ls) : s.unitAccess u ctx (.raw va ls.length) none =
      (s.freshId.2, none, .ok (ls.map fun l => (s.mem.rd l, false))) := by
  have hserve : s.freshId.2.unitServe (s.freshId.2.withParts (Held.new s.nextId u ctx (.raw va ls.length) 0 0)) =
      (s.freshId.2, .done (ls.map fun l => (s.mem.rd l, false))) := State.unitRead_of_opens (State.freshId_opens h) s.nextId
  unfold State.unitAccess
  dsimp only
  rw [show s.freshId.1 = s.nextId from rfl, hserve]

theorem readWords_bytes (s : State) (ls : List Loc) :
    readWords (ls.map fun l => (s.mem.rd l, false)) = s.wordsAt ls (ls.length / 8) := by
  rw [readWords, State.wordsAt, upFrom_eq, List.length_map, List.map_map, List.map_map]
  refine List.map_congr_left fun k _ => ?_
  simp [wordOf, State.bytesAt, List.map_drop, List.map_take, Function.comp_def]

/-! #### Writes -/

theorem Mem.map_rd_wrAll (m : Mem) {ls : List Loc} (hn : ls.Nodup) {bs : List Byte} (hb : ls.length = bs.length) :
    ls.map (m.wrAll (ls.zip bs)).rd = bs := by
  induction ls generalizing m bs with
  | nil => exact (List.length_eq_zero_iff.1 hb.symm).symm
  | cons l ls ih =>
    obtain ⟨b, bs, rfl⟩ := List.exists_cons_of_length_eq_add_one hb.symm
    obtain ⟨hl, hn⟩ := List.nodup_cons.1 hn
    have hcons (k : Loc) : (m.wrAll ((l :: ls).zip (b :: bs))).rd k = ((m.wr l b).wrAll (ls.zip bs)).rd k := by
      simp [Mem.wrAll]
    have hb : ls.length = bs.length := by simpa using hb
    rw [List.map_cons, hcons, Mem.rd_wrAll_ne _ _ _ (by rwa [List.map_fst_zip (Nat.le_of_eq hb)]), Mem.rd_wr_same,
      List.map_congr_left fun k _ => hcons k, ih _ hn hb]

/-- A memory that reads as one with bytes written at places that differ stores them there. -/
theorem State.stores_of_rd {s t : State} {ls : List Loc} {bs : List Byte} (hn : ls.Nodup) (hb : ls.length = bs.length)
    (h : ∀ l, t.mem.rd l = (s.mem.wrAll (ls.zip bs)).rd l) : s.stores t ls bs := by
  refine ⟨?_, fun l hl => ?_⟩
  · rw [List.map_congr_left fun l _ => h l, Mem.map_rd_wrAll _ hn hb]
  · rw [h, Mem.rd_wrAll_ne _ _ _ (by rwa [List.map_fst_zip (Nat.le_of_eq hb)])]

section
variable {s : State} {u : UnitId} {ctx : Nat} {va : Word} {ls : List Loc} (h : s.opens u ctx va .write ls)
include h

theorem State.wClass_of_opens (dev rel : Bool) (k : Nat) : (s.looks u ctx va ls.length .write).map (s.wClass (s.older u k) dev rel) =
    List.replicate ls.length .write := by
  refine List.eq_replicate_iff.2 ⟨by simp [State.looks, upFrom_eq], fun c hc => ?_⟩
  obtain ⟨b, hb, rfl⟩ := List.mem_map.1 hc
  obtain ⟨l, kind, hk⟩ := (State.looksAt_of_opens h).of_mem hb
  simp [State.wClass, hk, State.older_of_opens h, Older.blocks]

/-- Every byte is written at once. -/
theorem State.writeRuns_of_opens (dev rel : Bool) (k : Nat) :
    WRunsFrom 0 (s.writeRuns ctx u va dev rel k (s.looks u ctx va ls.length .write)) ∧
      (s.writeRuns ctx u va dev rel k (s.looks u ctx va ls.length .write)).flatMap WRun.looks = s.looks u ctx va ls.length .write := by
  have hlen : (s.looks u ctx va ls.length .write).length = ls.length := by simp [State.looks, upFrom_eq]
  have hz : (List.replicate ls.length WClass.write).zip (s.looks u ctx va ls.length .write) =
      (s.looks u ctx va ls.length .write).map fun b => (WClass.write, b) :=
    List.ext_getElem (by simp [hlen]) fun i _ _ => by simp
  rw [State.writeRuns, State.wClass_of_opens h, wholeUnits_replicate_write, hz]
  exact wRunsFrom_foldl (n := 0) (acc := []) trivial rfl (by simpa using State.looks_off)

theorem State.writeRun_of_opens (m : Mem) {r : WRun} (hr : r.cls = .write) (bs : List Byte) (rel : Bool) (k : Nat) :
    (s.withMem m s.nextId).writeRun ctx u va bs [] rel k r =
      (s.withMem (m.wrAll ((r.looks.filterMap fun b => b.look.loc?).zip ((bs.drop r.off).take r.looks.length))) s.nextId, []) := by
  rw [State.writeRun, hr]
  dsimp only
  exact congrArg (fun t => (t, [])) (State.kick_of_opens h (by rfl) _ _ _ _)

/-- One run after the other is written, and nothing else of the state changes. -/
theorem State.foldl_writeRun_of_opens (bs : List Byte) (rel : Bool) (k : Nat)
    {step : State × List Report × List Nat → WRun → State × List Report × List Nat}
    (hstep : ∀ (t : State) (r : WRun), r.cls = .write → step (t, [], []) r = ((t.writeRun ctx u va bs [] rel k r).1, [], []))
    (runs : List WRun) {i : Nat} (hr : WRunsFrom i runs) {ls : List Loc} (hl : LooksAt (runs.flatMap WRun.looks) ls)
    (hb : ls.length = (bs.drop i).length) (m : Mem) :
    ∃ m', runs.foldl step (s.withMem m s.nextId, [], []) = (s.withMem m' s.nextId, [], []) ∧
      ∀ l, m'.rd l = (m.wrAll (ls.zip (bs.drop i))).rd l := by
  induction runs generalizing i ls m with
  | nil =>
    obtain rfl : ls = [] := List.map_eq_nil_iff.1 hl.symm
    exact ⟨m, rfl, fun l => by simp [Mem.wrAll]⟩
  | cons r runs ih =>
    obtain ⟨hcls, hoff, hrest⟩ := hr
    obtain ⟨hfst, hsnd⟩ := LooksAt.append hl
    have hb' : (ls.drop r.looks.length).length = (bs.drop (i + r.looks.length)).length := by
      rw [← List.drop_drop, List.length_drop, List.length_drop, hb]
    obtain ⟨m', hm', hrd⟩ := ih hrest hsnd hb' (m.wrAll ((ls.take r.looks.length).zip ((bs.drop i).take r.looks.length)))
    refine ⟨m', ?_, fun l => ?_⟩
    · rw [List.foldl_cons, hstep _ _ hcls, State.writeRun_of_opens h m hcls, hfst.locs, hoff]
      exact hm'
    · rw [hrd, Mem.rd_wrAll_append, ← List.drop_drop, ← List.zip_append (by simp [hb]), List.take_append_drop,
        List.take_append_drop]

/-- A write of an engine unit is over at once: its bytes stand at their places, and nothing else changes (R108, R111). -/
theorem State.writeVA_of_opens {bs : List Byte} (hb : ls.length = bs.length) (dev rel : Bool) :
    ∃ m, s.writeVA ctx u va bs dev rel = (s.withMem m s.nextId, []) ∧ s.stores (s.withMem m s.nextId) ls bs := by
  obtain ⟨hr, hf⟩ := State.writeRuns_of_opens h dev rel s.nextId
  rw [State.writeVA, State.writeLooks, State.demote_of_opens h, ← hb]
  refine (State.foldl_writeRun_of_opens h bs rel s.nextId (step := _) ?_ _ hr (by rw [hf]; exact State.looksAt_of_opens h) hb s.mem).imp
    fun m hm => ⟨congrArg (fun x => (x.1, x.2.1)) hm.1, State.stores_of_rd (State.nodup_of_opens h) hb hm.2⟩
  intro t r hc
  simp [hc, WClass.isFail]

end

/-! #### Atomics -/

theorem length_toBytes (n x : Nat) : (toBytes n x).length = n := by
  induction n generalizing x with
  | zero => rfl
  | succ n ih => rw [toBytes, List.length_cons, ih]

/-- An atomic add of an engine unit is over at once: the word holds the sum, and nothing else changes (R127, R276). -/
theorem State.serveAtomic_add_of_opens {s : State} {u : UnitId} {ctx : Nat} {va : Word} {ls : List Loc} (h : s.opens u ctx va .atomic ls)
    (hlen : ls.length = 8) (id : Nat) (v : Word) :
    ∃ m img, s.serveAtomic (s.withParts (Held.new id u ctx (.atomic 0 va 8 [v]) 0 0)) 0 va 8 [v] = (s.withMem m s.nextId, .done img) ∧
      s.stores (s.withMem m s.nextId) ls (toBytes 8 ((.ofNat 64 (s.bytesAt ls) : Word) + v).toNat) := by
  have hl := State.looksAt_of_opens h
  rw [hlen] at hl
  have hof : s.looksOf (s.withParts (Held.new id u ctx (.atomic 0 va 8 [v]) 0 0)) va 8 .atomic 0 = s.looks u ctx va 8 .atomic :=
    State.looksOf_withParts (h := Held.new id u ctx (.atomic 0 va 8 [v]) 0 0) rfl (by simp [Held.new])
  have hx : (s.looks u ctx va 8 .atomic).findSome? ByteLook.xlat? = none := List.findSome?_eq_none_iff.2 fun b hb => by
    obtain ⟨l, kind, hk⟩ := hl.of_mem hb
    simp [ByteLook.xlat?, hk]
  obtain ⟨b, bs, hbs⟩ : ∃ b bs, s.looks u ctx va 8 .atomic = b :: bs := ⟨_, _, rfl⟩
  obtain ⟨l, kind, hk⟩ := hl.of_mem (hbs ▸ List.mem_cons_self : b ∈ _)
  have hsound : ls.any s.mem.bad = false := List.any_eq_false.2 fun l hl => by simp [State.sound_of_opens h hl]
  have hunit : (s.withParts (Held.new id u ctx (.atomic 0 va 8 [v]) 0 0)).unit = u := rfl
  have hmem : (s.mem.atomic 0 ls [v]).2 =
      some (s.mem.wrAll (ls.zip (toBytes 8 ((.ofNat 64 (s.bytesAt ls) : Word) + v).toNat))) := by
    have hlt : ofBytes (ls.map s.mem.rd) < 2 ^ 64 := by simpa [hlen] using ofBytes_lt (ls.map s.mem.rd)
    simp [Mem.atomic, atomNew, hlen, State.bytesAt, Nat.mod_eq_of_lt v.isLt]
  refine ⟨s.mem.wrAll (ls.zip (toBytes 8 ((.ofNat 64 (s.bytesAt ls) : Word) + v).toNat)), imgW (extendLoad (ls.map s.mem.rd) false), ?_,
    State.stores_of_rd (State.nodup_of_opens h) (by rw [hlen, length_toBytes]) fun l => rfl⟩
  rw [State.serveAtomic]
  dsimp only
  rw [hof, State.demote_of_opens h, hx, hunit]
  simp only [hl.locs, hsound, hmem, Mem.atomic_old, State.atomicDone]
  simp only [hbs, hk, State.blocksAny_of_opens h]
  rw [State.kick_of_opens h (by rfl)]
  simp [hostAtomic, State.withMem]

theorem State.unitAccess_add_of_opens {s : State} {u : UnitId} {ctx : Nat} {va : Word} {ls : List Loc}
    (h : s.opens u ctx va .atomic ls) (hlen : ls.length = 8) (v : Word) :
    ∃ m bs, s.unitAccess u ctx (.atomic 0 va 8 [v]) none = (s.withMem m (s.nextId + 1), none, .ok bs) ∧
      s.stores (s.withMem m (s.nextId + 1)) ls (toBytes 8 ((.ofNat 64 (s.bytesAt ls) : Word) + v).toNat) := by
  obtain ⟨m, img, hserve, hstores⟩ := State.serveAtomic_add_of_opens (State.freshId_opens h) hlen s.nextId v
  refine ⟨m, (toBytes 16 img.toNat).map fun b => (b, false), ?_, hstores⟩
  have hunit : s.freshId.2.unitServe (s.freshId.2.withParts (Held.new s.nextId u ctx (.atomic 0 va 8 [v]) 0 0)) =
      (s.withMem m (s.nextId + 1), .done ((toBytes 16 img.toNat).map fun b => (b, false))) := by
    have hreq : (s.freshId.2.withParts (Held.new s.nextId u ctx (.atomic 0 va 8 [v]) 0 0)).req = .atomic 0 va 8 [v] := rfl
    rw [State.unitServe, State.serve, hreq]
    dsimp only
    rw [hserve]
    rfl
  unfold State.unitAccess
  dsimp only
  rw [show s.freshId.1 = s.nextId from rfl, hunit]

end Sys2Proof.Machine
end

section
/-! ### Host queues: commands, doorbells, the start and the end of a graph (R200 to R205) -/

namespace Sys2Proof.Tab

variable {α : Type}

/-- Of two writes at one key the later stands. -/
@[simp] theorem put_put (t : Tab α) (k : Nat) (v w : α) : (t.put k v).put k w = t.put k w := by
  induction t with
  | nil => simp [put]
  | cons x t ih =>
    obtain ⟨j, u⟩ := x
    simp only [put]
    split
    · simp [put]
    · split
      · simp [put]
      · simp [put, *]

end Sys2Proof.Tab

namespace Sys2Proof.Machine

/-! #### A queue replaced -/

@[simp] theorem State.setQueue_queueAt (s : State) (c q : Nat) (x : HostQueue) : (s.setQueue c q x).queueAt c q = x := by
  unfold State.setQueue State.queueAt
  split <;> exact Tab.get_put_self ..

@[simp] theorem State.setQueue_tasks (s : State) (c q : Nat) (x : HostQueue) : (s.setQueue c q x).tasks = s.tasks := by
  unfold State.setQueue
  split <;> rfl

@[simp] theorem State.freshId_queueAt (s : State) (c q : Nat) : s.freshId.2.queueAt c q = s.queueAt c q := rfl

theorem State.keeps_of_mem {s t : State} (h : t.mem = s.mem) : s.keeps t := fun _ => by rw [h]

/-! #### Commands (R203, R216) -/

theorem State.queuesOpen_iff (s : State) : s.queuesOpen = true ↔ s.modstat.phase ≠ 1 ∧ s.modstat.phase ≠ 5 := by
  simp [State.queuesOpen]

theorem State.badCmd_of_up {s : State} (h : s.modstat.phase ≠ 1) (c q : Nat) :
    s.badCmd c q = s.setQueue c q { s.queueAt c q with badcmd := true } := if_neg h

theorem State.badCmd_of_bootfail {s : State} (h : s.modstat.phase = 1) (c q : Nat) : s.badCmd c q = s := if_pos h

section
variable {s : State} {c q : Nat} {ok : HostQueue → Bool}

theorem State.queueCmd_of_ok (hopen : s.modstat.phase ≠ 1 ∧ s.modstat.phase ≠ 5) (hctx : (s.ctxAt c).stat ≠ .error)
    (hok : ok (s.queueAt c q) = true) (f : HostQueue → HostQueue) : s.queueCmd c q ok f = s.setQueue c q (f (s.queueAt c q)) :=
  if_pos ⟨s.queuesOpen_iff.2 hopen, hctx, hok⟩

theorem State.queueCmd_of_refused
    (h : s.modstat.phase = 1 ∨ s.modstat.phase = 5 ∨ (s.ctxAt c).stat = .error ∨ ok (s.queueAt c q) = false) (f : HostQueue → HostQueue) :
    s.queueCmd c q ok f = s.badCmd c q := by
  refine if_neg fun hall => ?_
  obtain ⟨hopen, hctx, hok⟩ := hall
  obtain ⟨hup, herr⟩ := s.queuesOpen_iff.1 hopen
  obtain h | h | h | h := h
  · exact hup h
  · exact herr h
  · exact hctx h
  · rw [h] at hok
    exact Bool.false_ne_true hok

end

section
variable (c : BitVec 4) (q : BitVec 6) (s : State)

theorem exec_queueEnable : exec (.queueEnable c q) s = .next (s.queueCmd c.toNat q.toNat
    (fun x => x.stat == .disabled && 1 ≤ x.cfg.f 3 0 && x.cfg.f 3 0 ≤ 12) fun x => { x with head := x.tail, stat := .idle }) := rfl

theorem exec_queueRetry : exec (.queueRetry c q) s = .next (s.freshId.2.queueCmd c.toNat q.toNat (fun x => x.stat == .halted)
    fun x => { x with stat := .running, graph := some (.start s.nextId) }) := rfl

theorem exec_queueSkip : exec (.queueSkip c q) s = .next (s.queueCmd c.toNat q.toNat (fun x => x.stat == .halted)
    fun x => { x with stat := .idle, head := (x.head + 1) % 2 ^ x.cfg.f 3 0 }) := rfl

variable {c q s}

/-- QUEUE_DISABLE in a module that admits no commands, or of a queue that is DISABLED or HALTING already. -/
theorem exec_queueDisable_of_refused (h : s.modstat.phase = 1 ∨ s.modstat.phase = 5 ∨ (s.queueAt c.toNat q.toNat).stat = .disabled ∨
    (s.queueAt c.toNat q.toNat).stat = .halting) : exec (.queueDisable c q) s = .next (s.badCmd c.toNat q.toNat) := by
  refine congrArg Host.Outcome.next ?_
  have hopen := s.queuesOpen_iff
  split
  · rfl
  · obtain h | h | h | h := h
    · simp_all
    · simp_all
    · rw [h]
    · rw [h]

section
variable (hopen : s.modstat.phase ≠ 1 ∧ s.modstat.phase ≠ 5)
include hopen

theorem exec_queueDisable_of_idle (h : (s.queueAt c.toNat q.toNat).stat = .idle) : exec (.queueDisable c q) s =
    .next ((s.dropSched (s.schedUnit c.toNat q.toNat 2047)).setQueue c.toNat q.toNat
      { s.queueAt c.toNat q.toNat with stat := .disabled, graph := none }) := by
  refine congrArg Host.Outcome.next ((if_neg (by simp [s.queuesOpen_iff.2 hopen])).trans ?_)
  rw [h]

theorem exec_queueDisable_of_halted (h : (s.queueAt c.toNat q.toNat).stat = .halted) : exec (.queueDisable c q) s =
    .next (s.setQueue c.toNat q.toNat { s.queueAt c.toNat q.toNat with stat := .disabled }) := by
  refine congrArg Host.Outcome.next ((if_neg (by simp [s.queuesOpen_iff.2 hopen])).trans ?_)
  rw [h]

theorem exec_queueDisable_of_running (h : (s.queueAt c.toNat q.toNat).stat = .running) : exec (.queueDisable c q) s =
    .next (s.setQueue c.toNat q.toNat { s.queueAt c.toNat q.toNat with off := true }) := by
  refine congrArg Host.Outcome.next ((if_neg (by simp [s.queuesOpen_iff.2 hopen])).trans ?_)
  simp only [h]

end

theorem exec_queueConfigWrite_of_refused (h : s.modstat.phase = 1 ∨ (s.queueAt c.toNat q.toNat).stat ≠ .disabled) (b : Bool) (v : Word) :
    exec (.queueConfigWrite c q b v) s = .next (s.badCmd c.toNat q.toNat) := congrArg Host.Outcome.next (if_pos h)

theorem exec_queueConfigWrite_of_disabled (hup : s.modstat.phase ≠ 1) (h : (s.queueAt c.toNat q.toNat).stat = .disabled) (b : Bool)
    (v : Word) : exec (.queueConfigWrite c q b v) s = .next (s.setQueue c.toNat q.toNat
      (if b then { s.queueAt c.toNat q.toNat with cfg := (s.queueAt c.toNat q.toNat).cfg.merge v 0xCF }
       else { s.queueAt c.toNat q.toNat with base := (s.queueAt c.toNat q.toNat).base.merge v (maskF 56 5) })) :=
  congrArg Host.Outcome.next (if_neg (not_or_intro hup (not_not_intro h)))

/-! #### The doorbell (R201) -/

theorem exec_doorbell (v : Word) : exec (.doorbell c q v) s = .next (
    if s.modstat.phase = 1 then s
    else if v.f 63 12 ≠ 0 ∨ 2 ^ (s.queueAt c.toNat q.toNat).cfg.f 3 0 ≤ v.f 11 0 then
      s.setQueue c.toNat q.toNat { s.queueAt c.toNat q.toNat with baddb := true }
    else if (s.ctxAt c.toNat).stat = .free ∨ (s.ctxAt c.toNat).stat = .draining then s
    else s.setQueue c.toNat q.toNat { s.queueAt c.toNat q.toNat with tail := v.f 11 0 }) := rfl

end

/-! #### The failure of a graph (R214) -/

/-- From s to t the queue has gone to HALTING: with a first failure's cause and node where its graph was running. HEAD and memory stay. -/
def State.Halts (s t : State) (c q cause i : Nat) : Prop :=
  (t.queueAt c q).stat = .halting ∧ ((s.queueAt c q).stat = .running → (t.queueAt c q).cause = cause ∧ (t.queueAt c q).node = i) ∧
    (t.queueAt c q).head = (s.queueAt c q).head ∧ s.keeps t

theorem State.failNode_halts (s : State) (c q i cause : Nat) : s.Halts (s.failNode c q i cause) c q cause i := by
  refine ⟨?_, fun hrun => ?_, ?_, State.keeps_of_mem (State.failNode_mem ..)⟩
  · simp only [State.failNode, State.setQueue_queueAt]
    split <;> trivial
  · simp [State.failNode, hrun]
  · simp only [State.failNode, State.setQueue_queueAt]
    split <;> rfl

/-! #### The start of a graph (R202, R205) -/

section
variable {c : BitVec 4} {q : BitVec 6} {s : State}

theorem exec_graphStart_of_inactive (h : (s.ctxAt c.toNat).stat ≠ .active) : exec (.graphStart c q) s = .next s :=
  congrArg Host.Outcome.next (if_pos h)

theorem exec_graphStart_of_not_started (h : (s.queueAt c.toNat q.toNat).stat ∉ [.idle, .running]) : exec (.graphStart c q) s = .next s := by
  refine congrArg Host.Outcome.next ((ite_eq_left_iff).2 fun _ => ?_)
  dsimp only
  split <;> simp_all

variable (hact : (s.ctxAt c.toNat).stat = .active)
include hact

theorem exec_graphStart_of_none (hidle : (s.queueAt c.toNat q.toNat).stat = .idle) (hnone : (s.queueAt c.toNat q.toNat).graph = none) :
    exec (.graphStart c q) s = .next (if (s.queueAt c.toNat q.toNat).head = (s.queueAt c.toNat q.toNat).tail then s
      else s.freshId.2.setQueue c.toNat q.toNat { s.queueAt c.toNat q.toNat with graph := some (.start s.nextId) }) := by
  refine congrArg Host.Outcome.next ((if_neg (not_not_intro hact)).trans ?_)
  simp only [hidle, hnone, State.freshId_queueAt]
  rfl

variable {g : Graph} (hg : (s.queueAt c.toNat q.toNat).graph = some g)
include hg

/-- A graph whose entry can be read at once gets it. -/
theorem exec_graphStart_reads_entry (hidle : (s.queueAt c.toNat q.toNat).stat = .idle) (hentry : g.entry = []) (hhold : g.hold = none)
    {ls : List Loc} (hlen : ls.length = 32)
    (ho : s.opens (s.schedUnit c.toNat q.toNat 2047) c.toNat
      ((s.queueAt c.toNat q.toNat).base + .ofNat 64 (32 * (s.queueAt c.toNat q.toNat).head)) .read ls) :
    exec (.graphStart c q) s = .next (s.freshId.2.setQueue c.toNat q.toNat
      { s.queueAt c.toNat q.toNat with graph := some { g with entry := s.wordsAt ls 4, hold := none } }) := by
  have hread := State.unitAccess_raw_of_opens ho
  have hwords := readWords_bytes s ls
  rw [hlen] at hread hwords
  refine congrArg Host.Outcome.next ((if_neg (not_not_intro hact)).trans ?_)
  simp only [hidle, hg, hentry, hhold, hread, hwords, State.freshId_queueAt]
  simp

/-- A graph whose entry is read takes its places of the node store when it is its turn and they are free (R205). -/
theorem exec_graphStart_takes_places (hidle : (s.queueAt c.toNat q.toNat).stat = .idle) (hentry : g.entry ≠ [])
    (hstored : g.stored = false) : exec (.graphStart c q) s = .next (
      if s.nextStored = some (queueKey c.toNat q.toNat) ∧ s.storeUsed + g.nnodes ≤ 16384 then
        s.setQueue c.toNat q.toNat { s.queueAt c.toNat q.toNat with stat := .running, graph := some { g with stored := true } }
      else s) := by
  refine congrArg Host.Outcome.next ((if_neg (not_not_intro hact)).trans ?_)
  simp [hidle, hg, hentry, hstored]

variable (hrun : (s.queueAt c.toNat q.toNat).stat = .running) (hentry : g.entry ≠ []) (hstored : g.stored = true) (hloaded : g.loaded = false)
include hrun hentry hstored hloaded

/-- The next node of a graph that can be read at once is read. -/
theorem exec_graphStart_reads_node (hmore : g.nodes.length < g.nnodes) (hhold : g.hold = none) {ls : List Loc} (hlen : ls.length = 64)
    (ho : s.opens (s.schedUnit c.toNat q.toNat 2047) c.toNat (g.nodeAddr g.nodes.length) .read ls) :
    exec (.graphStart c q) s = .next (s.freshId.2.setQueue c.toNat q.toNat
      { s.queueAt c.toNat q.toNat with graph := some { g with nodes := g.nodes ++ [.new (s.wordsAt ls 8)], hold := none } }) := by
  have hread := State.unitAccess_raw_of_opens ho
  have hwords := readWords_bytes s ls
  rw [hlen] at hread hwords
  refine congrArg Host.Outcome.next ((if_neg (not_not_intro hact)).trans ?_)
  simp only [hrun, hg, hstored, hloaded, hmore, hhold, hread, hwords, State.freshId_queueAt]
  simp [hentry]

theorem exec_graphStart_accepts (hall : g.nnodes ≤ g.nodes.length) (hgood : g.firstBad = none) :
    exec (.graphStart c q) s =
      .next (s.setQueue c.toNat q.toNat { s.queueAt c.toNat q.toNat with graph := some { g with loaded := true } }) := by
  refine congrArg Host.Outcome.next ((if_neg (not_not_intro hact)).trans ?_)
  simp only [hrun, hg, hstored, hloaded, Nat.not_lt.2 hall, hgood]
  simp [hentry]

theorem exec_graphStart_refuses (hall : g.nnodes ≤ g.nodes.length) {i : Nat} (hbad : g.firstBad = some i) :
    exec (.graphStart c q) s = .next (s.failNode c.toNat q.toNat i 0x117) := by
  refine congrArg Host.Outcome.next ((if_neg (not_not_intro hact)).trans ?_)
  simp only [hrun, hg, hstored, hloaded, Nat.not_lt.2 hall, hbad]
  simp [hentry]

end

/-! #### The end of a graph that failed (R203) -/

section
variable {c : BitVec 4} {q : BitVec 6} {s : State}

theorem exec_graphHaltComplete_of_halting (hhalt : (s.queueAt c.toNat q.toNat).stat = .halting)
    (hover : ∀ g, (s.queueAt c.toNat q.toNat).graph = some g → ∀ n ∈ g.nodes, n.stat = .idle ∨ n.stat = .done) :
    exec (.graphHaltComplete c q) s = .next (s.setQueue c.toNat q.toNat { s.queueAt c.toNat q.toNat with
      stat := if (s.queueAt c.toNat q.toNat).off then .disabled else .halted, off := false, graph := none }) := by
  refine congrArg Host.Outcome.next (if_pos ⟨hhalt, ?_⟩)
  split
  · next g hg =>
    refine List.any_eq_false.2 fun n hn => ?_
    obtain h | h := hover g hg n hn <;> simp [h]
  · rfl

theorem exec_graphHaltComplete_of_not_halting (h : (s.queueAt c.toNat q.toNat).stat ≠ .halting) :
    exec (.graphHaltComplete c q) s = .next s :=
  congrArg Host.Outcome.next (if_neg fun hb => h hb.1)

end

/-! #### The statement -/

theorem Completes.of_eq {j : Instr} {s t : State} {P : State → Prop} (h : exec j s = .next t) (hP : P t) : Completes j s P := ⟨t, h, hP⟩

/-- Settles O38, command by command: what each meaning answers in the states that its clause names. -/
theorem queueCommandsMoveQueues : Obligations.QueueCommandsMoveQueues := by
  intro s c q v g ls i run x st reset admits becomes bad size go stays u va entry s1 later halts
  have hboot (h : reset) : s.badCmd c.toNat q.toNat = s := State.badCmd_of_bootfail h _ _
  have hbad {j : Instr} (h : exec j s = .next (s.badCmd c.toNat q.toNat)) : bad j := fun hup =>
    .of_eq h (State.badCmd_of_up hup _ _)
  have hbadRetry (h : ¬ reset) : s.freshId.2.badCmd c.toNat q.toNat = s1.setQueue c.toNat q.toNat { x with badcmd := true } :=
    State.badCmd_of_up (s := s.freshId.2) h _ _
  refine ⟨hbad rfl, fun hreset => ⟨?_, ?_⟩, fun herr => ⟨?_, ?_, ?_, ?_⟩, fun hadm hst hx h1 h2 => ?_, fun h => ?_, fun hadm hx => ?_,
    fun hadm hx => ?_, fun hadm hx => ?_, fun h => ?_, fun hadm hst hx => ⟨?_, ?_⟩, fun hup h => ⟨?_, ?_⟩, fun hup hx => ⟨?_, ?_⟩,
    fun hx b => ?_, fun hup h => ?_, fun h1 h2 h => ?_, fun h1 h2 h3 h4 hup => ?_, fun h => ?_, fun hgo hx hg h => ?_, fun hgo hx hg h => ?_,
    fun hgo hx hg hlen ho => ?_, fun hgo hx hg hentry hstored => ⟨fun hnext hroom => ?_, fun h => ?_⟩,
    fun hgo hx hg hentry hstored hloaded => ⟨fun hmore hhold hlen ho => ?_, fun hall => ⟨fun hgood => ?_, fun hbad => ?_⟩⟩,
    fun hx hover => ?_, fun hx => ?_⟩
  -- A module in BOOTFAIL.
  · intro j hj
    simp only [List.mem_cons, List.not_mem_nil, or_false] at hj
    obtain rfl | rfl | rfl | rfl | rfl | rfl | rfl := hj
    · exact .of_eq rfl (hboot hreset)
    · exact .of_eq (exec_queueEnable c q s) ((State.queueCmd_of_refused (.inl hreset) _).trans (hboot hreset))
    · exact .of_eq (exec_queueDisable_of_refused (.inl hreset)) (hboot hreset)
    · exact .of_eq (exec_queueSkip c q s) ((State.queueCmd_of_refused (.inl hreset) _).trans (hboot hreset))
    · exact .of_eq (exec_queueConfigWrite_of_refused (.inl hreset) true v) (hboot hreset)
    · exact .of_eq (exec_queueConfigWrite_of_refused (.inl hreset) false v) (hboot hreset)
    · exact .of_eq (exec_doorbell v) (if_pos hreset)
  · exact .of_eq (exec_queueRetry c q s)
      ((State.queueCmd_of_refused (s := s.freshId.2) (.inl hreset) _).trans (State.badCmd_of_bootfail (s := s.freshId.2) hreset _ _))
  -- A module in ERROR.
  · exact hbad ((exec_queueEnable c q s).trans (congrArg _ (State.queueCmd_of_refused (.inr (.inl herr)) _)))
  · exact hbad (exec_queueDisable_of_refused (.inr (.inl herr)))
  · exact hbad ((exec_queueSkip c q s).trans (congrArg _ (State.queueCmd_of_refused (.inr (.inl herr)) _)))
  · exact .of_eq (exec_queueRetry c q s) ((State.queueCmd_of_refused (s := s.freshId.2) (.inr (.inl herr)) _).trans
      (hbadRetry fun hreset => by rw [show s.modstat.phase = 1 from hreset] at herr; exact absurd herr (by decide)))
  -- QUEUE_ENABLE.
  · have hok : (x.stat == .disabled && 1 ≤ x.cfg.f 3 0 && x.cfg.f 3 0 ≤ 12) = true := by simp [hx, h1, h2]
    exact .of_eq (exec_queueEnable c q s) (State.queueCmd_of_ok hadm hst hok _)
  · refine hbad ((exec_queueEnable c q s).trans (congrArg _ (State.queueCmd_of_refused (.inr (.inr (h.imp_right fun h => ?_))) _)))
    show (x.stat == .disabled && 1 ≤ x.cfg.f 3 0 && x.cfg.f 3 0 ≤ 12) = false
    grind
  -- QUEUE_DISABLE.
  · exact .of_eq (exec_queueDisable_of_halted hadm hx) rfl
  · exact .of_eq (exec_queueDisable_of_running hadm hx) rfl
  · exact .of_eq (exec_queueDisable_of_idle hadm hx)
      ⟨State.setQueue_queueAt .., State.setQueue_tasks .., State.keeps_of_mem (State.setQueue_mem ..)⟩
  · exact hbad (exec_queueDisable_of_refused (.inr (.inr h)))
  -- QUEUE_RETRY and QUEUE_SKIP.
  · exact .of_eq (exec_queueRetry c q s)
      (State.queueCmd_of_ok (s := s.freshId.2) (ok := fun x => x.stat == .halted) hadm hst (beq_iff_eq.2 hx) _)
  · exact .of_eq (exec_queueSkip c q s) (State.queueCmd_of_ok (ok := fun x => x.stat == .halted) hadm hst (beq_iff_eq.2 hx) _)
  · exact .of_eq (exec_queueRetry c q s) ((State.queueCmd_of_refused (s := s.freshId.2) (ok := fun x => x.stat == .halted)
      (.inr (.inr (h.imp_right beq_eq_false_iff_ne.2))) _).trans (hbadRetry hup))
  · exact hbad ((exec_queueSkip c q s).trans
      (congrArg _ (State.queueCmd_of_refused (ok := fun x => x.stat == .halted) (.inr (.inr (h.imp_right beq_eq_false_iff_ne.2))) _)))
  -- QUEUE_CONFIG_WRITE.
  · exact .of_eq (exec_queueConfigWrite_of_disabled hup hx true v) rfl
  · exact .of_eq (exec_queueConfigWrite_of_disabled hup hx false v) rfl
  · exact hbad (exec_queueConfigWrite_of_refused (.inr hx) b v)
  -- DOORBELL.
  · exact .of_eq (exec_doorbell v) ((if_neg hup).trans (if_pos h))
  · have hin : ¬ (v.f 63 12 ≠ 0 ∨ size ≤ v.f 11 0) := by omega
    exact .of_eq (exec_doorbell v) (ite_eq_left_iff.2 fun _ => (if_neg hin).trans (if_pos h))
  · have hin : ¬ (v.f 63 12 ≠ 0 ∨ size ≤ v.f 11 0) := by omega
    exact .of_eq (exec_doorbell v) ((if_neg hup).trans ((if_neg hin).trans (if_neg (not_or_intro h3 h4))))
  -- GRAPH_START.
  · obtain h | h := h
    · exact .of_eq (exec_graphStart_of_inactive h) rfl
    · exact .of_eq (exec_graphStart_of_not_started h) rfl
  · exact .of_eq (exec_graphStart_of_none hgo hx hg) (if_pos h)
  · exact .of_eq (exec_graphStart_of_none hgo hx hg) (if_neg h)
  · exact .of_eq (exec_graphStart_reads_entry hgo hg hx rfl rfl hlen ho) rfl
  · exact .of_eq (exec_graphStart_takes_places hgo hg hx hentry hstored) (if_pos ⟨hnext, hroom⟩)
  · exact .of_eq (exec_graphStart_takes_places hgo hg hx hentry hstored)
      (if_neg fun hboth => h.elim (fun h => h hboth.1) fun h => Nat.not_le.2 h hboth.2)
  · refine .of_eq (exec_graphStart_reads_node hgo hg hx hentry hstored hloaded hmore hhold hlen ho) ?_
    rw [← hhold]
    rfl
  · exact .of_eq (exec_graphStart_accepts hgo hg hx hentry hstored hloaded hall hgood) rfl
  · obtain ⟨hstat, hfirst, hhead, hkeeps⟩ := s.failNode_halts c.toNat q.toNat i 0x117
    obtain ⟨hcause, hnode⟩ := hfirst hx
    exact .of_eq (exec_graphStart_refuses hgo hg hx hentry hstored hloaded hall hbad) ⟨hstat, hcause, hnode, hhead, hkeeps⟩
  -- GRAPH_HALT_COMPLETE.
  · exact .of_eq (exec_graphHaltComplete_of_halting hx hover) rfl
  · exact .of_eq (exec_graphHaltComplete_of_not_halting hx) rfl

end Sys2Proof.Machine
end

section
/-! ### The nodes of a graph: what one replaced, started or read is (R204 to R213) -/

namespace Sys2Proof.Machine

/-! #### A node replaced -/

/-- Node j of the graph of a queue; none where the queue has no graph or the graph no such node. -/
def State.nodeAt (s : State) (c q j : Nat) : Option GNode := (s.queueAt c q).graph.bind fun g => g.nodes[j]?

theorem State.setNode_eq (s : State) (c q i : Nat) (n : GNode) : s.setNode c q i n = { s with
    queues := s.queues.put (queueKey c q) { s.queueAt c q with
      graph := (s.queueAt c q).graph.map fun g => { g with nodes := g.nodes.set i n } } } :=
  if_pos (.inl rfl)

@[simp] theorem State.setNode_queueAt (s : State) (c q i : Nat) (n : GNode) : (s.setNode c q i n).queueAt c q = { s.queueAt c q with
    graph := (s.queueAt c q).graph.map fun g => { g with nodes := g.nodes.set i n } } := State.setQueue_queueAt ..

@[simp] theorem State.setNode_part (s : State) (c q i : Nat) (n : GNode) : (s.setNode c q i n).part = s.part := by
  rw [State.setNode_eq]
@[simp] theorem State.setNode_ctxs (s : State) (c q i : Nat) (n : GNode) : (s.setNode c q i n).ctxs = s.ctxs := by
  rw [State.setNode_eq]
@[simp] theorem State.setNode_kernels (s : State) (c q i : Nat) (n : GNode) : (s.setNode c q i n).kernels = s.kernels := by
  rw [State.setNode_eq]
@[simp] theorem State.setNode_nextId (s : State) (c q i : Nat) (n : GNode) : (s.setNode c q i n).nextId = s.nextId := by
  rw [State.setNode_eq]
@[simp] theorem State.setNode_cycle (s : State) (c q i : Nat) (n : GNode) : (s.setNode c q i n).cycle = s.cycle := by
  rw [State.setNode_eq]

@[simp] theorem State.setNode_schedUnit (s : State) (c q i j : Nat) (n : GNode) :
    (s.setNode c q i n).schedUnit c q j = s.schedUnit c q j := by
  unfold State.schedUnit
  rw [State.setNode_queueAt]
  cases (s.queueAt c q).graph <;> rfl

theorem State.setNode_nodeAt (s : State) (c q i j : Nat) (n : GNode) :
    (s.setNode c q i n).nodeAt c q j = if j = i then (s.nodeAt c q i).map fun _ => n else s.nodeAt c q j := by
  unfold State.nodeAt
  rw [State.setNode_queueAt]
  cases (s.queueAt c q).graph with
  | none => simp
  | some g =>
    obtain rfl | hj := eq_or_ne j i
    · simp [List.getElem?_set_self']
      rfl
    · simp [hj, List.getElem?_set_ne (Ne.symm hj)]

theorem State.setNode_setNode (s : State) (c q i : Nat) (m n : GNode) : (s.setNode c q i m).setNode c q i n = s.setNode c q i n := by
  rw [State.setNode_eq (s.setNode c q i m), State.setNode_queueAt, State.setNode_eq s c q i m, State.setNode_eq s c q i n]
  simp [Option.map_map, Function.comp_def, List.set_set]

theorem State.setNode_freshId (s : State) (c q i : Nat) (n : GNode) : (s.setNode c q i n).freshId.2 = s.freshId.2.setNode c q i n := by
  rw [State.setNode_eq, State.setNode_eq]
  rfl

/-- The opening of an access outlasts the replacement of a node. -/
theorem State.setNode_opens {s : State} {u : UnitId} {ctx : Nat} {va : Word} {a : Acc} {ls : List Loc} (h : s.opens u ctx va a ls)
    (c q i : Nat) (n : GNode) : (s.setNode c q i n).opens u ctx va a ls := by
  rw [State.setNode_eq]
  refine State.opens_of_sameMap (s := s) ⟨?_, ?_, ?_, ?_, ?_, ?_, ?_⟩ ?_ ?_ ?_ ?_ ?_ h <;> rfl

/-! #### A node that goes on or starts (R206, R213, R214) -/

/-- Node i of the graph of a queue is n, the graph g is read and checked, it runs or its queue is HALTING, and no error of a unit waits. -/
structure State.HasNode (s : State) (c q i : Nat) (g : Graph) (n : GNode) : Prop where
  graph : (s.queueAt c q).graph = some g
  node : g.nodes[i]? = some n
  loaded : g.loaded = true
  live : (s.queueAt c q).stat = .running ∨ (s.queueAt c q).stat = .halting
  noErr : s.unitErrs = []

namespace State.HasNode

variable {s : State} {c q i : Nat} {g : Graph} {n : GNode} (h : s.HasNode c q i g n)
include h

theorem nodeAt (j : Nat) : s.nodeAt c q j = g.nodes[j]? := by
  rw [State.nodeAt, h.graph]
  rfl

theorem graph_node : g.node i = n := by
  rw [Graph.node, List.getD_eq_getElem?_getD, h.node]
  rfl

/-- What a step of a kind of node does with the node, case by case. -/
theorem nodeGo_cases (kind : Nat) (body : State → Graph → GNode → State) : s.nodeGo c q i kind body =
    if n.kind ≠ kind then s
    else if n.stat = .idle then
      if kind = 0 then
        if g.ready i && (s.queueAt c q).stat == .running && (s.ctxAt c).stat == .active then
          body (s.setNode c q i { n with stat := .busy }) g { n with stat := .busy }
        else s
      else if s.nextNode = some (queueKey c q, i) then
        body (s.startNode c q i) g ((((s.startNode c q i).queueAt c q).graph.map fun g => g.node i).getD n)
      else s
    else if n.stat = .done then s else body s g n := by
  have hlive : (n.kind ≠ kind ∨ g.loaded = false ∨ ((s.queueAt c q).stat ≠ .running ∧ (s.queueAt c q).stat ≠ .halting)) ↔
      n.kind ≠ kind := by
    have := h.live
    have := h.loaded
    grind
  have herr : s.takeErr (s.schedUnit c q i) = (s, none) := by simp [State.takeErr, h.noErr]
  rw [State.nodeGo]
  dsimp only
  rw [h.graph]
  dsimp only
  rw [h.node]
  dsimp only
  rw [herr]
  exact if_congr hlive rfl rfl

/-- A node that has started goes on. -/
theorem nodeGo_of_started (hidle : n.stat ≠ .idle) (hdone : n.stat ≠ .done) (body : State → Graph → GNode → State) :
    s.nodeGo c q i n.kind body = body s g n := by
  rw [h.nodeGo_cases, if_neg (not_not_intro rfl), if_neg hidle, if_neg hdone]

/-- A kernel node that is ready begins to read its record (R208, log 48). -/
theorem nodeGo_of_ready (hk : n.kind = 0) (hidle : n.stat = .idle) (hready : g.ready i = true) (hrun : (s.queueAt c q).stat = .running)
    (hact : (s.ctxAt c).stat = .active) (body : State → Graph → GNode → State) :
    s.nodeGo c q i 0 body = body (s.setNode c q i { n with stat := .busy }) g { n with stat := .busy } := by
  rw [h.nodeGo_cases, if_neg (not_not_intro hk), if_pos hidle, if_pos rfl, if_pos (by simp [hready, hrun, hact])]

/-- A node that has not started and is not the one chosen does not start, unless it is a kernel node that is ready. -/
theorem nodeGo_of_unchosen (hidle : n.stat = .idle) (hnext : s.nextNode ≠ some (queueKey c q, i))
    (hwait : n.kind ≠ 0 ∨ g.ready i = false ∨ ¬ ((s.queueAt c q).stat = .running ∧ (s.ctxAt c).stat = .active)) (kind : Nat)
    (body : State → Graph → GNode → State) : s.nodeGo c q i kind body = s := by
  obtain hk | rfl := ne_or_eq n.kind kind
  · rw [h.nodeGo_cases, if_pos hk]
  rw [h.nodeGo_cases, if_neg (not_not_intro rfl), if_pos hidle]
  by_cases hk : n.kind = 0
  · rw [if_pos hk]
    refine if_neg fun hgo => ?_
    simp only [Bool.and_eq_true, beq_iff_eq] at hgo
    obtain ⟨⟨hready, hrun⟩, hact⟩ := hgo
    obtain hw | hw | hw := hwait
    · exact hw hk
    · exact absurd hready (hw ▸ Bool.false_ne_true)
    · exact hw ⟨hrun, hact⟩
  · rw [if_neg hk, if_neg hnext]

end State.HasNode

/-! #### A node's read (R207) -/

theorem wAt_wordsAt_zero (s : State) {ls : List Loc} (hlen : ls.length = 8) (k : Nat) :
    wAt (s.wordsAt ls (k + 1)) 0 = .ofNat 64 (s.bytesAt ls) := by
  simp [wAt, State.wordsAt, List.range_succ_eq_map, List.take_of_length_le (Nat.le_of_eq hlen)]

/-- A node's read that nothing delays is over at once. -/
theorem State.nodeRead_of_opens {s : State} {c q i : Nat} {n : GNode} {va : Word} {ls : List Loc} (hhold : n.hold = none)
    (ho : s.opens (s.schedUnit c q i) c va .read ls) (k : State → GNode → List Word → State) :
    s.nodeRead c q i n va ls.length k = k s.freshId.2 { n with hold := none } (s.wordsAt ls (ls.length / 8)) := by
  rw [State.nodeRead, hhold, State.unitAccess_raw_of_opens ho]
  dsimp only
  rw [if_neg (by simp), readWords_bytes]

/-- A node's read of the word it tests. -/
theorem State.nodeRead_word_of_opens {s : State} {c q i : Nat} {n : GNode} {va : Word} {ls : List Loc} (hhold : n.hold = none)
    (hlen : ls.length = 8) (ho : s.opens (s.schedUnit c q i) c va .read ls) (k : State → GNode → Word → State) :
    (s.nodeRead c q i n va 8 fun s n w => k s n (wAt w 0)) = k s.freshId.2 { n with hold := none } (.ofNat 64 (s.bytesAt ls)) := by
  have hread := State.nodeRead_of_opens hhold ho fun s n w => k s n (wAt w 0)
  rw [hlen, wAt_wordsAt_zero s hlen 0] at hread
  exact hread

/-- The word w meets the test of a node (R204). -/
def GNode.Meets (n : GNode) (w : Word) : Prop :=
  match n.opc.f 2 0 with
  | 0 => w = n.opb
  | 1 => w ≠ n.opb
  | 2 => n.opb.toNat ≤ w.toNat
  | _ => w.toNat < n.opb.toNat

theorem GNode.test_iff (n : GNode) (w : Word) : n.test w = true ↔ n.Meets w := by
  unfold GNode.test GNode.Meets
  generalize n.opc.f 2 0 = test
  match test with
  | 0 | 1 | 2 | _ + 3 => simp

/-! #### The nodes of a range marked (R211, R212) -/

/-- From s to t node i of graph g has become m and the nodes after it up to `last` what f makes of them; no other node and no byte of
memory changes. -/
def State.Marks (s t : State) (c q i last : Nat) (g : Graph) (m : GNode) (f : GNode → GNode) : Prop :=
  t.nodeAt c q i = some m ∧ s.keeps t ∧ (∀ k, i < k ∧ k ≤ last → k < g.nodes.length → t.nodeAt c q k = g.nodes[k]?.map f) ∧
    ∀ k, ¬ (i < k ∧ k ≤ last) → k ≠ i → t.nodeAt c q k = g.nodes[k]?

/-- A node of a range as it is marked: complete, or as new for a pass. -/
def GNode.marked (done : Bool) (m : GNode) : GNode := if done then { m with stat := .done } else .new m.words

theorem GNode.marked_marked (done : Bool) (m : GNode) : (m.marked done).marked done = m.marked done := by cases done <;> rfl

/-- One node of a range marked. -/
def State.markAt (s : State) (c q j : Nat) (done : Bool) : State :=
  match (s.queueAt c q).graph with
  | some g => s.setNode c q j ((g.node j).marked done)
  | none => s

theorem State.markRange_eq (s : State) (c q i : Nat) (n : GNode) (done : Bool) :
    s.markRange c q i n done = (n.range i).foldl (fun s j => s.markAt c q j done) s := rfl

theorem State.markAt_nodeAt (s : State) (c q j k : Nat) (done : Bool) :
    (s.markAt c q j done).nodeAt c q k = if k = j then (s.nodeAt c q k).map (GNode.marked done) else s.nodeAt c q k := by
  unfold State.markAt
  split
  · next g hg =>
    rw [State.setNode_nodeAt]
    obtain rfl | hk := eq_or_ne k j
    · rw [if_pos rfl, if_pos rfl]
      simp only [State.nodeAt, hg, Option.bind_some, Graph.node, List.getD_eq_getElem?_getD]
      cases g.nodes[k]? <;> rfl
    · rw [if_neg hk, if_neg hk]
  · next hg => simp [State.nodeAt, hg]

theorem State.markAt_limit (s : State) (c q j : Nat) (done : Bool) :
    ((s.markAt c q j done).queueAt c q).limit = (s.queueAt c q).limit := by
  unfold State.markAt
  split
  · rw [State.setNode_queueAt]
  · rfl

theorem State.foldl_markAt_nodeAt (c q k : Nat) (done : Bool) (js : List Nat) (s : State) :
    (js.foldl (fun s j => s.markAt c q j done) s).nodeAt c q k =
      if k ∈ js then (s.nodeAt c q k).map (GNode.marked done) else s.nodeAt c q k := by
  induction js generalizing s with
  | nil => rfl
  | cons j js ih =>
    rw [List.foldl_cons, ih, State.markAt_nodeAt]
    by_cases hk : k = j
    · simp [hk, Option.map_map, Function.comp_def, GNode.marked_marked]
    · simp [hk]

theorem GNode.mem_range {n : GNode} {i k : Nat} : k ∈ n.range i ↔ i < k ∧ k ≤ n.last := by
  rw [GNode.range, upFrom_eq, List.mem_map]
  constructor
  · rintro ⟨a, ha, rfl⟩
    have := List.mem_range.1 ha
    omega
  · rintro ⟨h1, h2⟩
    exact ⟨k - (i + 1), List.mem_range.2 (by omega), by omega⟩

theorem State.markRange_nodeAt (s : State) (c q i k : Nat) (n : GNode) (done : Bool) : (s.markRange c q i n done).nodeAt c q k =
    if i < k ∧ k ≤ n.last then (s.nodeAt c q k).map (GNode.marked done) else s.nodeAt c q k := by
  simp only [State.markRange_eq, State.foldl_markAt_nodeAt, GNode.mem_range]

theorem State.markRange_limit (s : State) (c q i : Nat) (n : GNode) (done : Bool) :
    ((s.markRange c q i n done).queueAt c q).limit = (s.queueAt c q).limit :=
  List.foldlRecOn (motive := fun t : State => (t.queueAt c q).limit = (s.queueAt c q).limit) (n.range i) _ rfl
    fun t ht j _ => (State.markAt_limit t c q j done).trans ht

section
variable {s u : State} {c q i : Nat} {g : Graph} {n : GNode} (hn : g.nodes[i]? = some n) (hu : ∀ j, u.nodeAt c q j = g.nodes[j]?)
  (hmem : u.mem = s.mem)
include hn hu hmem

/-- A node replaced alone marks no other. -/
theorem State.setNode_marks (last : Nat) (m : GNode) : s.Marks (u.setNode c q i m) c q i last g m fun m => m := by
  refine ⟨by simp [State.setNode_nodeAt, hu, hn], State.keeps_of_mem (by simp [hmem]), fun k hk _ => ?_, fun k _ hk => ?_⟩
  · rw [State.setNode_nodeAt, if_neg (by omega), hu, Option.map_id']
  · rw [State.setNode_nodeAt, if_neg hk, hu]

/-- The range of a node marked and the node replaced. -/
theorem State.markRange_marks (n' : GNode) (done : Bool) (m : GNode) :
    s.Marks ((u.markRange c q i n' done).setNode c q i m) c q i n'.last g m (GNode.marked done) := by
  refine ⟨?_, State.keeps_of_mem (by simp [hmem]), fun k hk _ => ?_, fun k hk hne => ?_⟩
  · rw [State.setNode_nodeAt, if_pos rfl, State.markRange_nodeAt, if_neg (by omega), hu, hn]
    rfl
  · rw [State.setNode_nodeAt, if_neg (by omega), State.markRange_nodeAt, if_pos hk, hu]
  · rw [State.setNode_nodeAt, if_neg hne, State.markRange_nodeAt, if_neg hk, hu]

end

/-- Every node of the range of node i that the graph has is complete. -/
def Graph.Closed (g : Graph) (i last : Nat) : Prop :=
  ∀ k, i < k ∧ k ≤ last → k < g.nodes.length → ∃ m : GNode, g.nodes[k]? = some m ∧ m.stat = .done

theorem Graph.Closed.rangeDone {g : Graph} {i : Nat} {n : GNode} (h : g.Closed i n.last) (hlast : n.last < g.nodes.length) :
    g.rangeDone i n = true := by
  refine List.all_eq_true.2 fun k hk => ?_
  have hk := GNode.mem_range.1 hk
  obtain ⟨m, hm, hdone⟩ := h k hk (by omega)
  rw [Graph.node, List.getD_eq_getElem?_getD, hm]
  exact beq_iff_eq.2 hdone

/-- Completing the nodes of a range that are complete changes none. -/
theorem State.Marks.of_closed {s t : State} {c q i last : Nat} {g : Graph} {m : GNode} (h : s.Marks t c q i last g m (GNode.marked true))
    (hc : g.Closed i last) : s.Marks t c q i last g m fun m => m := by
  obtain ⟨hm, hkeeps, hin, hout⟩ := h
  refine ⟨hm, hkeeps, fun k hk hlt => ?_, hout⟩
  obtain ⟨x, hx, hdone⟩ := hc k hk hlt
  rw [hin k hk hlt, hx, Option.map_some, Option.map_some, GNode.marked, if_pos rfl, ← hdone]

end Sys2Proof.Machine
end

section
/-! ### The nodes of a graph, kind by kind (R206 to R214) -/

namespace Sys2Proof.Machine

/-- A failure in a state whose queue and memory are still those of s fails the graph as it stands in s. -/
theorem State.Halts.of_same {s u t : State} {c q cause i : Nat} (h : u.Halts t c q cause i)
    (hstat : (u.queueAt c q).stat = (s.queueAt c q).stat) (hhead : (u.queueAt c q).head = (s.queueAt c q).head) (hmem : u.mem = s.mem) :
    s.Halts t c q cause i := by
  obtain ⟨hhalt, hfirst, hkept, hkeeps⟩ := h
  exact ⟨hhalt, fun hrun => hfirst (hstat.trans hrun), hkept.trans hhead, fun l => (hkeeps l).trans (by rw [hmem])⟩

theorem transferCut_le (src dst rest : Nat) : (transferCut src dst rest).1 ≤ (transferCut src dst rest).2 :=
  Nat.le_min.2 ⟨Nat.min_le_left .., Nat.le_add_right ..⟩

theorem State.stores.of_same {s t u : State} {ls : List Loc} {bs : List Byte} (h : s.stores u ls bs) (hrd : ∀ l, t.mem.rd l = u.mem.rd l) :
    s.stores t ls bs := by
  obtain ⟨hin, hout⟩ := h
  exact ⟨(List.map_congr_left fun l _ => hrd l).trans hin, fun l hl => (hrd l).trans (hout l hl)⟩

/-! #### Kernel nodes (R208) -/

theorem Graph.mapNodes_nodes (g : Graph) (f : Nat → GNode → GNode) (i : Nat) : (g.mapNodes f).nodes[i]? = g.nodes[i]?.map (f i) := by
  simp only [Graph.mapNodes, upFrom_eq, Nat.zero_add, List.map_id', List.getElem?_map]
  obtain hi | hi := Nat.lt_or_ge i g.nodes.length
  · simp [List.zip, hi]
  · simp [List.zip, hi]

/-- A node that starts is still a node of its graph. -/
theorem State.startNode_nodeAt_isSome {s : State} {c q i : Nat} {g : Graph} {n : GNode} (h : s.HasNode c q i g n) :
    ((s.startNode c q i).nodeAt c q i).isSome = true := by
  unfold State.startNode
  extract_lets rs pass u
  have hu : u.queueAt c q = { s.queueAt c q with graph := (s.queueAt c q).graph.map fun g => g.mapNodes (pass (queueKey c q)) } :=
    Tab.get_mapVal HostQueue.zero s.queues (queueKey c q)
      (f := fun k x => { x with graph := x.graph.map fun g => g.mapNodes (pass k) }) rfl
  rw [h.graph, Option.map_some] at hu
  rw [hu]
  dsimp only
  rw [State.setNode_nodeAt, if_pos rfl, Option.isSome_map, State.nodeAt, hu]
  dsimp only [Option.bind_some]
  rw [Graph.mapNodes_nodes, h.node]
  rfl

@[simp] theorem State.startNode_nextId (s : State) (c q i : Nat) : (s.startNode c q i).nextId = s.nextId := by
  unfold State.startNode
  dsimp only
  split
  · rw [State.setNode_nextId]
  · rfl

@[simp] theorem State.startNode_cycle (s : State) (c q i : Nat) : (s.startNode c q i).cycle = s.cycle := by
  unfold State.startNode
  dsimp only
  split
  · rw [State.setNode_cycle]
  · rfl

theorem length_geomCores (w : Word) : (geomCores w).length = 2 ^ w.f 34 32 * 2 ^ w.f 31 29 := by
  simp [geomCores, upFrom_eq, geomW, geomH, Function.comp_def, Nat.mul_comm]

theorem State.postKernel_nodeAt (s : State) (ctx c q i : Nat) (r : LaunchRec) (node : Option (Nat × Nat)) :
    (s.postKernel ctx r node).nodeAt c q i = s.nodeAt c q i := rfl

theorem State.postKernel_kernels (s : State) (ctx : Nat) (r : LaunchRec) (node : Option (Nat × Nat)) :
    (s.postKernel ctx r node).kernels = s.kernels.put s.nextId
      ⟨ctx, r, .posted, 2 ^ (r.getD 1 0).f 34 32 * 2 ^ (r.getD 1 0).f 31 29, 0, node, s.cycle.toNat + 48⟩ := by
  rw [← length_geomCores]
  rfl

/-- What a kernel node does with its record: a failed check fails the graph, else the record waits for the pool (R152, R208). -/
def State.checkNode (s : State) (c q i : Nat) (n : GNode) (r : LaunchRec) : State :=
  match checkRec s.part (s.ctxAt c) r n.opa.toNat 0 with
  | some e => s.failNode c q i e
  | none => s.setNode c q i { n with stat := .checked, rec_ := r }

theorem State.checkNode_of_some {s : State} {c q i : Nat} {n : GNode} {r : LaunchRec} {e : Nat}
    (h : checkRec s.part (s.ctxAt c) r n.opa.toNat 0 = some e) : s.checkNode c q i n r = s.failNode c q i e := by
  rw [State.checkNode, h]

theorem State.checkNode_of_none {s : State} {c q i : Nat} {n : GNode} {r : LaunchRec}
    (h : checkRec s.part (s.ctxAt c) r n.opa.toNat 0 = none) :
    s.checkNode c q i n r = s.setNode c q i { n with stat := .checked, rec_ := r } := by
  rw [State.checkNode, h]

namespace State.HasNode

variable {s : State} {c : BitVec 4} {q : BitVec 6} {i : Nat} {g : Graph} {n : GNode} (h : s.HasNode c.toNat q.toNat i g n)
include h

/-- A node that has started: one step of its kind is the meaning's body on the graph and the node. -/
theorem nodeGo_eq {kind : Nat} (hk : n.kind = kind) {st : NStat} (hst : n.stat = st) (hidle : st ≠ .idle) (hdone : st ≠ .done)
    (body : State → Graph → GNode → State) : s.nodeGo c.toNat q.toNat i kind body = body s g n :=
  hk ▸ h.nodeGo_of_started (hst ▸ hidle) (hst ▸ hdone) body

theorem nodeAt_setNode {u : State} (hu : u.queueAt c.toNat q.toNat = s.queueAt c.toNat q.toNat) (m : GNode) :
    (u.setNode c.toNat q.toNat i m).nodeAt c.toNat q.toNat i = some m := by
  have hn : u.nodeAt c.toNat q.toNat i = some n := by
    rw [State.nodeAt, hu, h.graph]
    exact h.node
  rw [State.setNode_nodeAt, if_pos rfl, hn]
  rfl

/-- A kernel node that reads its record, or begins to, checks it once it can be read at once. -/
theorem exec_kernelNode_reads (hk : n.kind = 0) (hst : n.stat = .busy ∨ n.stat = .idle ∧ g.ready i = true ∧
      (s.queueAt c.toNat q.toNat).stat = .running ∧ (s.ctxAt c.toNat).stat = .active) (hhold : n.hold = none) {ls : List Loc}
    (hlen : ls.length = 160) (ho : s.opens (s.schedUnit c.toNat q.toNat i) c.toNat n.opa .read ls) :
    ∃ u : State, (u = s ∨ u = s.setNode c.toNat q.toNat i { n with stat := .busy }) ∧ exec (.kernelNode c q i) s =
      .next (u.freshId.2.checkNode c.toNat q.toNat i { n with stat := .busy, hold := none } (s.wordsAt ls 20)) := by
  obtain hbusy | ⟨hidle, hready, hrun, hact⟩ := hst
  · refine ⟨s, .inl rfl, congrArg Host.Outcome.next ((h.nodeGo_eq hk hbusy (by decide) (by decide) _).trans ?_)⟩
    have hread := State.nodeRead_of_opens hhold ho fun s n r => s.checkNode c.toNat q.toNat i n r
    rw [hlen, hbusy] at hread
    simp only [hbusy]
    exact hread
  · refine ⟨_, .inr rfl, congrArg Host.Outcome.next ((h.nodeGo_of_ready hk hidle hready hrun hact _).trans ?_)⟩
    have hread := State.nodeRead_of_opens (s := s.setNode c.toNat q.toNat i { n with stat := .busy }) (n := { n with stat := .busy }) hhold
      (by rw [State.setNode_schedUnit]; exact State.setNode_opens ho _ _ _ _) fun s n r => s.checkNode c.toNat q.toNat i n r
    have hwords : (s.setNode c.toNat q.toNat i { n with stat := .busy }).wordsAt ls 20 = s.wordsAt ls 20 := by
      simp [State.wordsAt, State.bytesAt]
    rw [hlen, hwords] at hread
    exact hread

/-- A record that a check refuses fails the graph; one that none refuses waits for the pool (R152, R208). -/
theorem kernelNode_checks (hk : n.kind = 0) (hst : n.stat = .busy ∨ n.stat = .idle ∧ g.ready i = true ∧
      (s.queueAt c.toNat q.toNat).stat = .running ∧ (s.ctxAt c.toNat).stat = .active) (hhold : n.hold = none) {ls : List Loc}
    (hlen : ls.length = 160) (ho : s.opens (s.schedUnit c.toNat q.toNat i) c.toNat n.opa .read ls) :
    (∀ e, checkRec s.part (s.ctxAt c.toNat) (s.wordsAt ls 20) n.opa.toNat 0 = some e →
      Completes (.kernelNode c q i) s fun t => s.Halts t c.toNat q.toNat e i) ∧
    (checkRec s.part (s.ctxAt c.toNat) (s.wordsAt ls 20) n.opa.toNat 0 = none → Completes (.kernelNode c q i) s fun t =>
      t = s.freshId.2.setNode c.toNat q.toNat i { n with hold := none, stat := .checked, rec_ := s.wordsAt ls 20 }) := by
  obtain ⟨u, hu, hexec⟩ := h.exec_kernelNode_reads hk hst hhold hlen ho
  have hcheck : checkRec u.freshId.2.part (u.freshId.2.ctxAt c.toNat) = checkRec s.part (s.ctxAt c.toNat) := by
    obtain rfl | rfl := hu <;> simp [State.freshId, State.ctxAt]
  have hcheck' (r : Option Nat) (hr : checkRec s.part (s.ctxAt c.toNat) (s.wordsAt ls 20) n.opa.toNat 0 = r) :
      checkRec u.freshId.2.part (u.freshId.2.ctxAt c.toNat) (s.wordsAt ls 20)
        ({ n with stat := .busy, hold := none } : GNode).opa.toNat 0 = r := hcheck ▸ hr
  refine ⟨fun e he => .of_eq hexec ?_, fun hnone => .of_eq hexec ?_⟩
  · rw [State.checkNode_of_some (hcheck' _ he)]
    refine (State.failNode_halts ..).of_same ?_ ?_ ?_ <;> obtain rfl | rfl := hu <;> simp
  · rw [State.checkNode_of_none (hcheck' _ hnone)]
    obtain rfl | rfl := hu
    · rfl
    · rw [State.setNode_freshId]
      exact State.setNode_setNode ..

/-- A kernel node whose record is checked takes an entry of the pool when it is the one chosen (R158, R213). -/
theorem kernelNodeAdmit_posts (hk : n.kind = 0) (hst : n.stat = .checked) (hnext : s.nextNode = some (queueKey c.toNat q.toNat, i)) :
    Completes (.kernelNodeAdmit c q i) s fun t =>
      t.nodeAt c.toNat q.toNat i = some { n with stat := .posted, kernel := some s.nextId } ∧
      t.kernels.get? s.nextId = some ⟨c.toNat, n.rec_, .posted, 2 ^ (n.rec_.getD 1 0).f 34 32 * 2 ^ (n.rec_.getD 1 0).f 31 29, 0,
        some (queueKey c.toNat q.toNat, i), s.cycle.toNat + 48⟩ ∧ s.keeps t := by
  refine .of_eq (congrArg Host.Outcome.next ((h.nodeGo_eq hk hst (by decide) (by decide) _).trans (if_pos ⟨hst, hnext⟩))) ⟨?_, ?_, ?_⟩
  · obtain ⟨m, hm⟩ := Option.isSome_iff_exists.1 (State.startNode_nodeAt_isSome h)
    rw [State.setNode_nodeAt, if_pos rfl, State.postKernel_nodeAt, hm]
    rfl
  · rw [State.setNode_kernels, State.postKernel_kernels, State.startNode_nextId, State.startNode_cycle, Tab.get?_put_self]
  · refine State.keeps_of_mem ((State.setNode_mem ..).trans ?_)
    exact State.startNode_mem ..

theorem kernelNodeAdmit_waits (hk : n.kind = 0) (hst : n.stat = .checked) (hnext : s.nextNode ≠ some (queueKey c.toNat q.toNat, i)) :
    Completes (.kernelNodeAdmit c q i) s fun t => t = s :=
  .of_eq (congrArg Host.Outcome.next ((h.nodeGo_eq hk hst (by decide) (by decide) _).trans (if_neg fun hb => hnext hb.2))) rfl

/-- A kernel node is complete when its kernel has retired. -/
theorem kernelNode_completes (hk : n.kind = 0) (hst : n.stat = .posted) {id : Nat} (hid : n.kernel = some id) {kn : Kernel}
    (hkn : s.kernels.get? id = some kn) (hret : kn.stat = .retired) : Completes (.kernelNode c q i) s fun t =>
      t.nodeAt c.toNat q.toNat i = some { n with stat := .done, hold := none } ∧ t.kernels = s.kernels.del id ∧ s.keeps t := by
  refine ⟨({ s with kernels := s.kernels.del id } : State).nodeDone c.toNat q.toNat i n,
    congrArg Host.Outcome.next ((h.nodeGo_eq hk hst (by decide) (by decide) _).trans ?_), ?_, ?_, ?_⟩
  · simp only [hst, hid, hkn, hret, if_true]
  · exact h.nodeAt_setNode (by rfl) _
  · exact State.setNode_kernels ..
  · exact State.keeps_of_mem (by simp)

/-! #### Copy and signal nodes (R207, R209) -/

section
variable (hst : n.stat = .busy)
include hst

/-- A copy node that has not read as far as its next write reads on. -/
theorem copyNode_reads (hk : n.kind = 1) (hmoved : n.moved < n.opc.toNat) (hhold : n.hold = none)
    (hbuf : n.buf.length < (transferCut (n.opa + .ofNat 64 n.moved).toNat (n.opb + .ofNat 64 n.moved).toNat (n.opc.toNat - n.moved)).2)
    {ls : List Loc} (hlen : ls.length = Nat.min
      ((transferCut (n.opa + .ofNat 64 n.moved).toNat (n.opb + .ofNat 64 n.moved).toNat (n.opc.toNat - n.moved)).2 - n.buf.length)
      (256 - (n.opa + .ofNat 64 n.moved + .ofNat 64 n.buf.length).toNat % 256))
    (ho : s.opens (s.schedUnit c.toNat q.toNat i) c.toNat (n.opa + .ofNat 64 n.moved + .ofNat 64 n.buf.length) .read ls) :
    Completes (.copyNode c q i) s fun t =>
      t = s.freshId.2.setNode c.toNat q.toNat i { n with buf := n.buf ++ ls.map fun l => (s.mem.rd l, false) } := by
  refine .of_eq (congrArg Host.Outcome.next (h.nodeGo_eq hk hst (by decide) (by decide) _)) ?_
  dsimp only
  rw [if_neg (not_not_intro hst), if_neg (Nat.not_le.2 hmoved), if_pos hbuf, hhold, ← hlen, State.unitAccess_raw_of_opens ho]

/-- A copy node that has read as far as its next write writes. -/
theorem copyNode_writes (hk : n.kind = 1) (hmoved : n.moved < n.opc.toNat)
    (hbuf : (transferCut (n.opa + .ofNat 64 n.moved).toNat (n.opb + .ofNat 64 n.moved).toNat (n.opc.toNat - n.moved)).2 ≤ n.buf.length)
    {ld : List Loc}
    (hlen : ld.length = (transferCut (n.opa + .ofNat 64 n.moved).toNat (n.opb + .ofNat 64 n.moved).toNat (n.opc.toNat - n.moved)).1)
    (ho : s.opens (s.schedUnit c.toNat q.toNat i) c.toNat (n.opb + .ofNat 64 n.moved) .write ld) :
    Completes (.copyNode c q i) s fun t => s.stores t ld ((n.buf.take ld.length).map (·.1)) ∧
      t.nodeAt c.toNat q.toNat i = some { n with
        buf := n.buf.drop ld.length
        moved := n.moved + ld.length
        stat := if n.opc.toNat ≤ n.moved + ld.length then .moved else .busy } := by
  have hbs : ld.length = ((n.buf.take ld.length).map (·.1)).length := by
    have := transferCut_le (n.opa + .ofNat 64 n.moved).toNat (n.opb + .ofNat 64 n.moved).toNat (n.opc.toNat - n.moved)
    rw [List.length_map, List.length_take, Nat.min_eq_left (by omega)]
  obtain ⟨m, hm, hstores⟩ := State.writeVA_of_opens ho hbs false false
  have hfree (k : Nat) (ls : List ByteLook) : ((s.older (s.schedUnit c.toNat q.toNat i) k).stuck ||
      s.noRoom (s.schedUnit c.toNat q.toNat i) c.toNat (n.opb + .ofNat 64 n.moved) false k ls) = false := by
    simp [State.older_of_opens ho, State.noRoom, State.sideOf_of_opens ho]
  refine .of_eq (congrArg Host.Outcome.next (h.nodeGo_eq hk hst (by decide) (by decide) _)) ?_
  dsimp only
  rw [if_neg (not_not_intro hst), if_neg (Nat.not_le.2 hmoved), if_neg (Nat.not_lt.2 hbuf), hfree, if_neg Bool.false_ne_true, ← hlen, hm]
  exact ⟨hstores.of_same fun l => by simp, h.nodeAt_setNode (by rfl) _⟩

/-- A signal node that stores writes its operand. -/
theorem signalNode_stores (hk : n.kind = 2) (hadd : n.opc.b 4 = false) {ls : List Loc} (hlen : ls.length = 8)
    (ho : s.opens (s.schedUnit c.toNat q.toNat i) c.toNat n.opa .write ls) : Completes (.signalNode c q i) s fun t =>
      s.stores t ls (toBytes 8 n.opb.toNat) ∧ t.nodeAt c.toNat q.toNat i = some { n with stat := .moved } := by
  obtain ⟨m, hm, hstores⟩ := State.writeVA_of_opens ho (bs := toBytes 8 n.opb.toNat) (by rw [hlen, length_toBytes]) false true
  refine .of_eq (congrArg Host.Outcome.next (h.nodeGo_eq hk hst (by decide) (by decide) _)) ?_
  dsimp only
  rw [if_neg (by simp [hst, State.older_of_opens ho, Older.clear]), if_neg (by simp [hadd]), hm]
  exact ⟨hstores.of_same fun l => by simp, h.nodeAt_setNode (by rfl) _⟩

/-- A signal node that adds adds its operand to the word. -/
theorem signalNode_adds (hk : n.kind = 2) (hhold : n.hold = none) (hadd : n.opc.b 4 = true) {ls : List Loc} (hlen : ls.length = 8)
    (ho : s.opens (s.schedUnit c.toNat q.toNat i) c.toNat n.opa .atomic ls) : Completes (.signalNode c q i) s fun t =>
      s.stores t ls (toBytes 8 ((.ofNat 64 (s.bytesAt ls) : Word) + n.opb).toNat) ∧
      t.nodeAt c.toNat q.toNat i = some { n with stat := .moved, hold := none } := by
  obtain ⟨m, bs, hm, hstores⟩ := State.unitAccess_add_of_opens ho hlen n.opb
  refine .of_eq (congrArg Host.Outcome.next (h.nodeGo_eq hk hst (by decide) (by decide) _)) ?_
  dsimp only
  rw [if_neg (by simp [hst, State.older_of_opens ho, Older.clear]), if_pos hadd, hhold, hm]
  exact ⟨hstores.of_same fun l => by simp, h.nodeAt_setNode (by rfl) _⟩

end

/-- A copy or signal node is complete when its writes are performed and acknowledged. -/
theorem copyNodeComplete_completes (hk : n.kind = 1 ∨ n.kind = 2) (hst : n.stat = .moved)
    (hside : s.sideOf (s.schedUnit c.toNat q.toNat i) = []) (hsrc : ∀ p ∈ s.e2eSrc, p.2.unacked = [] ∧ p.2.waiting = []) :
    Completes (.copyNodeComplete c q i) s fun t => t = s.setNode c.toNat q.toNat i { n with stat := .done, hold := none } := by
  have hquiet : s.unitQuiet (s.schedUnit c.toNat q.toNat i) = true := by
    have hacked : (s.e2eSrc.any fun p => (p.2.unacked ++ p.2.waiting).any fun x => x.unit == s.schedUnit c.toNat q.toNat i) = false :=
      List.any_eq_false.2 fun p hp => by simp [(hsrc p hp).1, (hsrc p hp).2]
    rw [State.unitQuiet, hside, hacked]
    rfl
  have hkind : n.kind = if n.kind = 1 then 1 else 2 := by split <;> omega
  refine .of_eq (congrArg Host.Outcome.next ?_) rfl
  rw [h.graph]
  dsimp only
  rw [h.graph_node, if_pos hst]
  exact (h.nodeGo_eq hkind hst (by decide) (by decide) _).trans (if_pos ⟨hst, hquiet⟩)

/-! #### Wait nodes (R210) -/

/-- A wait node reads its word first, and again a µs after a read that did not end the wait. -/
theorem waitNodeRead_reads (hk : n.kind = 3) (hst : n.stat = .busy) (hhold : n.hold = none)
    (hdue : n.firstAt = none ∨ n.readAt + 1400 ≤ s.cycle.toNat) {ls : List Loc} (hlen : ls.length = 8)
    (ho : s.opens (s.schedUnit c.toNat q.toNat i) c.toNat n.opa .read ls) :
    exec (.waitNodeRead c q i) s = .next (s.freshId.2.setNode c.toNat q.toNat i { n with
      firstAt := some (n.firstAt.getD s.cycle.toNat)
      readAt := s.cycle.toNat
      hold := none
      stat := if n.test (.ofNat 64 (s.bytesAt ls)) then .done else .busy }) := by
  refine congrArg Host.Outcome.next ((h.nodeGo_eq hk hst (by decide) (by decide) _).trans ?_)
  have hgo : ¬ (n.stat ≠ .busy ∨ (n.hold = none ∧ n.firstAt.isSome = true ∧ s.cycle.toNat < n.readAt + 1400)) := by
    rintro (hne | ⟨-, hsome, hlt⟩)
    · exact hne hst
    · obtain hnone | hle := hdue
      · simp [hnone] at hsome
      · omega
  dsimp only
  rw [if_neg hgo]
  refine (State.nodeRead_word_of_opens (n := { n with firstAt := some (n.firstAt.getD s.cycle.toNat), readAt := s.cycle.toNat }) hhold hlen
    ho fun s n w => if n.test w then s.nodeDone c.toNat q.toNat i n else s.setNode c.toNat q.toNat i n).trans ?_
  have htest : ({ n with firstAt := some (n.firstAt.getD s.cycle.toNat), readAt := s.cycle.toNat, hold := none } : GNode).test
      (.ofNat 64 (s.bytesAt ls)) = n.test (.ofNat 64 (s.bytesAt ls)) := rfl
  dsimp only
  rw [htest]
  split
  · rfl
  · rw [hst]

theorem waitNodeTimeout_fires (hk : n.kind = 3) (hst : n.stat = .busy) {f : Nat} (hf : n.firstAt = some f)
    (hrun : (s.queueAt c.toNat q.toNat).stat = .running) (hlimit : n.opc.f 63 32 ≠ 0) : exec (.waitNodeTimeout c q i) s =
      .next (if f + n.opc.f 63 32 * 1400 ≤ s.cycle.toNat then s.failNode c.toNat q.toNat i 0x118 else s) := by
  refine congrArg Host.Outcome.next ?_
  rw [h.graph]
  dsimp only
  rw [h.graph_node, hf]
  simp [hk, hst, hrun, hlimit]

end State.HasNode

end Sys2Proof.Machine
end

section
/-! ### Conditional, loop and end nodes, and the statement about all nodes (R206, R211, R212) -/

namespace Sys2Proof.Machine

/-- A loop after a pass: it ends where it has made MAXIT passes, and sets QSTAT.LIMIT, else it goes back to its head (R212). -/
def State.passed (s : State) (c q i : Nat) (n : GNode) : State :=
  if n.opc.f 63 32 ≠ 0 ∧ n.iter = n.opc.f 63 32 then
    ((s.setQueue c q { s.queueAt c q with limit := true }).markRange c q i n true).nodeDone c q i n
  else s.setNode c q i { n with stat := .busy }

/-- The node of a loop after a pass. -/
def GNode.afterPass (n : GNode) : GNode :=
  if n.opc.f 63 32 ≠ 0 ∧ n.iter = n.opc.f 63 32 then { n with stat := .done, hold := none } else { n with stat := .busy }

theorem State.passed_limit (s : State) (c q i : Nat) (n : GNode) : ((s.passed c q i n).queueAt c q).limit =
    ((s.queueAt c q).limit || decide (n.opc.f 63 32 ≠ 0 ∧ n.iter = n.opc.f 63 32)) := by
  unfold State.passed
  split
  · next hmax => rw [State.nodeDone, State.setNode_queueAt, State.markRange_limit, State.setQueue_queueAt, decide_eq_true hmax, Bool.or_true]
  · next hmax => rw [State.setNode_queueAt, decide_eq_false hmax, Bool.or_false]

theorem State.setLimit_nodeAt (s : State) (c q j : Nat) :
    (s.setQueue c q { s.queueAt c q with limit := true }).nodeAt c q j = s.nodeAt c q j := by
  rw [State.nodeAt, State.setQueue_queueAt]
  rfl

theorem State.passed_marks {s u : State} {c q i : Nat} {g : Graph} {n : GNode} (hn : g.nodes[i]? = some n)
    (hu : ∀ j, u.nodeAt c q j = g.nodes[j]?) (hmem : u.mem = s.mem) (n' : GNode) (hc : g.Closed i n'.last) :
    s.Marks (u.passed c q i n') c q i n'.last g n'.afterPass fun m => m := by
  unfold State.passed GNode.afterPass
  split
  · exact (State.markRange_marks hn (fun j => (u.setLimit_nodeAt c q j).trans (hu j)) ((State.setQueue_mem ..).trans hmem) n' true _).of_closed hc
  · exact State.setNode_marks hn hu hmem _ _

namespace State.HasNode

variable {s : State} {c : BitVec 4} {q : BitVec 6} {i : Nat} {g : Graph} {n : GNode} (h : s.HasNode c.toNat q.toNat i g n)
include h

/-! #### Conditional nodes (R211) -/

section
variable (hk : n.kind = 4)
include hk

/-- A conditional node whose word can be read at once opens its range or completes it. -/
theorem exec_conditionalNode_reads (hst : n.stat = .busy) (hhold : n.hold = none) {ls : List Loc} (hlen : ls.length = 8)
    (ho : s.opens (s.schedUnit c.toNat q.toNat i) c.toNat n.opa .read ls) : exec (.conditionalNode c q i) s = .next (
      if n.test (.ofNat 64 (s.bytesAt ls)) then s.freshId.2.setNode c.toNat q.toNat i { n with hold := none, stat := .range }
      else (s.freshId.2.markRange c.toNat q.toNat i n true).setNode c.toNat q.toNat i { n with hold := none, stat := .done }) := by
  refine congrArg Host.Outcome.next ((h.nodeGo_eq hk hst (by decide) (by decide) _).trans ?_)
  simp only [hst]
  exact State.nodeRead_word_of_opens hhold hlen ho fun s n w => if n.test w then s.setNode c.toNat q.toNat i { n with stat := .range }
    else (s.markRange c.toNat q.toNat i n true).nodeDone c.toNat q.toNat i n

theorem conditionalNode_completes (hst : n.stat = .range) (hlast : n.last < g.nodes.length) (hc : g.Closed i n.last) :
    Completes (.conditionalNode c q i) s fun t =>
      s.Marks t c.toNat q.toNat i n.last g { n with hold := none, stat := .done } fun m => m := by
  refine ⟨_, congrArg Host.Outcome.next ((h.nodeGo_eq hk hst (by decide) (by decide) _).trans ?_),
    State.setNode_marks (u := s) h.node h.nodeAt rfl _ _⟩
  simp only [hst]
  exact if_pos (hc.rangeDone hlast)

end

/-! #### Loop nodes (R212) -/

section
variable (hk : n.kind = 5)
include hk

/-- A loop that has a pass to make in any case begins it. -/
theorem exec_loopNode_passes (hst : n.stat = .busy) (hmode : n.opc.b 8 = true) : exec (.loopNodeEvaluate c q i) s = .next
    ((s.markRange c.toNat q.toNat i n false).setNode c.toNat q.toNat i { n with stat := .range, iter := n.iter + 1 }) := by
  refine congrArg Host.Outcome.next ((h.nodeGo_eq hk hst (by decide) (by decide) _).trans ?_)
  simp only [hst]
  exact if_pos hmode

/-- A loop that tests at its head begins a pass, or completes its range. -/
theorem exec_loopNode_tests_first (hst : n.stat = .busy) (hmode : n.opc.b 8 = false) (hhold : n.hold = none) {ls : List Loc}
    (hlen : ls.length = 8) (ho : s.opens (s.schedUnit c.toNat q.toNat i) c.toNat n.opa .read ls) :
    exec (.loopNodeEvaluate c q i) s = .next (if n.test (.ofNat 64 (s.bytesAt ls)) then
        (s.freshId.2.markRange c.toNat q.toNat i n false).setNode c.toNat q.toNat i
          { n with hold := none, stat := .range, iter := n.iter + 1 }
      else (s.freshId.2.markRange c.toNat q.toNat i n true).setNode c.toNat q.toNat i { n with hold := none, stat := .done }) := by
  refine congrArg Host.Outcome.next ((h.nodeGo_eq hk hst (by decide) (by decide) _).trans ?_)
  simp only [hst]
  refine (if_neg (by simp [hmode])).trans ?_
  exact State.nodeRead_word_of_opens hhold hlen ho fun s n w =>
    if n.test w then (s.markRange c.toNat q.toNat i n false).setNode c.toNat q.toNat i { n with stat := .range, iter := n.iter + 1 }
    else (s.markRange c.toNat q.toNat i n true).nodeDone c.toNat q.toNat i n

/-- A loop whose pass is over goes on to its test, or to what follows a pass. -/
theorem exec_loopNode_ends_pass (hst : n.stat = .range) (hlast : n.last < g.nodes.length) (hc : g.Closed i n.last) :
    exec (.loopNodeEvaluate c q i) s = .next (if n.opc.b 8 then s.setNode c.toNat q.toNat i { n with stat := .moved }
      else s.passed c.toNat q.toNat i n) := by
  refine congrArg Host.Outcome.next ((h.nodeGo_eq hk hst (by decide) (by decide) _).trans ?_)
  simp only [hst]
  rw [hc.rangeDone hlast]
  exact if_neg (by decide)

/-- A loop that tests after its pass goes on to what follows a pass, or completes its range. -/
theorem exec_loopNode_tests_last (hst : n.stat = .moved) (hhold : n.hold = none) {ls : List Loc} (hlen : ls.length = 8)
    (ho : s.opens (s.schedUnit c.toNat q.toNat i) c.toNat n.opa .read ls) : exec (.loopNodeEvaluate c q i) s = .next (
      if n.test (.ofNat 64 (s.bytesAt ls)) then s.freshId.2.passed c.toNat q.toNat i { n with hold := none }
      else (s.freshId.2.markRange c.toNat q.toNat i n true).setNode c.toNat q.toNat i { n with hold := none, stat := .done }) := by
  refine congrArg Host.Outcome.next ((h.nodeGo_eq hk hst (by decide) (by decide) _).trans ?_)
  simp only [hst]
  rw [← hst]
  exact State.nodeRead_word_of_opens hhold hlen ho fun s n w => if n.test w then s.passed c.toNat q.toNat i n
    else (s.markRange c.toNat q.toNat i n true).nodeDone c.toNat q.toNat i n

end

/-! #### End nodes (R206) -/

section
variable (hk : n.kind = 6) (hst : n.stat = .busy) (hlast : i + 1 = g.nodes.length)
include hk hst hlast

/-- A graph without a DONE word ends at once. -/
theorem endNode_ends (hdone : g.entry.getD 2 0 = 0) : exec (.endNode c q) s = .next (s.setQueue c.toNat q.toNat
    { (s.queueAt c.toNat q.toNat).endGraph .idle with head := (s.queueAt c.toNat q.toNat).nextHead }) := by
  refine congrArg Host.Outcome.next ?_
  rw [h.graph]
  dsimp only
  rw [← hlast, Nat.add_sub_cancel]
  exact (h.nodeGo_eq hk hst (by decide) (by decide) _).trans (if_pos hdone)

/-- A graph with a DONE word ends once 1 is added to it. -/
theorem endNode_adds (hhold : n.hold = none) (hdone : g.entry.getD 2 0 ≠ 0) {ls : List Loc} (hlen : ls.length = 8)
    (ho : s.opens (s.schedUnit c.toNat q.toNat i) c.toNat (g.entry.getD 2 0) .atomic ls) : Completes (.endNode c q) s fun t =>
      t.queueAt c.toNat q.toNat = { (s.queueAt c.toNat q.toNat).endGraph .idle with head := (s.queueAt c.toNat q.toNat).nextHead } ∧
      s.stores t ls (toBytes 8 ((.ofNat 64 (s.bytesAt ls) : Word) + 1).toNat) := by
  obtain ⟨m, bs, hm, hstores⟩ := State.unitAccess_add_of_opens ho hlen 1
  refine ⟨(s.withMem m (s.nextId + 1)).setQueue c.toNat q.toNat
    { (s.queueAt c.toNat q.toNat).endGraph .idle with head := (s.queueAt c.toNat q.toNat).nextHead }, congrArg Host.Outcome.next ?_,
    State.setQueue_queueAt .., hstores.of_same fun l => by rw [State.setQueue_mem]⟩
  rw [h.graph]
  dsimp only
  rw [← hlast, Nat.add_sub_cancel]
  refine (h.nodeGo_eq hk hst (by decide) (by decide) _).trans ((if_neg hdone).trans ?_)
  rw [if_neg (by simp [State.older_of_opens ho, Older.clear]), hhold]
  dsimp only [Graph.doneAddr, wAt]
  rw [hm]
  rfl

end

end State.HasNode

/-- Settles O39, kind by kind: what `nodeGo` makes of a node that has started, and what each body does once its access is over. -/
theorem graphNodesRun : Obligations.GraphNodesRun := by
  intro s c q i g n ls ld id kn key x u active s1 reads halts word opA opB opC w test read8 now inside node marks closed finished src dst
    cut at_ moved quiet kind again limits hg hn hloaded hlive herr
  have h : s.HasNode c.toNat q.toNat i g n := ⟨hg, hn, hloaded, hlive, herr⟩
  have htest : test ↔ n.test w = true := (n.test_iff w).symm
  have hs1 (j : Nat) : s1.nodeAt c.toNat q.toNat j = g.nodes[j]? := h.nodeAt j
  refine ⟨fun hidle hnext hwait j hj => ?_, fun hk => ⟨fun hst hhold hlen ho => ?_, fun hst hnext => ?_, fun hst hnext => ?_,
    fun hst hid hkn hret => ?_⟩, fun hk hst hmoved => ⟨fun hbuf hhold hlen ho => ?_, fun hbuf hlen ho _ => ?_⟩, fun hk hst hquiet => ?_,
    fun hk hst hhold hlen => ⟨fun hadd ho => ?_, fun hadd ho _ => ?_⟩,
    fun hk => ⟨fun hst hdue hread => ⟨fun ht => ?_, fun ht => ?_⟩, fun f hst hf hrun hlimit => ⟨fun hle => ?_, fun hlt => ?_⟩⟩,
    fun hk => ⟨fun hst hread => ⟨fun ht => ?_, fun ht => ?_⟩, fun hst hlast hc => ?_⟩,
    fun hk => ⟨fun hst hmode => ?_, fun hst hmode hread => ⟨fun ht => ?_, fun ht => ?_⟩,
      fun hst hlast hc => ⟨fun hmode => ?_, fun hmode => ?_⟩, fun hst hread => ⟨fun ht hc => ?_, fun ht => ?_⟩⟩,
    fun hk hlast hst hhold => ⟨fun hdone => ?_, fun hdone hlen ho _ => ?_⟩⟩
  -- A node that does not start.
  · have hgo (kind' : Nat) (body : State → Graph → GNode → State) : s.nodeGo c.toNat q.toNat i kind' body = s :=
      h.nodeGo_of_unchosen hidle hnext hwait kind' body
    simp only [List.mem_cons, List.not_mem_nil, or_false] at hj
    obtain rfl | rfl | rfl | rfl | rfl | rfl | rfl := hj
    all_goals exact .of_eq (congrArg Host.Outcome.next (hgo _ _)) rfl
  -- Kernel nodes.
  · exact h.kernelNode_checks hk hst hhold hlen ho
  · exact h.kernelNodeAdmit_waits hk hst hnext
  · exact h.kernelNodeAdmit_posts hk hst hnext
  · exact h.kernelNode_completes hk hst hid hkn hret
  -- Copy and signal nodes.
  · exact h.copyNode_reads hst hk hmoved hhold hbuf hlen ho
  · have hwrites := h.copyNode_writes hst hk hmoved hbuf hlen ho
    rwa [hlen] at hwrites
  · obtain ⟨hside, hsrc⟩ := hquiet
    exact h.copyNodeComplete_completes hk hst hside hsrc
  · exact h.signalNode_stores hst hk hadd hlen ho
  · exact h.signalNode_adds hst hk hhold hadd hlen ho
  -- Wait nodes.
  · obtain ⟨hhold, hlen, ho⟩ := hread
    refine .of_eq (h.waitNodeRead_reads hk hst hhold hdue hlen ho) ?_
    rw [if_pos (htest.1 ht)]
    rfl
  · obtain ⟨hhold, hlen, ho⟩ := hread
    refine .of_eq (h.waitNodeRead_reads hk hst hhold hdue hlen ho) ?_
    rw [if_neg (htest.not.1 ht), ← hst]
    rfl
  · refine .of_eq (h.waitNodeTimeout_fires hk hst hf hrun hlimit) ?_
    rw [if_pos (show f + n.opc.f 63 32 * 1400 ≤ s.cycle.toNat from hle)]
    exact s.failNode_halts ..
  · exact .of_eq (h.waitNodeTimeout_fires hk hst hf hrun hlimit) (if_neg (Nat.not_le.2 hlt))
  -- Conditional nodes.
  · obtain ⟨hhold, hlen, ho⟩ := hread
    exact .of_eq (h.exec_conditionalNode_reads hk hst hhold hlen ho) (if_pos (htest.1 ht))
  · obtain ⟨hhold, hlen, ho⟩ := hread
    refine .of_eq (h.exec_conditionalNode_reads hk hst hhold hlen ho) ?_
    rw [if_neg (htest.not.1 ht)]
    exact State.markRange_marks hn hs1 rfl n true _
  · exact h.conditionalNode_completes hk hst hlast hc
  -- Loop nodes.
  · exact .of_eq (h.exec_loopNode_passes hk hst hmode) (State.markRange_marks hn h.nodeAt rfl n false _)
  · obtain ⟨hhold, hlen, ho⟩ := hread
    refine .of_eq (h.exec_loopNode_tests_first hk hst hmode hhold hlen ho) ?_
    rw [if_pos (htest.1 ht)]
    exact State.markRange_marks hn hs1 rfl n false _
  · obtain ⟨hhold, hlen, ho⟩ := hread
    refine .of_eq (h.exec_loopNode_tests_first hk hst hmode hhold hlen ho) ?_
    rw [if_neg (htest.not.1 ht)]
    exact State.markRange_marks hn hs1 rfl n true _
  · refine .of_eq (h.exec_loopNode_ends_pass hk hst hlast hc) ?_
    rw [if_pos (show n.opc.b 8 = true from hmode)]
    exact State.setNode_marks hn h.nodeAt rfl _ _
  · have hexec := h.exec_loopNode_ends_pass hk hst hlast hc
    rw [if_neg (by simp [show n.opc.b 8 = false from hmode])] at hexec
    exact ⟨.of_eq hexec (State.passed_marks hn h.nodeAt rfl n hc), .of_eq hexec (s.passed_limit ..)⟩
  · obtain ⟨hhold, hlen, ho⟩ := hread
    have hexec := h.exec_loopNode_tests_last hk hst hhold hlen ho
    rw [if_pos (htest.1 ht)] at hexec
    exact ⟨.of_eq hexec (State.passed_marks hn hs1 rfl { n with hold := none } hc), .of_eq hexec (s1.passed_limit ..)⟩
  · obtain ⟨hhold, hlen, ho⟩ := hread
    refine .of_eq (h.exec_loopNode_tests_last hk hst hhold hlen ho) ?_
    rw [if_neg (htest.not.1 ht)]
    exact State.markRange_marks hn hs1 rfl n true _
  -- End nodes.
  · exact .of_eq (h.endNode_ends hk hst hlast hdone) ⟨State.setQueue_queueAt .., State.keeps_of_mem (State.setQueue_mem ..)⟩
  · exact h.endNode_adds hk hst hlast hhold hdone hlen ho

end Sys2Proof.Machine
end

section
/-! ### Pending traps of a task about to issue (R220, R221, R223, R226, R237)

The trap that comes next is found from the task alone (`Task.nextTrap`). Taking it puts the task at its wait's bundle where an event ended
the wait, writes the record there and empties the pipelines (`Task.takes`). -/

namespace Sys2Proof.Machine

/-! #### The drain (R223, R228) -/

/-- The drain writes tile-side registers alone. -/
theorem Task.emptied_eq (t : Task) : t.emptied = { t with inflight := [], tile := t.emptied.tile } := by
  refine t.emptied_of_frame (fun u => { u with tile := t.emptied.tile }) fun d hd u x => ?_
  cases d with
  | t | e | ze | d | pLoad | pSwap | pSwapAll => rfl
  | _ => cases hd

theorem Task.afterTrap_eq (t : Task) : t.afterTrap = { t with
    inflight := [], tile := t.emptied.tile, shadow := t.shadow ++ t.drained, latch := .zero, replay := false, entering := false
    skip := 0, fetchGot := [], fetchErr := none, atHead := false } :=
  (congrArg (fun u : Task => { u with
    shadow := t.shadow ++ t.drained, latch := .zero, replay := false, entering := false, skip := 0, fetchGot := [], fetchErr := none
    atHead := false }) t.emptied_eq :)

theorem Task.mem_drained {t : Task} {q : Pend} (hq : q ∈ t.inflight) (hall : q.dest ≠ .qAll) (htile : q.dest.atDrain = false) :
    { q with again := true } ∈ t.drained := by
  refine List.mem_flatMap.2 ⟨q, List.mem_filter.2 ⟨hq, by rw [htile]; rfl⟩, ?_⟩
  split
  next hdest _ => exact absurd hdest hall
  · exact List.mem_singleton_self _

theorem Task.drained_of_empty {t : Task} (h : t.inflight = []) : t.drained = [] := by
  rw [Task.drained, h]
  rfl

/-! #### The record (R218, R220) -/

/-- What a record leaves to the handler: its vector and its scratch. -/
theorem TrapCsr.handler_of_record (x : TrapCsr) (cause pc tgt slots val ipc : Word) :
    let y : TrapCsr := { x with cause := cause, pc := pc, tgt := tgt, slots := slots, val := val, ipc := ipc }
    y.vec = x.vec ∧ y.scr0 = x.scr0 ∧ y.scr1 = x.scr1 := ⟨rfl, rfl, rfl⟩

section
variable {t : Task} {kind : Nat} {isLate : Bool} {cause mask commit : Nat} {tval ipc : Word}

theorem Task.enterTrap_of_taken {f : Flow} (h : t.delay = .taken f) :
    (t.enterTrap kind isLate cause t.pc mask commit tval ipc).trap.cause = .ofNat 64 (2 ^ 63 + 2 ^ 62 + kind * 2 ^ 60
        + b2n isLate * 2 ^ 59 + f.pops * 2 ^ 56 + t.loops.length * 2 ^ 53 + cause) ∧
      (t.enterTrap kind isLate cause t.pc mask commit tval ipc).trap.tgt = pcBits f.tgt := by
  simp [Task.enterTrap, h, b2n]

theorem Task.enterTrap_of_not_taken (h : ∀ f, t.delay ≠ .taken f) (pc : Word) :
    (t.enterTrap kind isLate cause pc mask commit tval ipc).trap.cause = .ofNat 64 (2 ^ 63 + kind * 2 ^ 60
        + b2n isLate * 2 ^ 59 + t.loops.length * 2 ^ 53 + cause) ∧
      (t.enterTrap kind isLate cause pc mask commit tval ipc).trap.tgt = 0 := by
  cases hd : t.delay with
  | taken f => exact absurd hd (h f)
  | no | untaken => simp [Task.enterTrap, hd, b2n]

end

/-! #### Taking a trap (R220, R223) -/

/-- The task at its wait's bundle, with the branch whose delay bundle that is, where an event ended the wait. -/
def Task.atWait (t : Task) : Task := { t with
  pc := if t.woke then t.waitPc else t.pc
  delay := match t.woke, t.waitFlow with
    | true, some (f, _) => .taken f
    | _, _ => t.delay
  loops := match t.woke, t.waitFlow with
    | true, some (_, ls) => ls
    | _, _ => t.loops }

section
variable {t : Task}

theorem Task.atWait_of_not_woke (h : t.woke = false) : t.atWait = t := by
  cases t
  cases h
  rfl

theorem Task.atWait_of_woke (h : t.woke = true) (hf : t.waitFlow = none) : t.atWait = { t with pc := t.waitPc } := by
  cases t
  cases h
  cases hf
  rfl

theorem Task.atWait_of_wait_branch {f : Flow} {ls : List Loop} (h : t.woke = true) (hf : t.waitFlow = some (f, ls)) :
    t.atWait = { t with pc := t.waitPc, delay := .taken f, loops := ls } := by
  cases t
  cases h
  cases hf
  rfl

/-- Without a branch of its wait's bundle the task keeps its own, and its loop stack. -/
theorem Task.atWait_keeps (h : t.woke = true → t.waitFlow = none) : t.atWait.delay = t.delay ∧ t.atWait.loops = t.loops := by
  cases hw : t.woke with
  | false => rw [Task.atWait_of_not_woke hw]; exact ⟨rfl, rfl⟩
  | true => rw [Task.atWait_of_woke hw (h hw)]; exact ⟨rfl, rfl⟩

end

/-- The slots of its next bundle that the task does not execute again after a trap: those of a record it returned with, or all but
the wait. -/
def Task.trapCommit (t : Task) : Nat := if t.skip ≠ 0 then t.skip.toNat else if t.woke then 14 else 0

/-- The task in its handler, the trap taken. -/
def Task.takes (t : Task) (kind : Nat) (isLate : Bool) (cause : Nat) (tval : Word) (mask : Nat) (ipc : Word) : Task :=
  (t.atWait.enterTrap kind isLate cause t.atWait.pc mask t.trapCommit tval ipc).afterTrap

section
variable {t : Task} {kind : Nat} {isLate : Bool} {cause mask : Nat} {tval ipc : Word}

theorem Task.takes_eq : t.takes kind isLate cause tval mask ipc =
    let u := t.atWait.enterTrap kind isLate cause t.atWait.pc mask t.trapCommit tval ipc
    { u with
      inflight := [], tile := (t.takes kind isLate cause tval mask ipc).tile, shadow := u.shadow ++ u.drained, latch := .zero
      replay := false, entering := false, skip := 0, fetchGot := [], fetchErr := none, atHead := false } := Task.afterTrap_eq _

theorem Task.takes_trap : (t.takes kind isLate cause tval mask ipc).trap =
    (t.atWait.enterTrap kind isLate cause t.atWait.pc mask t.trapCommit tval ipc).trap := Task.afterTrap_trap _

theorem Task.takes_record :
    let x := (t.takes kind isLate cause tval mask ipc).trap
    x.pc = pcBits (if t.woke then t.waitPc else t.pc) ∧ x.slots = .ofNat 64 (t.trapCommit * 16 + mask) ∧ x.val = tval ∧
      x.ipc = (if isLate then pcBits ipc else 0) ∧ x.vec = t.trap.vec ∧ x.scr0 = t.trap.scr0 ∧ x.scr1 = t.trap.scr1 := by
  rw [Task.takes_trap]
  exact ⟨rfl, rfl, rfl, rfl, TrapCsr.handler_of_record t.trap ..⟩

theorem Task.takes_tile (h : ∀ q ∈ t.inflight, q.dest.atDrain = false) : (t.takes kind isLate cause tval mask ipc).tile = t.tile :=
  Task.afterTrap_tile h

theorem Task.takes_of_no_branch (hd : ∀ f, t.delay ≠ .taken f) (hw : t.woke = true → t.waitFlow = none) :
    (t.takes kind isLate cause tval mask ipc).trap.cause = .ofNat 64 (2 ^ 63 + kind * 2 ^ 60
        + b2n isLate * 2 ^ 59 + t.loops.length * 2 ^ 53 + cause) ∧
      (t.takes kind isLate cause tval mask ipc).trap.tgt = 0 := by
  obtain ⟨hdelay, hloops⟩ := Task.atWait_keeps hw
  rw [Task.takes_trap, ← hloops]
  exact Task.enterTrap_of_not_taken (hdelay ▸ hd) _

theorem Task.takes_of_branch {f : Flow} (hd : t.delay = .taken f) (hw : t.woke = false) :
    (t.takes kind isLate cause tval mask ipc).trap.cause = .ofNat 64 (2 ^ 63 + 2 ^ 62 + kind * 2 ^ 60
        + b2n isLate * 2 ^ 59 + f.pops * 2 ^ 56 + t.loops.length * 2 ^ 53 + cause) ∧
      (t.takes kind isLate cause tval mask ipc).trap.tgt = pcBits f.tgt := by
  rw [Task.takes_trap, Task.atWait_of_not_woke hw]
  exact Task.enterTrap_of_taken hd

theorem Task.takes_of_wait_branch {f : Flow} {ls : List Loop} (hw : t.woke = true) (hf : t.waitFlow = some (f, ls)) :
    (t.takes kind isLate cause tval mask ipc).trap.cause = .ofNat 64 (2 ^ 63 + 2 ^ 62 + kind * 2 ^ 60
        + b2n isLate * 2 ^ 59 + f.pops * 2 ^ 56 + ls.length * 2 ^ 53 + cause) ∧
      (t.takes kind isLate cause tval mask ipc).trap.tgt = pcBits f.tgt ∧ (t.takes kind isLate cause tval mask ipc).loops = ls := by
  rw [Task.takes_trap, Task.takes_eq, Task.atWait_of_wait_branch hw hf, ← and_assoc]
  exact ⟨Task.enterTrap_of_taken rfl, rfl⟩

end

/-- Of two tasks put in one slot the later stands. -/
theorem State.setTaskAt_setTaskAt (s : State) (core slot : Nat) (t u : Task) :
    (s.setTaskAt core slot t).setTaskAt core slot u = s.setTaskAt core slot u := by
  rw [State.setTaskAt, State.setTaskAt, Tab.put_put]
  rfl

/-- A trap that a handler takes, LEASEEV aside. -/
theorem State.takeTrap_setTaskAt (s : State) (core slot kind : Nat) {isLate : Bool} {cause : Nat} (tval : Word) (mask : Nat) (ipc : Word)
    {u : Task} (hh : u.hasHandler = true) (ht : u.inTrap = false) (h1 : cause ≠ 0x158) (h2 : cause ≠ 0x15A) :
    (s.setTaskAt core slot u).takeTrap core slot kind isLate cause tval mask ipc =
      (s.setTaskAt core slot (u.takes kind isLate cause tval mask ipc)).trapped core := by
  unfold State.takeTrap
  rw [State.setTaskAt_taskAt]
  extract_lets t w pc commit entered csr taken
  rw [if_neg (by simp [t, hh, ht])]
  have hwait : w = u.atWait := by
    obtain ⟨_, _, _, _, waitFlow, woke⟩ := u
    cases woke with
    | false => rfl
    | true => cases waitFlow <;> rfl
  have hcommit : commit = u.trapCommit := by
    rw [show commit = if w.skip != 0 then w.skip.toNat else if w.woke then 14 else 0 from rfl, hwait]
    simp only [Task.trapCommit, bne_iff_ne]
    rfl
  have htaken : taken = u.atWait.enterTrap kind isLate cause u.atWait.pc mask u.trapCommit tval ipc := by
    rw [show taken = entered from if_neg (not_or.2 ⟨h1, h2⟩), ← hwait, ← hcommit]
  rw [State.setTaskAt_setTaskAt, htaken]
  rfl

/-- A trap that no handler takes. -/
theorem State.takeTrap_setTaskAt_of_no_handler (s : State) (core slot kind : Nat) (isLate : Bool) (cause : Nat) (tval : Word) (mask : Nat)
    (ipc : Word) {u : Task} (hh : u.hasHandler = false) :
    (s.setTaskAt core slot u).takeTrap core slot kind isLate cause tval mask ipc = (s.setTaskAt core slot u).fatal core slot cause := by
  rw [State.takeTrap, State.setTaskAt_taskAt]
  exact if_pos (by rw [hh]; rfl)

theorem State.trapped_coreAt (s : State) {core : Nat} (h : core < 1024) :
    (s.trapped core).coreAt core = { s.coreAt core with mono := 0, pauseTill := (s.coreAt core).lastAt + 2 } := by
  rw [State.trapped, if_neg (Nat.not_le.2 h)]
  exact State.setCoreAt_coreAt ..

/-! #### Which trap comes next (R221, R237) -/

/-- The one of two events that is taken first, the latter where it comes before what was found so far. -/
def sooner (best : Option Report) (x : Report) : Option Report :=
  match best with
  | none => some x
  | some b => if x.cause < b.cause || (x.cause == 0x0C1 && b.cause == 0x0C1 && x.tval.toNat < b.tval.toNat) then some x else some b

theorem Task.nextEvent_eq (t : Task) :
    t.nextEvent = (t.events.filter fun r => r.cause != 0x120 || t.delay == .no).foldl sooner none := rfl

/-- No other event has a cause as low. -/
def Report.Lowest (r x : Report) : Prop := x ≠ r → r.cause < x.cause

theorem sooner_cases (best : Option Report) (x : Report) : sooner best x = some x ∨ sooner best x = best := by
  cases best with
  | none => exact .inl rfl
  | some b => exact ite_eq_or_eq ..

theorem sooner_of_lowest {r : Report} {best : Option Report} (h : ∀ b ∈ best, r.Lowest b) : sooner best r = some r := by
  cases best with
  | none => rfl
  | some b =>
    by_cases hb : b = r
    · exact hb ▸ ite_self _
    · exact if_pos (by simp [h b rfl hb])

theorem sooner_lowest {r x : Report} (h : r.Lowest x) : sooner (some r) x = some r := by
  by_cases hx : x = r
  · exact hx ▸ ite_self _
  · have hlt := h hx
    exact if_neg (by grind)

theorem foldl_sooner_of_lowest {r : Report} (xs : List Report) {best : Option Report} (hxs : ∀ x ∈ xs, r.Lowest x)
    (hbest : ∀ b ∈ best, r.Lowest b) (hr : r ∈ xs ∨ best = some r) : xs.foldl sooner best = some r := by
  induction xs generalizing best with
  | nil => exact hr.resolve_left List.not_mem_nil
  | cons x xs ih =>
    obtain ⟨hx, hrest⟩ := List.forall_mem_cons.1 hxs
    refine ih hrest (fun b hb => ?_) ?_
    · obtain h | h := sooner_cases best x
      · rw [h] at hb
        exact Option.some.inj hb ▸ hx
      · exact hbest b (h ▸ hb)
    · obtain hr | rfl := hr
      · obtain rfl | hr := List.mem_cons.1 hr
        · exact .inr (sooner_of_lowest hbest)
        · exact .inl hr
      · exact .inr (sooner_lowest hx)

/-- The event of the lowest cause is the next, 0x120 once no delay bundle is to issue (R174). -/
theorem Task.nextEvent_of_lowest {t : Task} {r : Report} (hr : r ∈ t.events) (hlow : ∀ x ∈ t.events, r.Lowest x)
    (hmono : r.cause = 0x120 → t.delay = .no) : t.nextEvent = some r := by
  rw [t.nextEvent_eq]
  refine foldl_sooner_of_lowest _ (fun x hx => hlow x (List.mem_filter.1 hx).1) (fun _ hb => nomatch hb)
    (.inl (List.mem_filter.2 ⟨hr, ?_⟩))
  by_cases h : r.cause = 0x120 <;> simp [h, hmono]

section
variable {t : Task}

theorem Task.nextTrap_of_late {p : Pend} {c : Nat} {tv : Word} (he : t.entering = false) (hp : t.lateDue = some p)
    (hv : p.val = .late c tv) :
    t.nextTrap = some ⟨0, true, ⟨c, tv⟩, 2 ^ p.slot, p.pc, { t with inflight := t.inflight.erase p }⟩ := by
  simp [Task.nextTrap, he, hp, hv]

variable (he : t.entering = false) (hr : t.replay = false) (hl : t.lateDue = none) (ht : t.inTrap = false)
include he hr hl ht

theorem Task.nextTrap_of_report {r : Report} {rs : List Report} (h : t.reports = r :: rs) :
    t.nextTrap = some ⟨1, false, r, 0, 0, { t with reports := rs }⟩ := by
  simp [Task.nextTrap, Task.returning, Task.shadowLate, he, hr, hl, ht, h]

theorem Task.nextTrap_of_no_report (h : t.reports = []) :
    t.nextTrap = t.nextEvent.map fun r => ⟨2, false, r, 0, 0, { t with events := t.events.erase r }⟩ := by
  cases hn : t.nextEvent <;> simp [Task.nextTrap, Task.returning, Task.shadowLate, he, hr, hl, ht, h, hn]

end

/-! #### A trap that no handler takes (R83, R226) -/

/-- The task of a slot once its context is asked for a pre-emption in place at a CYCLE (R83, R230). -/
def Task.asked (n cycle k : Nat) (t : Task) : Task :=
  if t.place.ctx = n ∧ t.stat ≠ .free ∧ t.stat ≠ .ending ∧ t.stat ≠ .offcore ∧ t.stat ≠ .held ∧ t.pre = none ∧ k < 1024 * 16
  then { t with pre := some ⟨true, true, cycle⟩ } else t

theorem State.preemptCtx_taskAt (s : State) (n core slot : Nat) :
    (s.preemptCtx n).taskAt core slot = (s.taskAt core slot).asked n s.cycle.toNat (taskKey core slot) := by
  have hmap : (s.preemptCtx n).tasks = s.tasks.map fun kt => (kt.1, kt.2.asked n s.cycle.toNat kt.1) := by
    refine List.map_congr_left fun kt _ => ?_
    unfold Task.asked
    split <;> rfl
  rw [State.taskAt, hmap]
  exact Tab.get_mapVal _ _ _ (f := fun k (t : Task) => t.asked n s.cycle.toNat k) (if_neg fun ⟨_, hfree, _⟩ => hfree rfl)

theorem Task.asked_of_held {t : Task} (h : t.stat = .held) (n cycle k : Nat) : t.asked n cycle k = t :=
  if_neg fun ⟨_, _, _, _, hheld, _⟩ => hheld h

/-- An ACTIVE context that is to enter ERROR, once it is quiet. -/
def Ctx.failing (c : Ctx) (cause : Nat) : Ctx := { c with stat := .quiescing, pending := true, toError := true, cause := cause }

theorem State.ctxError_of_active {s : State} {n : Nat} (h : (s.ctxAt n).stat = .active) (cause : Nat) :
    s.ctxError n cause = (s.setCtxAt n ((s.ctxAt n).failing cause)).preemptCtx n := by
  simp only [State.ctxError, h]
  rfl

/-- A task whose issue an unrecoverable cause has stopped. -/
def Task.stopped (t : Task) : Task := { t with stat := .held, wait := .none, pre := none, saving := false }

/-- An unrecoverable cause of a task whose context is ACTIVE: its issue stops, and the context quiesces to enter ERROR. -/
theorem State.fatal_of_active {s : State} {core slot : Nat} {u : Task} (hu : s.taskAt core slot = u) (hc : core < 1024)
    (ha : (s.ctxAt u.place.ctx).stat = .active) (cause : Nat) :
    (s.fatal core slot cause).taskAt core slot = u.stopped ∧
      (s.fatal core slot cause).ctxAt u.place.ctx = (s.ctxAt u.place.ctx).failing cause := by
  subst hu
  have hfatal : s.fatal core slot cause =
      ((s.breakFor core slot (s.taskAt core slot).place.kernel).setTaskAt core slot (s.taskAt core slot).stopped).ctxError
        (s.taskAt core slot).place.ctx cause := if_neg (Nat.not_le.2 hc)
  rw [hfatal, State.ctxError_of_active (by exact ha)]
  refine ⟨?_, State.setCtxAt_ctxAt ..⟩
  have hstopped (s : State) (n : Nat) (c : Ctx) (t : Task) : ((s.setTaskAt core slot t).setCtxAt n c).taskAt core slot = t :=
    State.setTaskAt_taskAt ..
  rw [State.preemptCtx_taskAt, hstopped]
  exact Task.asked_of_held rfl ..

/-! #### The event -/

/-- A task of a core stands before a bundle of its own, nothing stops it there, and no entry of a TRAPI or of a jump table is due. -/
def State.beforeBundle (s : State) (core slot : Nat) : Prop :=
  ((s.taskAt core slot).stat = .ready ∨ (s.taskAt core slot).stat = .issuing) ∧ s.coreFrozen core = false ∧ s.gatedCore core = false ∧
    core < 1024 ∧ (s.taskAt core slot).replay = false ∧ (s.taskAt core slot).entering = false ∧ (s.taskAt core slot).jumpErr = none

section
variable {s : State} {core slot : Nat}

theorem exec_takePendingTrap_of_stopped
    (h : ¬ ((s.taskAt core slot).stat = .ready ∨ (s.taskAt core slot).stat = .issuing) ∨ s.coreFrozen core = true ∨
      s.gatedCore core = true) :
    exec (.takePendingTrap core slot) s = .next s :=
  if_pos (by rwa [not_or] at h)

section
variable (hst : (s.taskAt core slot).stat = .ready ∨ (s.taskAt core slot).stat = .issuing) (hf : s.coreFrozen core = false)
  (hg : s.gatedCore core = false)
include hst hf hg

theorem State.not_stopped_of_turn : ¬ (((s.taskAt core slot).stat ≠ .ready ∧ (s.taskAt core slot).stat ≠ .issuing) ∨
    s.coreFrozen core = true ∨ s.gatedCore core = true) := by
  rw [hf, hg, ← not_or]
  simp [hst]

theorem exec_takePendingTrap_of_entering (he : (s.taskAt core slot).entering = true) :
    exec (.takePendingTrap core slot) s = .next ((s.setTaskAt core slot (s.taskAt core slot).afterTrap).trapped core) :=
  (if_neg (State.not_stopped_of_turn hst hf hg)).trans (if_pos he)

end

variable (h : s.beforeBundle core slot)
include h

theorem exec_takePendingTrap_of_next {n : NextTrap} (hn : (s.taskAt core slot).nextTrap = some n) :
    exec (.takePendingTrap core slot) s =
      .next ((s.setTaskAt core slot n.task).takeTrap core slot n.kind n.late n.rep.cause n.rep.tval n.mask n.ipc) := by
  obtain ⟨hst, hf, hg, -, hr, he, hj⟩ := h
  refine (if_neg (State.not_stopped_of_turn hst hf hg)).trans ?_
  simp only [he, hj, hn, Task.returning, hr, Bool.false_and, Bool.false_eq_true, if_false]

theorem exec_takePendingTrap_of_handler {n : NextTrap} (hn : (s.taskAt core slot).nextTrap = some n) (hh : n.task.hasHandler = true)
    (ht : n.task.inTrap = false) (h1 : n.rep.cause ≠ 0x158) (h2 : n.rep.cause ≠ 0x15A) :
    exec (.takePendingTrap core slot) s =
      .next ((s.setTaskAt core slot (n.task.takes n.kind n.late n.rep.cause n.rep.tval n.mask n.ipc)).trapped core) := by
  rw [exec_takePendingTrap_of_next h hn, State.takeTrap_setTaskAt _ _ _ _ _ _ _ hh ht h1 h2]

theorem exec_takePendingTrap_of_no_handler {n : NextTrap} (hn : (s.taskAt core slot).nextTrap = some n)
    (hh : n.task.hasHandler = false) :
    exec (.takePendingTrap core slot) s = .next ((s.setTaskAt core slot n.task).fatal core slot n.rep.cause) := by
  rw [exec_takePendingTrap_of_next h hn, State.takeTrap_setTaskAt_of_no_handler _ _ _ _ _ _ _ _ _ hh]

theorem exec_takePendingTrap_of_none (hn : (s.taskAt core slot).nextTrap = none) (hp : (s.taskAt core slot).pre = none) :
    exec (.takePendingTrap core slot) s = .next s := by
  obtain ⟨hst, hf, hg, -, -, he, hj⟩ := h
  refine (if_neg (State.not_stopped_of_turn hst hf hg)).trans ?_
  simp only [he, hj, hn, Bool.false_eq_true, if_false, State.preempted, State.preDue, hp]

end

/-- Settles O41: what the event is in each case, then what the record and the task hold once a trap is taken. -/
theorem pendingTrapsAreTaken : Obligations.PendingTrapsAreTaken := by
  intro s core slot r p cause tv T free awake taken
  have htaken (rs es : List Report) {fl : List Pend} (hfl : ∀ q ∈ fl, q ∈ T.inflight) (hcore : core < 1024) (kind : Nat) (isLate : Bool)
      {late : Nat} (hlate : b2n isLate = late) (cause : Nat) (tv : Word) (mask : Nat) (ipc : Word) {ripc : Word}
      (hipc : (if isLate then pcBits ipc else 0) = ripc) : taken kind late cause tv mask ripc fl
        ((s.setTaskAt core slot ({ T with reports := rs, events := es, inflight := fl }.takes kind isLate cause tv mask ipc)).trapped core) := by
    subst hlate hipc
    dsimp only [taken]
    rw [State.trapped_setTaskAt_taskAt, State.trapped_coreAt _ hcore]
    refine ⟨fun hd hw => Task.takes_of_no_branch hd hw, fun f hd hw => Task.takes_of_branch hd hw,
      fun f ls hw hf => Task.takes_of_wait_branch hw hf, ?_⟩
    obtain ⟨hpc, hslots, hval, hipc, hvec, hscr0, hscr1⟩ :=
      Task.takes_record (t := { T with reports := rs, events := es, inflight := fl }) (kind := kind) (isLate := isLate) (cause := cause)
        (mask := mask) (tval := tv) (ipc := ipc)
    refine ⟨hpc, hslots, hval, hipc, hvec, hscr0, hscr1, ?_⟩
    rw [Task.takes_eq]
    exact ⟨rfl, rfl, rfl, rfl, rfl,
      ⟨_, rfl, fun h => Task.drained_of_empty h, fun q hq hall htile => Task.mem_drained hq hall htile⟩, rfl,
      fun hw => (Task.atWait_keeps (t := T) hw).2, rfl,
      fun htile => Task.takes_tile fun q hq => htile q (hfl q hq), rfl, rfl,
      fun k hk => (congrArg (·.get .empty k) (State.trapped_tasks ..)).trans (Tab.get_put_ne _ _ _ hk),
      fun l => congrArg (·.rd l) (State.trapped_mem ..)⟩
  refine ⟨fun h => .of_eq (exec_takePendingTrap_of_stopped h) rfl,
    fun hst hf hg he => .of_eq (exec_takePendingTrap_of_entering hst hf hg he) ?_, fun ⟨hfree, hl, ht⟩ hr he hp => ?_,
    fun ⟨hfree, hl, ht⟩ hr hh h1 h2 => ?_, fun ⟨hfree, hl, ht⟩ hr hmem h1 h2 hlow hmono hh => ?_,
    fun hfree hl hv ht hh h1 h2 => ?_, fun ⟨hfree, hl, ht⟩ hr hh ha => ?_⟩
  -- The handler that a TRAPI asked for.
  · rw [State.trapped_setTaskAt_taskAt, Task.afterTrap_eq]
    exact ⟨rfl, rfl, rfl, rfl, rfl, rfl, fun q hq hall htile => List.mem_append_right _ (Task.mem_drained hq hall htile)⟩
  all_goals have ⟨_, _, _, hcore, hreplay, hentering, _⟩ := hfree
  -- Nothing is pending.
  · have hnone : T.nextTrap = none := by
      rw [Task.nextTrap_of_no_report hentering hreplay hl ht hr, Task.nextEvent_eq, he]
      rfl
    exact .of_eq (exec_takePendingTrap_of_none hfree hnone hp) rfl
  -- The oldest report.
  · have hnext := Task.nextTrap_of_report hentering hreplay hl ht hr
    refine .of_eq (exec_takePendingTrap_of_handler hfree hnext hh ht h1 h2)
      ⟨htaken _ _ (fun _ hq => hq) hcore 1 false rfl _ _ 0 0 rfl, ?_⟩
    rw [State.trapped_setTaskAt_taskAt, Task.takes_eq]
    exact ⟨rfl, rfl⟩
  -- The lowest event.
  · have hnext := Task.nextTrap_of_no_report hentering hreplay hl ht hr
    rw [Task.nextEvent_of_lowest hmem hlow hmono] at hnext
    refine .of_eq (exec_takePendingTrap_of_handler hfree hnext hh ht h1 h2)
      ⟨htaken _ _ (fun _ hq => hq) hcore 2 false rfl _ _ 0 0 rfl, ?_⟩
    rw [State.trapped_setTaskAt_taskAt, Task.takes_eq]
    exact ⟨hr, rfl⟩
  -- A late cause.
  · exact .of_eq (exec_takePendingTrap_of_handler hfree (Task.nextTrap_of_late hentering hl hv) hh ht h1 h2)
      (htaken _ _ (fun _ hq => List.mem_of_mem_erase hq) hcore 0 true rfl _ _ _ _ rfl)
  -- Without a handler.
  · have hnext := Task.nextTrap_of_report hentering hreplay hl ht hr
    refine .of_eq (exec_takePendingTrap_of_no_handler hfree hnext hh) ?_
    obtain ⟨htask, hctx⟩ :=
      State.fatal_of_active (State.setTaskAt_taskAt s core slot { T with reports := T.reports.drop 1 }) hcore ha r.cause
    exact ⟨congrArg Task.stat htask, congrArg Ctx.stat hctx, congrArg Ctx.toError hctx, congrArg Ctx.cause hctx⟩

end Sys2Proof.Machine
end

section
/-! ### The freeze watchdog on a retriever (R179, R226, R390)

An unrecoverable cause of a retriever's thread halts that thread, and of thread 0 alone it goes further (R390, R458). The statement's
last clause, which has the context of the task enter ERROR with 0x128, does not keep `core` below 1,024, as its clause on a save
without an area does. -/

namespace Sys2Proof.Machine

/-- A fetch of thread 1 of retriever 0, access 7 of the module, which a serviceable fault holds. -/
def faultedFetch : Held := { Held.new 7 (.retr 0 1) 0 (.fetch 0x1000) 0 0x1000 with why := .flush }

/-- Thread 1 of retriever 0, in its handler, which holds issue and whose fetch that is. -/
def faultedHandler : Task := { Task.empty with
  stat := .issuing, fetchHold := some 7, trap := { TrapCsr.zero with cause := BitVec.ofNat 64 (2 ^ 63) } }

/-- That thread alone in an ACTIVE context, frozen for as long as its FRZWD allows. -/
def frozenThreadState : State := { State.reset with
  tasks := [(taskKey 1024 1, faultedHandler)], cores := [(1024, { CoreSt.zero with frozen := 16 * 1400 })]
  ctxs := [(0, { Ctx.zero with stat := .active })], held := [faultedFetch] }

/-- Whether context 0 is to enter ERROR after an outcome. -/
def toErrorAfter : Out → Option Bool
  | .next t => some (t.ctxAt 0).toError
  | _ => none

/-- The thread is halted, and its context runs on. -/
theorem toErrorAfter_freezeConversion : toErrorAfter (exec (.freezeConversion 1024) frozenThreadState) = some false := by
  decide +kernel

/-- Refutes O42: the freeze watchdog puts no context in ERROR for a handler of a retriever's thread. -/
theorem not_preemptionAndWatchdogs : ¬ Obligations.PreemptionAndWatchdogs := by
  intro h
  obtain ⟨-, -, -, -, -, -, hhandler⟩ := h.2 frozenThreadState 1024 1 faultedHandler
  obtain ⟨t, ht, -, herr, -⟩ := hhandler faultedFetch (List.mem_singleton_self _) (by decide) (by decide) (by decide) (by decide)
    rfl rfl rfl (by decide)
  have hruns := toErrorAfter_freezeConversion
  rw [ht] at hruns
  exact absurd (herr.symm.trans (Option.some.inj hruns)) (by decide)

end Sys2Proof.Machine
end
